-- ==== Sys2Proof/Word.lean ====
section
/-! DEFINITION. The word types of the Hetre H8 and the numbers that name its parts (R4, R12). -/

namespace Sys2Proof

/-- One byte of memory (R4). -/
abbrev Byte := BitVec 8
/-- A general register, an address register or a control register (R138). -/
abbrev W64 := BitVec 64
/-- A syllable (R130). -/
abbrev W32 := BitVec 32
/-- Sparse data by key: a list of key and value pairs in rising key order. -/
abbrev SMap (α : Type) := List (Nat × α)

/-- Package core number, 32 × die + 8 × region + 4 × cluster + core (R12). -/
abbrev CoreId := Fin 64
/-- Package cluster number (R12). -/
abbrev ClusterId := Fin 16
/-- Package region number (R12). -/
abbrev RegionId := Fin 8
/-- Die number (R12). -/
abbrev DieId := Fin 2
/-- Package port number of a seam link (R289). -/
abbrev PortId := Fin 6
/-- Press channel number (R205). -/
abbrev PressId := Fin 4
/-- Command queue number (R328). -/
abbrev QueueId := Fin 16
/-- Mailbox number (R328). -/
abbrev MboxId := Fin 8
/-- Physical channel of a stack (R258). -/
abbrev PhysId := Fin 17
/-- Stream context of a transfer engine (R189). -/
abbrev StreamId := Fin 16
/-- The number of a general register (R138). -/
abbrev GReg := BitVec 6
/-- The number of a capability register c0 to c15 (R138). -/
abbrev CReg := BitVec 4

end Sys2Proof
end

