-- ==== Sys2Proof/Syntax.lean ====
section
/-! DEFINITION. The commands of the block: one constructor for each row of spec/opcode_table.json, with the row's operands.
An instruction row carries the core and the fields of its syllable (R130 to R152, R163, R189). An event row carries the
part it happens in, and what timing or the outside world decides (log 3): wait counts, error findings, data from outside. -/

namespace Sys2Proof

/-- The fields of a vector syllable (R151). -/
structure VF where
  vd : BitVec 5
  va : BitVec 5
  vb : BitVec 5
  vm : BitVec 3
  mkd : Bool
  z  : Bool
deriving DecidableEq, Repr

/-- Extension A of a vector syllable (R151). -/
structure ExtA where
  f1  : BitVec 4
  f2  : BitVec 4
  rnd : BitVec 2
  g   : Bool
  aux : BitVec 5
deriving DecidableEq, Repr

/-- Extension M of a vector syllable (R151). -/
structure ExtM where
  fmt : BitVec 4
  cM  : CReg
  gX  : GReg
  gY  : GReg
  aux : BitVec 5
  rnd : BitVec 2
deriving DecidableEq, Repr

/-- The fields of a slot 3 syllable (R136): for a store, gD is gS. -/
structure MemF where
  mode : BitVec 2
  gD   : GReg
  cM   : CReg
  gA   : GReg
  imm  : BitVec 6
deriving DecidableEq, Repr

/-- What an access does, for a capability (R157, R160) and for a page (R218). -/
inductive Acc where
  | load | store | fetch | accum
deriving DecidableEq, Repr

/-- Whose answer a request to a channel controller carries back. -/
inductive MSrc where
  | tx (c : CoreId) (tag : Nat)      -- a transfer engine's request (R185)
  | walk (c : CoreId)                -- a page walk (R217)
  | cache (cl : ClusterId)           -- a fill of a cluster (R235)
  | host                             -- CXL.mem (R358)
  | remote (src : BitVec 10)         -- a window of this package (R228)
  | own                              -- the controller itself: the rinse and its write-backs (R268, R271); none arrives at a ring stop
deriving DecidableEq, Repr

/-- What a request does at its controller (R265, R281). -/
inductive MKind where
  | read | write
  | acc (op : BitVec 2)
deriving DecidableEq, Repr

/-- A request as it reaches a channel controller (R265): up to 256 bytes within one granule. -/
structure MReq where
  src  : MSrc
  kind : MKind
  ctx  : Option (BitVec 4)     -- none: the request carries no context (R217, R358)
  pa   : BitVec 48
  len  : Nat
  data : List Byte
  poison : List Bool           -- for each byte of data whether it arrives poisoned; none named is sound
  crit : Bool                  -- a scalar-kind or instruction fetch fill, or a read of a last with PRIO = 1: class 0 of R266
deriving DecidableEq, Repr

/-- What the check of one 32-byte block finds (R268); the poison bit is state, the rest comes from the cells. -/
inductive Ecc where
  | clean | single | beyond
deriving DecidableEq, Repr

/-- The caches that may hold a bad copy of a line (R253): a core's L1I, L1D and basket, a cluster's L2 and hamper, the line's region
cache. -/
inductive CachePlace where
  | l1 (c : CoreId)
  | l2 (cl : ClusterId)
  | rc
deriving DecidableEq, Repr

/-- R253: an error in a 16-byte word of the line that a request looks up; unc: beyond correction. -/
structure CacheErr where
  place : CachePlace
  word  : Fin 4
  unc   : Bool
deriving DecidableEq, Repr

/-- The snoops of the host: SnpInv, SnpData and SnpCur (R249, R250). -/
inductive HostSnp where
  | inv | data | cur
deriving DecidableEq, Repr

/-- A seam-link message (R299); opc stands in the command. -/
structure Msg where
  vc   : BitVec 4
  ttl  : BitVec 5
  dst  : BitVec 10
  src  : BitVec 10
  tsn  : BitVec 32
  len  : BitVec 9
  offset : BitVec 37
  be   : Bool
  pois : Bool
  void : Bool
  incarn : BitVec 8
  rsv  : BitVec 2
  data : List Byte
deriving DecidableEq, Repr

/-- Who writes a register (R22, R181, R209, R387). -/
inductive Writer where
  | host | cretas | debugger
  | agent (c : CoreId)
deriving DecidableEq, Repr

/-- Where a written register lies (R21, R328, R351, R352, R355); the offset within the block stands beside it. -/
inductive RegTarget where
  | core (c : CoreId) | cluster (cl : ClusterId) | region (r : RegionId)
  | die (d : DieId) | cxlPort | bar0 | msix | hdm | dvsec | config
deriving DecidableEq, Repr

/-- What copy of a line a host read asks for (R359). -/
inductive HostWant where
  | current | shared | owned
deriving DecidableEq, Repr

/-- Why a host link recovery begins (R363). -/
inductive RecoveryCause where
  | linkDown | hotReset | secondaryReset | containment | busMasterClear | d3hot | refclk
deriving DecidableEq, Repr

/-- The straps as the board ties them (R415). -/
structure Straps where
  boot : BitVec 2
  pwrClass : BitVec 2
  pos  : BitVec 10
  feed : BitVec 4
  map  : Bool
  ssc  : Bool
  linkw : Bool
  dbg  : Bool
deriving DecidableEq, Repr

/-- The pin whose low level puts the package into reset (R418). -/
inductive ResetPin where
  | pwrGood | perst | stbyGood
deriving DecidableEq, Repr

/-- A main rail (R417). -/
inductive Rail where
  | vcore0 | vcore1 | vmem | vio | vaux
deriving DecidableEq, Repr

/-- One constructor for each row of spec/opcode_table.json, in the table's order. -/
inductive Instr where
  -- Gnosepol bundles, slot 0 (R132, R133)
  | bundleIssue (c : CoreId) (stall ahead : Nat)
  | nop (c : CoreId)
  | br (c : CoreId) (disp : BitVec 22)
  | call (c : CoreId) (disp : BitVec 22)
  | ret (c : CoreId)
  | jr (c : CoreId) (gA : GReg)
  | callr (c : CoreId) (gA : GReg)
  | bc (c : CoreId) (gA : GReg) (cc : BitVec 3) (disp : BitVec 13)
  | lpSet (c : CoreId) (n : BitVec 1) (gA : GReg) (disp : BitVec 13)
  | ctlRd (c : CoreId) (gD : GReg) (idx : BitVec 12)
  | ctlWr (c : CoreId) (gA : GReg) (idx : BitVec 12)
  | sys (c : CoreId) (imm : BitVec 16)
  | eret (c : CoreId)
  | fence (c : CoreId)
  | idle (c : CoreId)
  -- slots 1 and 2, integer (R134)
  | add (c : CoreId) (gD gA gB : GReg)
  | sub (c : CoreId) (gD gA gB : GReg)
  | and (c : CoreId) (gD gA gB : GReg)
  | or (c : CoreId) (gD gA gB : GReg)
  | xor (c : CoreId) (gD gA gB : GReg)
  | shl (c : CoreId) (gD gA gB : GReg)
  | shr (c : CoreId) (gD gA gB : GReg)
  | sra (c : CoreId) (gD gA gB : GReg)
  | rotl (c : CoreId) (gD gA gB : GReg)
  | min (c : CoreId) (gD gA gB : GReg)
  | max (c : CoreId) (gD gA gB : GReg)
  | minu (c : CoreId) (gD gA gB : GReg)
  | maxu (c : CoreId) (gD gA gB : GReg)
  | cmp (c : CoreId) (gD gA gB : GReg) (cc : BitVec 4)
  | sel (c : CoreId) (gD gA gB : GReg)
  | addi (c : CoreId) (gD gA : GReg) (imm : BitVec 10)
  | andi (c : CoreId) (gD gA : GReg) (imm : BitVec 10)
  | ori (c : CoreId) (gD gA : GReg) (imm : BitVec 10)
  | xori (c : CoreId) (gD gA : GReg) (imm : BitVec 10)
  | shli (c : CoreId) (gD gA : GReg) (amt : BitVec 6)
  | shri (c : CoreId) (gD gA : GReg) (amt : BitVec 6)
  | srai (c : CoreId) (gD gA : GReg) (amt : BitVec 6)
  | cmpi (c : CoreId) (gD gA : GReg) (cc : BitVec 4) (imm : BitVec 6)
  | clz (c : CoreId) (gD gA : GReg)
  | ctz (c : CoreId) (gD gA : GReg)
  | popc (c : CoreId) (gD gA : GReg)
  | parity (c : CoreId) (gD gA : GReg)
  | brev (c : CoreId) (gD gA : GReg) (imm : BitVec 6)
  | sext (c : CoreId) (gD gA : GReg) (sz : BitVec 2)
  | zext (c : CoreId) (gD gA : GReg) (sz : BitVec 2)
  | crc32c (c : CoreId) (gD gA gB : GReg) (sz : BitVec 2)
  | crc64 (c : CoreId) (gD gA gB : GReg) (sz : BitVec 2)
  | mfm (c : CoreId) (gD : GReg) (hi : Bool)
  | fcmp (c : CoreId) (gD gA gB : GReg) (fmt cc : BitVec 2)
  | fmax (c : CoreId) (gD gA gB : GReg) (fmt : BitVec 2)
  | fmin (c : CoreId) (gD gA gB : GReg) (fmt : BitVec 2)
  | fcvt (c : CoreId) (gD gA : GReg) (ffrom fto : BitVec 3) (rnd : BitVec 2)
  | movK (c : CoreId) (gD : GReg) (z : Bool) (pos : BitVec 2) (imm : BitVec 16)
  -- capability operations (R163)
  | capGetf (c : CoreId) (gD : GReg) (cA : CReg) (field : BitVec 3)
  | capSeta (c : CoreId) (cD cA : CReg) (gB : GReg)
  | capAdda (c : CoreId) (cD cA : CReg) (gB : GReg)
  | capSetb (c : CoreId) (cD cA : CReg) (gB : GReg)
  | capSetbo (c : CoreId) (cD cA : CReg) (gB : GReg)
  | capAndp (c : CoreId) (cD cA : CReg) (gB : GReg)
  | capMv (c : CoreId) (cD cA : CReg)
  | capClrt (c : CoreId) (cD cA : CReg)
  | capSeal (c : CoreId) (cD cA cB : CReg)
  | capUnseal (c : CoreId) (cD cA cB : CReg)
  | capChk (c : CoreId) (gD : GReg) (cA : CReg) (gB : GReg) (perm : BitVec 4)
  | capRds (c : CoreId) (cD : CReg) (s : BitVec 3)
  | capWrs (c : CoreId) (s : BitVec 3) (cA : CReg)
  -- slot 3, load and store (R136)
  | ldB (c : CoreId) (m : MemF)
  | ldBu (c : CoreId) (m : MemF)
  | ldH (c : CoreId) (m : MemF)
  | ldHu (c : CoreId) (m : MemF)
  | ldW (c : CoreId) (m : MemF)
  | ldWu (c : CoreId) (m : MemF)
  | ldD (c : CoreId) (m : MemF)
  | stB (c : CoreId) (m : MemF)
  | stH (c : CoreId) (m : MemF)
  | stW (c : CoreId) (m : MemF)
  | stD (c : CoreId) (m : MemF)
  | ldC (c : CoreId) (m : MemF)
  | stC (c : CoreId) (m : MemF)
  | pf (c : CoreId) (m : MemF)
  -- slot 4 (R147)
  | mulS (c : CoreId) (gA gB : GReg)
  | mulU (c : CoreId) (gA gB : GReg)
  | divS (c : CoreId) (gA gB : GReg)
  | divU (c : CoreId) (gA gB : GReg)
  -- late results and the store buffer (R142, R143, R148, R237)
  | loadDataArrival (c : CoreId) (i : Nat) (hostData : List Byte) (hostPoison : Bool)
  | productLands (c : CoreId)
  | storeDrain (c : CoreId) (hostData : List Byte)
  | stridePrefetchFill (c : CoreId)
  -- slot 5, vector (R108 to R125, R151)
  | vxSetvl (c : CoreId) (f : VF) (x : ExtM)
  | vxSync (c : CoreId) (f : VF)
  | vxAdd (c : CoreId) (f : VF) (x : ExtA)
  | vxSub (c : CoreId) (f : VF) (x : ExtA)
  | vxMul (c : CoreId) (f : VF) (x : ExtA)
  | vxFma (c : CoreId) (f : VF) (x : ExtA)
  | vxFms (c : CoreId) (f : VF) (x : ExtA)
  | vxDiv (c : CoreId) (f : VF) (x : ExtA)
  | vxSqrt (c : CoreId) (f : VF) (x : ExtA)
  | vxMax (c : CoreId) (f : VF) (x : ExtA)
  | vxMin (c : CoreId) (f : VF) (x : ExtA)
  | vxAbs (c : CoreId) (f : VF) (x : ExtA)
  | vxNeg (c : CoreId) (f : VF) (x : ExtA)
  | vxCpsgn (c : CoreId) (f : VF) (x : ExtA)
  | vxRndi (c : CoreId) (f : VF) (x : ExtA)
  | vxLdexp (c : CoreId) (f : VF) (x : ExtA)
  | vxGetexp (c : CoreId) (f : VF) (x : ExtA)
  | vxCmp (c : CoreId) (f : VF) (x : ExtA)
  | vxTwosum (c : CoreId) (f : VF) (x : ExtA)
  | vxMullo (c : CoreId) (f : VF) (x : ExtA)
  | vxIadd (c : CoreId) (f : VF) (x : ExtA)
  | vxIsub (c : CoreId) (f : VF) (x : ExtA)
  | vxAnd (c : CoreId) (f : VF) (x : ExtA)
  | vxOr (c : CoreId) (f : VF) (x : ExtA)
  | vxXor (c : CoreId) (f : VF) (x : ExtA)
  | vxShl (c : CoreId) (f : VF) (x : ExtA)
  | vxShr (c : CoreId) (f : VF) (x : ExtA)
  | vxSra (c : CoreId) (f : VF) (x : ExtA)
  | vxImin (c : CoreId) (f : VF) (x : ExtA)
  | vxImax (c : CoreId) (f : VF) (x : ExtA)
  | vxImul (c : CoreId) (f : VF) (x : ExtA)
  | vxLd (c : CoreId) (f : VF) (x : ExtM)
  | vxSt (c : CoreId) (f : VF) (x : ExtM)
  | vxLds (c : CoreId) (f : VF) (x : ExtM)
  | vxSts (c : CoreId) (f : VF) (x : ExtM)
  | vxLdx (c : CoreId) (f : VF) (x : ExtM)
  | vxStx (c : CoreId) (f : VF) (x : ExtM)
  | vxPackPnl (c : CoreId) (f : VF) (x : ExtM)
  | vxTqrd (c : CoreId) (f : VF) (x : ExtM)
  | vxTqhdr (c : CoreId) (f : VF) (x : ExtM)
  | vxTqpop (c : CoreId) (f : VF)
  | vxMv (c : CoreId) (f : VF)
  | vxBcst (c : CoreId) (f : VF) (x : ExtM)
  | vxExt (c : CoreId) (f : VF) (x : ExtM)
  | vxIns (c : CoreId) (f : VF) (x : ExtM)
  | vxPerm (c : CoreId) (f : VF) (x : ExtA)
  | vxShuf (c : CoreId) (f : VF) (x : ExtA)
  | vxPack (c : CoreId) (f : VF) (x : ExtA)
  | vxUnpack (c : CoreId) (f : VF) (x : ExtA)
  | vxCompress (c : CoreId) (f : VF) (x : ExtA)
  | vxExpand (c : CoreId) (f : VF) (x : ExtA)
  | vxMand (c : CoreId) (f : VF)
  | vxMor (c : CoreId) (f : VF)
  | vxMxor (c : CoreId) (f : VF)
  | vxMnot (c : CoreId) (f : VF)
  | vxMpop (c : CoreId) (f : VF) (x : ExtM)
  | vxMfirst (c : CoreId) (f : VF) (x : ExtM)
  | vxCvt (c : CoreId) (f : VF) (x : ExtA)
  | vxSlc (c : CoreId) (f : VF) (x : ExtM)
  | vxWrd (c : CoreId) (f : VF) (x : ExtM)
  | vxDraw (c : CoreId) (f : VF) (x : ExtA)
  | vxDrawu (c : CoreId) (f : VF) (x : ExtA)
  | vxRsum (c : CoreId) (f : VF) (x : ExtM)
  | vxRsumB (c : CoreId) (f : VF) (x : ExtA)
  | vxRmax (c : CoreId) (f : VF) (x : ExtM)
  | vxRmaxB (c : CoreId) (f : VF) (x : ExtA)
  | vxRmin (c : CoreId) (f : VF) (x : ExtM)
  | vxRminB (c : CoreId) (f : VF) (x : ExtA)
  | vxRsumi (c : CoreId) (f : VF) (x : ExtM)
  | vxRsumiB (c : CoreId) (f : VF) (x : ExtA)
  | vxRmaxBlk (c : CoreId) (f : VF) (x : ExtA)
  | vxRsumBlk (c : CoreId) (f : VF) (x : ExtA)
  -- the vector queue at work (R111, R123, R128): i names the entry of the queue
  | vectorRetire (c : CoreId) (i : Nat) (ariCycles : Nat)
  | vectorGregWrite (c : CoreId) (i : Nat)
  | tileQueueEmptyNoProducer (c : CoreId)
  -- slot 6, matrix (R68, R152)
  | mxLdd (c : CoreId) (md : BitVec 3) (cM : CReg) (gK : GReg)
  | mxOpen (c : CoreId) (m : BitVec 4) (t : Bool) (cM : CReg) (gK : GReg)
  | mxAcc (c : CoreId) (m : BitVec 4) (t : Bool) (mdA mdB : BitVec 3)
  | mxAccs (c : CoreId) (m : BitVec 4) (t : Bool) (mdA mdB : BitVec 3) (i j : BitVec 3) (fe : Bool)
  | mxClose (c : CoreId) (m : BitVec 4) (t : Bool)
  | mxWait (c : CoreId) (gD : GReg) (a : BitVec 2) (t : Bool)
  | mxStat (c : CoreId) (gD : GReg)
  | mxStop (c : CoreId) (cM : CReg) (gK : GReg)
  | mxResume (c : CoreId) (cM : CReg) (gK : GReg)
  -- the matrix unit at work (R73, R76, R80, R81, R91 to R96)
  | matrixOpStart (c : CoreId) (i : Nat)
  | accBlockEnd (c : CoreId) (waits stalls : Nat) (bank : List Nat := [])
  | foldMergeEnd (c : CoreId) (parityBad : List Nat)
  | accRetire (c : CoreId) (stalls : Nat := 0)
  | closeEnd (c : CoreId) (a : Fin 4)
  | tileQueueEntry (c : CoreId)
  | tileQueueNotDrained (c : CoreId)
  -- exceptions (R166 to R177, R401): beats gives, for each queued vector instruction, its finished beats
  | exceptionEntry (c : CoreId) (beats : List Nat)
  | timerInterrupt (c : CoreId)
  | debugHaltRequest (c : CoreId)
  -- slot 7, transfer and press (R189)
  | txLast (c : CoreId) (gD : GReg) (cM : CReg) (gA : GReg)
  | txFuse (c : CoreId) (gD : GReg) (cM : CReg) (gA : GReg)
  | txWait (c : CoreId) (gD gA : GReg)
  | txTest (c : CoreId) (gD gA : GReg)
  | txStw (c : CoreId) (gD gA gB : GReg)
  | txStp (c : CoreId) (gA gB : GReg)
  | prArrive (c : CoreId) (imm : BitVec 6)
  | prWait (c : CoreId) (imm : BitVec 6)
  | prSync (c : CoreId) (imm : BitVec 6)
  | mgPost (c : CoreId) (cM : CReg) (gA : GReg)
  | mgRot (c : CoreId) (cM : CReg) (gA : GReg)
  | mgWait (c : CoreId) (gD : GReg)
  -- the transfer engine, the stage sequencer and the mangle ring at work (R185, R191, R194 to R204)
  | txRequestIssue (c : CoreId) (s : StreamId) (tagWait : Nat)
  | txRequestComplete (c : CoreId) (tag : Nat) (ord : List Nat) (hostData : List Byte) (outPoison : Bool)
  | streamHaltRecord (c : CoreId) (s : StreamId)
  | streamEnd (c : CoreId) (s : StreamId)
  | stageFire (c : CoreId) (s : StreamId) (stage : Fin 6)
  | slotHandover (c : CoreId) (s : StreamId) (stage : Fin 6)
  | spillReadback (c : CoreId) (s : StreamId) (edge : Fin 8)
  | sequencerQueueEntry (c : CoreId) (held : Nat)
  | fusedStall (c : CoreId) (s : StreamId)
  | mgRotationStart (c : CoreId)
  | mgRotationEnd (c : CoreId)
  -- the press tree (R206, R208)
  | pressArrivalEnter (c : CoreId) (ch : PressId)
  | pressTimeout (ch : PressId)
  -- translation (R218 to R230)
  | translationWalk (c : CoreId) (ctx : BitVec 4) (va : W64) (acc : Acc)
  | walkComplete (c : CoreId) (i : Nat) (waitCycles : Nat)
  | invDbWrite (v : W64)
  | invBroadcast
  | invUnitReceipt (c : CoreId)
  | invUnitAck (c : CoreId) (parity : Bool := false)
  | invDone
  | invTimeout
  | trinvWrite (w : Writer) (c : CoreId) (v : W64)
  | windowDrainEnd (w : Fin 64)
  -- caches and coherence (R236 to R250): line is the address of a 64-byte line divided by 64
  | cacheRead (cl : ClusterId) (line : BitVec 58) (host scalar : Bool) (hostData : List Byte) (bad : Bool) (errs : List CacheErr := [])
  | cacheReadown (cl : ClusterId) (line : BitVec 58) (host : Bool) (hostData : List Byte)
  | cacheUpgrade (cl : ClusterId) (line : BitVec 58) (host : Bool)
  | cacheReadcur (cl : ClusterId) (line : BitVec 58)
  | cacheWriteinv (cl : ClusterId) (line : BitVec 58) (mask : BitVec 64) (data : BitVec 512) (poison : Bool)
  | snoopReturn (cl : ClusterId) (i : Nat)
  | l2Eviction (cl : ClusterId) (set : Nat) (waits : Nat)
  | evictionAck (cl : ClusterId) (line : BitVec 58) (waits : Nat := 0)
  | hamperWait (cl : ClusterId)
  | retryReissue (cl : ClusterId) (i : Nat)
  | holdWindowEnd (cl : ClusterId) (line : BitVec 58)
  | writebackArrival (r : RegionId) (i : Nat)
  | h2dSnoop (line : BitVec 58) (want : HostSnp)
  | hostEvictGo (cl : ClusterId) (line : BitVec 58) (waits : Nat := 0)
  | l1Icinv (c : CoreId)
  | l1Dcinv (c : CoreId)
  | amaxclr (c : CoreId) (beats : List Nat)
  -- memory stacks and controllers (R264 to R284)
  | mcRequestArrival (r : RegionId) (q : MReq)
  | mcBurst (r : RegionId) (p : PhysId) (ecc : List Ecc) (rtWait : Nat)
  | entryAged (r : RegionId) (p : PhysId) (i : Nat)
  | rinseRead (r : RegionId) (p : PhysId) (ecc : List Ecc)
  | retrainStart (r : RegionId) (p : PhysId) (tempMoved : Bool)
  | retrainEnd (r : RegionId) (ok : Bool)
  | patchCopyGranule (r : RegionId) (ecc : List Ecc)
  | patchSwap (r : RegionId)
  | patchDone (r : RegionId)
  | poisonFillEnd (r : RegionId) (p : PhysId)
  | soakGo (r : RegionId) (p : PhysId)
  | soakEnd (r : RegionId) (p : PhysId) (back : List (Nat × List Byte))
  | memoryStartup (failed : List (RegionId × PhysId))
  | zeroFillEnd
  -- seam links (R290 to R296)
  | linkDetect (p : PortId) (energy : BitVec 8)
  | linkTrainEnd (p : PortId) (locked : BitVec 8)
  | configFlitRx (p : PortId) (flit : List Byte) (uncorrectable : Bool) (corrected : Nat := 0)
  | dataFlitRx (p : PortId) (flit : List Byte) (uncorrectable : Bool) (corrected : Nat := 0)
  | idleFlitRx (p : PortId) (flit : List Byte) (uncorrectable : Bool) (corrected : Nat := 0)
  | linkReplay (p : PortId)
  | laneLockLoss (p : PortId) (lane : Fin 8)
  | uncorrectableCwBurst (p : PortId) (lane : Fin 8) (count : Nat)
  | slRetrain (p : PortId)
  | slEnable (p : PortId) (en : Bool)
  | retrainAttemptEnd (p : PortId) (ok : Bool) (locked : BitVec 8)
  | linkDownExpiry (p : PortId)
  -- messages (R297 to R307)
  | msgRd (m : Msg)
  | msgWr (m : Msg)
  | msgRaf (m : Msg)
  | msgRab (m : Msg)
  | msgRai (m : Msg)
  | msgWinq (m : Msg)
  | msgWinn (m : Msg)
  | msgBar (m : Msg)
  | msgBarrel (m : Msg)
  | msgAck (m : Msg)
  | msgRdrsp (m : Msg)
  | msgNack (m : Msg)
  | msgWinr (m : Msg)
  | messageForward (opc : BitVec 8) (m : Msg)
  | ackTimer (src : BitVec 10) (vc : BitVec 4)
  | e2eTimeout (dst : BitVec 10) (vc : BitVec 4)
  -- BAR0 (R328 to R330, R347)
  | mbGo (n : MboxId)
  | qTailWrite (q : QueueId) (v : W32)
  | qCqheadWrite (q : QueueId) (v : W32)
  | qEnable (q : QueueId)
  | frHeadWrite (v : W32)
  | erHeadWrite (v : W32)
  | registerWrite (w : Writer) (t : RegTarget) (off size : Nat) (v : BitVec 512)
  -- Cretas (R334 to R348): j names the journal slot of the accepted entry that the command carries out
  | commandAccept (q : QueueId) (hostEntry : BitVec 512)
  | commandCommit (j : Nat) (corr : Nat) (lost : List Nat := [])
  | hello (j : Nat)
  | caps (j : Nat)
  | mapFrames (j : Nat)
  | mapWindow (j : Nat)
  | mapContext (j : Nat)
  | mapDeviceMap (j : Nat)
  | unmapFrames (j : Nat)
  | unmapWindow (j : Nat)
  | invalRange (j : Nat) (late : W64)
  | loadImage (j : Nat) (hostImage : List Byte)
  | launch (j : Nat) (keys : List (BitVec 128))
  | lexitWrite (c : CoreId) (v : W32)
  | launchTimeout (j : Nat)
  | fuse (j : Nat)
  | pressCfg (j : Nat)
  | snap (j : Nat)
  | restore (j : Nat) (outside : List Byte)
  | pair (j : Nat) (answer : List Byte)
  | partReset (j : Nat)
  | partResetEnd (level : Fin 3) (number : Nat)
  | partResetOverrun (level : Fin 3) (number : Nat)
  | patch (j : Nat)
  | soak (j : Nat)
  | statusSummary (j : Nat)
  | statusWearGauge (j : Nat)
  | statusWindowQuery (j : Nat)
  | events (j : Nat)
  | txresResume (w : Writer) (c : CoreId) (s : StreamId)
  | txresAbort (w : Writer) (c : CoreId) (s : StreamId)
  | attest (j : Nat) (nonce : BitVec 256)
  | debugChallenge (j : Nat) (nonce : BitVec 256)
  | debugTokenUnlock (j : Nat) (token : List Byte) (age : Nat)
  | debugPasswordUnlock (j : Nat) (block : List Byte)
  | debugClose (j : Nat)
  | unlockHoldoffEnd
  | heartbeatLossTakeover
  | firmwareRestart
  | standbyFailure
  | nestedErrorEscalate
  | queueSaturation (q : QueueId)
  | faultRecordPost
  | eventPost
  -- wear gauge and resoles (R367 to R381)
  | gaugeRecompute (x : Vector (BitVec 32) 5)
  | captureQuiesced
  | captureEnd
  | captureAbandon (tooLong : Bool)
  | replicationEnd
  | replicationFail (code : BitVec 16)
  -- boot, attestation and debug (R393 to R400)
  | boot
  | spdmGetVersion
  | spdmGetCapabilities
  | spdmNegotiateAlgorithms
  | spdmGetDigests
  | spdmGetCertificate
  | spdmChallenge (nonce : BitVec 256)
  | spdmGetMeasurements (nonce : BitVec 256)
  | spdmChunkGet
  | doeDiscovery (index : Nat)
  | cdatRead (entry : Nat)
  | doeAbort
  | tapIdcode
  | tapBypass (tdi : Bool)
  | tapSamplePreload (pins : List Bool)
  | tapExtest (pins : List Bool)
  | tapUnlockstat
  -- CXL (R350, R357 to R363)
  | cxlMemRead (hoff : W64) (want : HostWant)
  | cxlMemWrite (hoff : W64) (mask : BitVec 64) (data : BitVec 512) (poison giveUp : Bool)
  | birspArrival (line : BitVec 58) (dirty : Option (BitVec 512))
  | biconflict (line : BitVec 58)
  | hostLinkRecovery (cause : RecoveryCause)
  | hostLinkL0
  | hostEnable
  | holdmsExpiry (i : Nat)
  -- power, clocks and the sideband (R414 to R432)
  | pwrGoodRise (straps : Straps)
  | packageResetRelease
  | pllLock
  | packageResetEntry (pin : ResetPin)
  | vstbyLoss
  | railUndervoltage (rail : Rail)
  | refclkLoss
  | slRefclkLoss (d : DieId)
  | powerSample (avg : BitVec 11) (mayStep : Bool)
  | tempHot (t : BitVec 16)
  | tempStep (t : BitVec 16)
  | tempCool (t : BitVec 16)
  | thermalTrip (t : BitVec 16)
  | throtNAssert
  | throtNDeassert
  | smbReadWord (addr : BitVec 7) (cmd : BitVec 8)
  | smbAlertResponse
  | standbyRejoin
  | cxlLinkUp (rate : BitVec 3) (width : BitVec 5) (fail : BitVec 2)
  | stbyGoodRise
  | voltageDroopEvent
  | spdmSignatureDone
deriving DecidableEq, Repr

end Sys2Proof
end

