-- ==== Sys2Proof/WellFormed.lean ====
section
/-! DEFINITION. Which instruction rows are well formed as syntax: the values that the spec's field tables admit (R130, R133,
R134, R151, R163), and for event rows the shapes of their operands. -/

namespace Sys2Proof

/-- How a vector instruction uses the mask fields (R109, R151): none of them; a governing mask; the vm field as an operand,
with or without Z. -/
inductive MaskUse where
  | none | governing | operandZ | operand
deriving DecidableEq, Repr

/-- Which fields of its syllable a vector instruction names (R130): vd, va, vb (mask operands take 3 bits), and the mask. -/
structure VUse where
  vd : Nat := 0
  va : Nat := 0
  vb : Nat := 0
  mask : MaskUse := .governing
deriving DecidableEq, Repr

/-- n = 0: the field is unused and must be 0; 1: a vector register; 2: a mask register (R151). -/
def regOk (n : Nat) (x : BitVec 5) : Bool :=
  if n = 0 then x == 0 else if n = 2 then decide (x.toNat < 8) else true

def VF.ok (f : VF) (u : VUse) : Bool :=
  regOk u.vd f.vd && regOk u.va f.va && regOk u.vb f.vb &&
  match u.mask with
  | .none => f.vm == 0 && !f.mkd && !f.z
  | .governing => true
  | .operandZ => !f.mkd
  | .operand => !f.mkd && !f.z

/-- The fields of extension A that an instruction does not use must be 0 (R130). -/
def ExtA.ok (x : ExtA) (f1 f2 rnd g aux : Bool) : Bool :=
  (f1 || x.f1 == 0) && (f2 || x.f2 == 0) && (rnd || x.rnd == 0) && (g || !x.g) && (aux || x.aux == 0)

/-- The fields of extension M that an instruction does not use must be 0 (R130). -/
def ExtM.ok (x : ExtM) (fmt cM gX gY aux rnd : Bool) : Bool :=
  (fmt || x.fmt == 0) && (cM || x.cM == 0) && (gX || x.gX == 0) && (gY || x.gY == 0) && (aux || x.aux == 0) && (rnd || x.rnd == 0)

/-- A capability moves between registers c0 to c15: the upper bits of gD are reserved (R136). -/
def MemF.capOk (m : MemF) : Bool := decide (m.gD.toNat < 16)

/-- A vector instruction of three registers whose extension names F1, and RND where it rounds. -/
def vArith (f : VF) (x : ExtA) (vb rnd aux : Bool) : Bool :=
  f.ok { vd := 1, va := 1, vb := vb.toNat } && x.ok true false rnd false aux

/-- The instruction's fields hold values that its encoding admits. -/
def Instr.wf : Instr → Bool
  | .cmp _ _ _ _ cc => decide (cc.toNat ≤ 5)
  | .cmpi _ _ _ cc _ => decide (cc.toNat ≤ 5)
  | .sext _ _ _ sz => decide (sz.toNat ≤ 2)
  | .zext _ _ _ sz => decide (sz.toNat ≤ 2)
  | .fcvt _ _ _ f t r => decide (f.toNat ≤ 5) && decide (t.toNat ≤ 5) && decide (r.toNat ≤ 1)
  | .capChk _ _ _ _ p => decide (p.toNat ≤ 11)
  | .capRds _ _ s => decide (s.toNat ≤ 4)
  | .capWrs _ s _ => decide (s.toNat ≤ 4)
  | .ldC _ m => m.capOk
  | .stC _ m => m.capOk
  | .pf _ m => m.gD == 0
  | .vxSetvl _ f x => f.ok { mask := .none } && x.ok false false true true true false && decide (x.aux.toNat ≤ 5)
  | .vxSync _ f => f.ok { mask := .none }
  | .vxAdd _ f x => vArith f x true true false
  | .vxSub _ f x => vArith f x true true false
  | .vxMul _ f x => vArith f x true true false
  | .vxFma _ f x => vArith f x true true true
  | .vxFms _ f x => vArith f x true true true
  | .vxDiv _ f x => vArith f x true true false
  | .vxSqrt _ f x => vArith f x false true false
  | .vxMax _ f x => vArith f x true false false
  | .vxMin _ f x => vArith f x true false false
  | .vxAbs _ f x => vArith f x false false false
  | .vxNeg _ f x => vArith f x false false false
  | .vxCpsgn _ f x => vArith f x true false false
  | .vxRndi _ f x => vArith f x false true false
  | .vxLdexp _ f x => vArith f x true true false
  | .vxGetexp _ f x => vArith f x false false false
  | .vxCmp _ f x => f.ok { vd := 2, va := 1, vb := 1 } && x.ok true false false false true && decide (x.aux.toNat ≤ 6)
  | .vxTwosum _ f x => vArith f x true true true
  | .vxMullo _ f x => vArith f x true true false
  | .vxIadd _ f x => vArith f x true false false
  | .vxIsub _ f x => vArith f x true false false
  | .vxAnd _ f x => vArith f x true false false
  | .vxOr _ f x => vArith f x true false false
  | .vxXor _ f x => vArith f x true false false
  | .vxShl _ f x => vArith f x true false false
  | .vxShr _ f x => vArith f x true false false
  | .vxSra _ f x => vArith f x true false false
  | .vxImin _ f x => vArith f x true false false
  | .vxImax _ f x => vArith f x true false false
  | .vxImul _ f x => vArith f x true false false
  | .vxLd _ f x => f.ok { vd := 1 } && x.ok true true true false false false
  | .vxSt _ f x => f.ok { vd := 1 } && x.ok true true true false false false
  | .vxLds _ f x => f.ok { vd := 1 } && x.ok true true true true false false
  | .vxSts _ f x => f.ok { vd := 1 } && x.ok true true true true false false
  | .vxLdx _ f x => f.ok { vd := 1, vb := 1 } && x.ok true true true false false false
  | .vxStx _ f x => f.ok { vd := 1, vb := 1 } && x.ok true true true false false false
  | .vxPackPnl _ f x => f.ok { vd := 1 } && x.ok true true true true false false
  | .vxTqrd _ f x => f.ok { vd := 1, mask := .none } && x.ok false false true false false false
  | .vxTqhdr _ f x => f.ok { mask := .none } && x.ok false false true true false false
  | .vxTqpop _ f => f.ok { mask := .none }
  | .vxMv _ f => f.ok { vd := 1, va := 1, mask := .none }
  | .vxBcst _ f x => f.ok { vd := 1 } && x.ok true false true false false false
  | .vxExt _ f x => f.ok { va := 1, mask := .none } && x.ok true false true true false false
  | .vxIns _ f x => f.ok { vd := 1 } && x.ok true false true true false false
  | .vxPerm _ f x => vArith f x true false false
  | .vxShuf _ f x => vArith f x true false true && decide (x.aux.toNat ≤ 5)
  | .vxPack _ f x => f.ok { vd := 1, va := 1, vb := 1 } && x.ok true true false false false
  | .vxUnpack _ f x => f.ok { vd := 1, va := 1 } && x.ok true true false false false
  | .vxCompress _ f x => f.ok { vd := 1, va := 1, mask := .operandZ } && x.ok true false false false false
  | .vxExpand _ f x => f.ok { vd := 1, va := 1, mask := .operandZ } && x.ok true false false false false
  | .vxMand _ f => f.ok { vd := 2, va := 2, vb := 2, mask := .none }
  | .vxMor _ f => f.ok { vd := 2, va := 2, vb := 2, mask := .none }
  | .vxMxor _ f => f.ok { vd := 2, va := 2, vb := 2, mask := .none }
  | .vxMnot _ f => f.ok { vd := 2, va := 2, mask := .none }
  | .vxMpop _ f x => f.ok { mask := .operand } && x.ok false false true false false false
  | .vxMfirst _ f x => f.ok { mask := .operand } && x.ok false false true false false false
  | .vxCvt _ f x => f.ok { vd := 1, va := 1, vb := 1 } && x.ok true true true true false
  | .vxSlc _ f x => f.ok { vd := 1, va := 1, vb := 1 } && x.ok true false true false true false
  | .vxWrd _ f x => f.ok { vd := 1, va := 1 } && x.ok true true true true false true
  | .vxDraw _ f x => f.ok { vd := 1 } && x.ok false false false false true
  | .vxDrawu _ f x => f.ok { vd := 1 } && x.ok false false false false true
  | .vxRsum _ f x => f.ok { va := 1 } && x.ok true false true false false false
  | .vxRsumB _ f x => vArith f x false false false
  | .vxRmax _ f x => f.ok { va := 1 } && x.ok true false true false false false
  | .vxRmaxB _ f x => vArith f x false false false
  | .vxRmin _ f x => f.ok { va := 1 } && x.ok true false true false false false
  | .vxRminB _ f x => vArith f x false false false
  | .vxRsumi _ f x => f.ok { va := 1 } && x.ok true false true false false false
  | .vxRsumiB _ f x => vArith f x false false false
  | .vxRmaxBlk _ f x => vArith f x false false false
  | .vxRsumBlk _ f x => vArith f x false false false
  | .prArrive _ imm => decide (imm.toNat < 8)
  | .prWait _ imm => decide (imm.toNat < 4)
  | .prSync _ imm => decide (imm.toNat < 8)
  | .registerWrite _ _ off size _ => (size == 4 || size == 8 || size == 64) && off % size == 0
  | .mcRequestArrival _ q => decide (q.len ≤ 256) && decide (q.pa.toNat % 256 + q.len ≤ 256)
  | _ => true

end Sys2Proof
end

