-- ==== Sys2Proof/Decode.lean ====
section
/-! DEFINITION. What a table word spells (no row of spec/opcode_table.json gives bits, so none does), and the encoding and
decoding of the syllables of a bundle (R130 to R136, R147, R151, R152, R163, R189). -/

namespace Sys2Proof

/-- The command that a word spells by the bits of spec/opcode_table.json: the table gives no row any bits. -/
def decodeTableWord (_nbits _w : Nat) : Option Instr := none

namespace Machine

/-- w bits of b from bit lo up. -/
def fld {w : Nat} (b lo : Nat) : BitVec w := BitVec.ofNat w (b / 2 ^ lo)

def fldB (b lo : Nat) : Bool := decide (b / 2 ^ lo % 2 = 1)

/-- The fields of a slot 3 syllable (R136). -/
def memF (b : Nat) : MemF := ⟨fld b 22, fld b 16, fld b 12, fld b 6, fld b 0⟩

def memBody (m : MemF) : Nat :=
  m.mode.toNat * 2 ^ 22 + m.gD.toNat * 2 ^ 16 + m.cM.toNat * 2 ^ 12 + m.gA.toNat * 2 ^ 6 + m.imm.toNat

/-- The fields of a vector syllable (R151). -/
def vF (b : Nat) : VF := ⟨fld b 15, fld b 10, fld b 5, fld b 2, fldB b 1, fldB b 0⟩

def vBody (x : Bool) (op : Nat) (f : VF) : Nat :=
  x.toNat * 2 ^ 27 + op * 2 ^ 20 + f.vd.toNat * 2 ^ 15 + f.va.toNat * 2 ^ 10 + f.vb.toNat * 2 ^ 5 + f.vm.toNat * 2 ^ 2
    + f.mkd.toNat * 2 + f.z.toNat

/-- Extension A (R151). -/
def extA (b : Nat) : ExtA := ⟨fld b 24, fld b 20, fld b 18, fldB b 17, fld b 12⟩

def aBody (x : ExtA) : Nat :=
  x.f1.toNat * 2 ^ 24 + x.f2.toNat * 2 ^ 20 + x.rnd.toNat * 2 ^ 18 + x.g.toNat * 2 ^ 17 + x.aux.toNat * 2 ^ 12

/-- Extension M (R151). -/
def extM (b : Nat) : ExtM := ⟨fld b 24, fld b 20, fld b 14, fld b 8, fld b 3, fld b 1⟩

def mBody (x : ExtM) : Nat :=
  x.fmt.toNat * 2 ^ 24 + x.cM.toNat * 2 ^ 20 + x.gX.toNat * 2 ^ 14 + x.gY.toNat * 2 ^ 8 + x.aux.toNat * 2 ^ 3 + x.rnd.toNat * 2

/-- Slot 0 (R133). -/
def encode0 (i : Instr) : Option (Nat × Nat × Option Nat) :=
  match i with
  | .nop _ => some (0, 0, none)
  | .br _ disp => some (0, 1 * 4194304 + disp.toNat, none)
  | .call _ disp => some (0, 2 * 4194304 + disp.toNat, none)
  | .ret _ => some (0, 3 * 4194304, none)
  | .jr _ gA => some (0, 4 * 4194304 + gA.toNat * 65536, none)
  | .callr _ gA => some (0, 5 * 4194304 + gA.toNat * 65536, none)
  | .bc _ gA cc disp => some (0, 8 * 4194304 + gA.toNat * 65536 + cc.toNat * 8192 + disp.toNat, none)
  | .lpSet _ n gA disp => some (0, 16 * 4194304 + n.toNat * 2097152 + gA.toNat * 32768 + disp.toNat, none)
  | .ctlRd _ gD idx => some (0, 24 * 4194304 + gD.toNat * 65536 + idx.toNat, none)
  | .ctlWr _ gA idx => some (0, 25 * 4194304 + gA.toNat * 65536 + idx.toNat, none)
  | .sys _ imm => some (0, 28 * 4194304 + imm.toNat, none)
  | .eret _ => some (0, 29 * 4194304, none)
  | .fence _ => some (0, 30 * 4194304, none)
  | .idle _ => some (0, 31 * 4194304, none)
  | _ => none

/-- Slots 1 and 2 (R134, R163). -/
def encode1 (i : Instr) : Option (Nat × Nat × Option Nat) :=
  match i with
  | .add _ gD gA gB => some (1, gD.toNat * 65536 + gA.toNat * 1024 + gB.toNat * 16, none)
  | .sub _ gD gA gB => some (1, 1 * 4194304 + gD.toNat * 65536 + gA.toNat * 1024 + gB.toNat * 16, none)
  | .and _ gD gA gB => some (1, 2 * 4194304 + gD.toNat * 65536 + gA.toNat * 1024 + gB.toNat * 16, none)
  | .or _ gD gA gB => some (1, 3 * 4194304 + gD.toNat * 65536 + gA.toNat * 1024 + gB.toNat * 16, none)
  | .xor _ gD gA gB => some (1, 4 * 4194304 + gD.toNat * 65536 + gA.toNat * 1024 + gB.toNat * 16, none)
  | .shl _ gD gA gB => some (1, 5 * 4194304 + gD.toNat * 65536 + gA.toNat * 1024 + gB.toNat * 16, none)
  | .shr _ gD gA gB => some (1, 6 * 4194304 + gD.toNat * 65536 + gA.toNat * 1024 + gB.toNat * 16, none)
  | .sra _ gD gA gB => some (1, 7 * 4194304 + gD.toNat * 65536 + gA.toNat * 1024 + gB.toNat * 16, none)
  | .rotl _ gD gA gB => some (1, 8 * 4194304 + gD.toNat * 65536 + gA.toNat * 1024 + gB.toNat * 16, none)
  | .min _ gD gA gB => some (1, 9 * 4194304 + gD.toNat * 65536 + gA.toNat * 1024 + gB.toNat * 16, none)
  | .max _ gD gA gB => some (1, 10 * 4194304 + gD.toNat * 65536 + gA.toNat * 1024 + gB.toNat * 16, none)
  | .minu _ gD gA gB => some (1, 11 * 4194304 + gD.toNat * 65536 + gA.toNat * 1024 + gB.toNat * 16, none)
  | .maxu _ gD gA gB => some (1, 12 * 4194304 + gD.toNat * 65536 + gA.toNat * 1024 + gB.toNat * 16, none)
  | .cmp _ gD gA gB cc => some (1, 13 * 4194304 + gD.toNat * 65536 + gA.toNat * 1024 + gB.toNat * 16 + cc.toNat, none)
  | .sel _ gD gA gB => some (1, 14 * 4194304 + gD.toNat * 65536 + gA.toNat * 1024 + gB.toNat * 16, none)
  | .addi _ gD gA imm => some (1, 16 * 4194304 + gD.toNat * 65536 + gA.toNat * 1024 + imm.toNat, none)
  | .andi _ gD gA imm => some (1, 17 * 4194304 + gD.toNat * 65536 + gA.toNat * 1024 + imm.toNat, none)
  | .ori _ gD gA imm => some (1, 18 * 4194304 + gD.toNat * 65536 + gA.toNat * 1024 + imm.toNat, none)
  | .xori _ gD gA imm => some (1, 19 * 4194304 + gD.toNat * 65536 + gA.toNat * 1024 + imm.toNat, none)
  | .shli _ gD gA amt => some (1, 20 * 4194304 + gD.toNat * 65536 + gA.toNat * 1024 + amt.toNat, none)
  | .shri _ gD gA amt => some (1, 21 * 4194304 + gD.toNat * 65536 + gA.toNat * 1024 + amt.toNat, none)
  | .srai _ gD gA amt => some (1, 22 * 4194304 + gD.toNat * 65536 + gA.toNat * 1024 + amt.toNat, none)
  | .cmpi _ gD gA cc imm => some (1, 23 * 4194304 + gD.toNat * 65536 + gA.toNat * 1024 + cc.toNat * 64 + imm.toNat, none)
  | .clz _ gD gA => some (1, 32 * 4194304 + gD.toNat * 65536 + gA.toNat * 1024, none)
  | .ctz _ gD gA => some (1, 33 * 4194304 + gD.toNat * 65536 + gA.toNat * 1024, none)
  | .popc _ gD gA => some (1, 34 * 4194304 + gD.toNat * 65536 + gA.toNat * 1024, none)
  | .parity _ gD gA => some (1, 35 * 4194304 + gD.toNat * 65536 + gA.toNat * 1024, none)
  | .brev _ gD gA imm => some (1, 36 * 4194304 + gD.toNat * 65536 + gA.toNat * 1024 + imm.toNat, none)
  | .sext _ gD gA sz => some (1, 37 * 4194304 + gD.toNat * 65536 + gA.toNat * 1024 + sz.toNat, none)
  | .zext _ gD gA sz => some (1, 38 * 4194304 + gD.toNat * 65536 + gA.toNat * 1024 + sz.toNat, none)
  | .crc32c _ gD gA gB sz => some (1, 40 * 4194304 + gD.toNat * 65536 + gA.toNat * 1024 + gB.toNat * 16 + sz.toNat, none)
  | .crc64 _ gD gA gB sz => some (1, 41 * 4194304 + gD.toNat * 65536 + gA.toNat * 1024 + gB.toNat * 16 + sz.toNat, none)
  | .mfm _ gD hi => some (1, 44 * 4194304 + gD.toNat * 65536 + hi.toNat, none)
  | .fcmp _ gD gA gB fmt cc => some (1, 45 * 4194304 + gD.toNat * 65536 + gA.toNat * 1024 + gB.toNat * 16 + fmt.toNat * 4 + cc.toNat, none)
  | .fcvt _ gD gA ffrom fto rnd => some (1, 47 * 4194304 + gD.toNat * 65536 + gA.toNat * 1024 + ffrom.toNat * 128 + fto.toNat * 16 + rnd.toNat, none)
  | .fmax _ gD gA gB fmt => some (1, 46 * 4194304 + gD.toNat * 65536 + gA.toNat * 1024 + gB.toNat * 16 + fmt.toNat * 4, none)
  | .fmin _ gD gA gB fmt => some (1, 46 * 4194304 + gD.toNat * 65536 + gA.toNat * 1024 + gB.toNat * 16 + fmt.toNat * 4 + 1, none)
  | .capGetf _ gD cA field => some (1, 48 * 4194304 + gD.toNat * 65536 + cA.toNat * 1024 + field.toNat, none)
  | .capChk _ gD cA gB perm => some (1, 54 * 4194304 + gD.toNat * 65536 + cA.toNat * 1024 + gB.toNat * 16 + perm.toNat, none)
  | .capSeta _ cD cA gB => some (1, 49 * 4194304 + cD.toNat * 65536 + cA.toNat * 1024 + gB.toNat * 16, none)
  | .capAdda _ cD cA gB => some (1, 49 * 4194304 + cD.toNat * 65536 + cA.toNat * 1024 + gB.toNat * 16 + 1, none)
  | .capSetb _ cD cA gB => some (1, 50 * 4194304 + cD.toNat * 65536 + cA.toNat * 1024 + gB.toNat * 16, none)
  | .capSetbo _ cD cA gB => some (1, 50 * 4194304 + cD.toNat * 65536 + cA.toNat * 1024 + gB.toNat * 16 + 1, none)
  | .capAndp _ cD cA gB => some (1, 51 * 4194304 + cD.toNat * 65536 + cA.toNat * 1024 + gB.toNat * 16, none)
  | .capMv _ cD cA => some (1, 52 * 4194304 + cD.toNat * 65536 + cA.toNat * 1024, none)
  | .capClrt _ cD cA => some (1, 52 * 4194304 + cD.toNat * 65536 + cA.toNat * 1024 + 1, none)
  | .capSeal _ cD cA cB => some (1, 53 * 4194304 + cD.toNat * 65536 + cA.toNat * 1024 + cB.toNat * 16, none)
  | .capUnseal _ cD cA cB => some (1, 53 * 4194304 + cD.toNat * 65536 + cA.toNat * 1024 + cB.toNat * 16 + 1, none)
  | .capRds _ cD s => some (1, 55 * 4194304 + cD.toNat * 65536 + s.toNat * 16, none)
  | .capWrs _ s cA => some (1, 55 * 4194304 + s.toNat * 16 + cA.toNat * 1024 + 1, none)
  | .movK _ gD z pos imm => some (1, 56 * 2 ^ 22 + z.toNat * 2 ^ 24 + pos.toNat * 2 ^ 22 + gD.toNat * 2 ^ 16 + imm.toNat, none)
  | _ => none

/-- Slot 3 (R136). -/
def encode3 (i : Instr) : Option (Nat × Nat × Option Nat) :=
  match i with
  | .ldB _ m => some (3, memBody m, none)
  | .ldBu _ m => some (3, 1 * 2 ^ 24 + memBody m, none)
  | .ldH _ m => some (3, 2 * 2 ^ 24 + memBody m, none)
  | .ldHu _ m => some (3, 3 * 2 ^ 24 + memBody m, none)
  | .ldW _ m => some (3, 4 * 2 ^ 24 + memBody m, none)
  | .ldWu _ m => some (3, 5 * 2 ^ 24 + memBody m, none)
  | .ldD _ m => some (3, 6 * 2 ^ 24 + memBody m, none)
  | .stB _ m => some (3, 7 * 2 ^ 24 + memBody m, none)
  | .stH _ m => some (3, 8 * 2 ^ 24 + memBody m, none)
  | .stW _ m => some (3, 9 * 2 ^ 24 + memBody m, none)
  | .stD _ m => some (3, 10 * 2 ^ 24 + memBody m, none)
  | .ldC _ m => some (3, 11 * 2 ^ 24 + memBody m, none)
  | .stC _ m => some (3, 12 * 2 ^ 24 + memBody m, none)
  | .pf _ m => some (3, 13 * 2 ^ 24 + memBody m, none)
  | _ => none

/-- Slot 4 (R147). -/
def encode4 (i : Instr) : Option (Nat × Nat × Option Nat) :=
  match i with
  | .mulS _ gA gB => some (4, gA.toNat * 65536 + gB.toNat * 1024, none)
  | .mulU _ gA gB => some (4, 1 * 4194304 + gA.toNat * 65536 + gB.toNat * 1024, none)
  | .divS _ gA gB => some (4, 2 * 4194304 + gA.toNat * 65536 + gB.toNat * 1024, none)
  | .divU _ gA gB => some (4, 3 * 4194304 + gA.toNat * 65536 + gB.toNat * 1024, none)
  | _ => none

/-- Slot 5 (R151). -/
def encode5 (i : Instr) : Option (Nat × Nat × Option Nat) :=
  match i with
  | .vxSetvl _ f x => some (5, vBody true 0 f, some (mBody x))
  | .vxSync _ f => some (5, vBody false 1 f, none)
  | .vxAdd _ f x => some (5, vBody true 8 f, some (aBody x))
  | .vxSub _ f x => some (5, vBody true 9 f, some (aBody x))
  | .vxMul _ f x => some (5, vBody true 10 f, some (aBody x))
  | .vxFma _ f x => some (5, vBody true 11 f, some (aBody x))
  | .vxFms _ f x => some (5, vBody true 12 f, some (aBody x))
  | .vxDiv _ f x => some (5, vBody true 13 f, some (aBody x))
  | .vxSqrt _ f x => some (5, vBody true 14 f, some (aBody x))
  | .vxMax _ f x => some (5, vBody true 15 f, some (aBody x))
  | .vxMin _ f x => some (5, vBody true 16 f, some (aBody x))
  | .vxAbs _ f x => some (5, vBody true 17 f, some (aBody x))
  | .vxNeg _ f x => some (5, vBody true 18 f, some (aBody x))
  | .vxCpsgn _ f x => some (5, vBody true 19 f, some (aBody x))
  | .vxRndi _ f x => some (5, vBody true 20 f, some (aBody x))
  | .vxLdexp _ f x => some (5, vBody true 21 f, some (aBody x))
  | .vxGetexp _ f x => some (5, vBody true 22 f, some (aBody x))
  | .vxCmp _ f x => some (5, vBody true 23 f, some (aBody x))
  | .vxTwosum _ f x => some (5, vBody true 24 f, some (aBody x))
  | .vxMullo _ f x => some (5, vBody true 25 f, some (aBody x))
  | .vxIadd _ f x => some (5, vBody true 32 f, some (aBody x))
  | .vxIsub _ f x => some (5, vBody true 33 f, some (aBody x))
  | .vxAnd _ f x => some (5, vBody true 34 f, some (aBody x))
  | .vxOr _ f x => some (5, vBody true 35 f, some (aBody x))
  | .vxXor _ f x => some (5, vBody true 36 f, some (aBody x))
  | .vxShl _ f x => some (5, vBody true 37 f, some (aBody x))
  | .vxShr _ f x => some (5, vBody true 38 f, some (aBody x))
  | .vxSra _ f x => some (5, vBody true 39 f, some (aBody x))
  | .vxImin _ f x => some (5, vBody true 40 f, some (aBody x))
  | .vxImax _ f x => some (5, vBody true 41 f, some (aBody x))
  | .vxImul _ f x => some (5, vBody true 42 f, some (aBody x))
  | .vxLd _ f x => some (5, vBody true 48 f, some (mBody x))
  | .vxSt _ f x => some (5, vBody true 49 f, some (mBody x))
  | .vxLds _ f x => some (5, vBody true 50 f, some (mBody x))
  | .vxSts _ f x => some (5, vBody true 51 f, some (mBody x))
  | .vxLdx _ f x => some (5, vBody true 52 f, some (mBody x))
  | .vxStx _ f x => some (5, vBody true 53 f, some (mBody x))
  | .vxPackPnl _ f x => some (5, vBody true 54 f, some (mBody x))
  | .vxTqrd _ f x => some (5, vBody true 56 f, some (mBody x))
  | .vxTqhdr _ f x => some (5, vBody true 57 f, some (mBody x))
  | .vxTqpop _ f => some (5, vBody false 58 f, none)
  | .vxMv _ f => some (5, vBody false 64 f, none)
  | .vxBcst _ f x => some (5, vBody true 65 f, some (mBody x))
  | .vxExt _ f x => some (5, vBody true 66 f, some (mBody x))
  | .vxIns _ f x => some (5, vBody true 67 f, some (mBody x))
  | .vxPerm _ f x => some (5, vBody true 68 f, some (aBody x))
  | .vxShuf _ f x => some (5, vBody true 69 f, some (aBody x))
  | .vxPack _ f x => some (5, vBody true 70 f, some (aBody x))
  | .vxUnpack _ f x => some (5, vBody true 71 f, some (aBody x))
  | .vxCompress _ f x => some (5, vBody true 72 f, some (aBody x))
  | .vxExpand _ f x => some (5, vBody true 73 f, some (aBody x))
  | .vxMand _ f => some (5, vBody false 74 f, none)
  | .vxMor _ f => some (5, vBody false 75 f, none)
  | .vxMxor _ f => some (5, vBody false 76 f, none)
  | .vxMnot _ f => some (5, vBody false 77 f, none)
  | .vxMpop _ f x => some (5, vBody true 78 f, some (mBody x))
  | .vxMfirst _ f x => some (5, vBody true 79 f, some (mBody x))
  | .vxCvt _ f x => some (5, vBody true 80 f, some (aBody x))
  | .vxSlc _ f x => some (5, vBody true 81 f, some (mBody x))
  | .vxWrd _ f x => some (5, vBody true 82 f, some (mBody x))
  | .vxDraw _ f x => some (5, vBody true 83 f, some (aBody x))
  | .vxDrawu _ f x => some (5, vBody true 84 f, some (aBody x))
  | .vxRsum _ f x => some (5, vBody true 88 f, some (mBody x))
  | .vxRsumB _ f x => some (5, vBody true 89 f, some (aBody x))
  | .vxRmax _ f x => some (5, vBody true 90 f, some (mBody x))
  | .vxRmaxB _ f x => some (5, vBody true 91 f, some (aBody x))
  | .vxRmin _ f x => some (5, vBody true 92 f, some (mBody x))
  | .vxRminB _ f x => some (5, vBody true 93 f, some (aBody x))
  | .vxRsumi _ f x => some (5, vBody true 94 f, some (mBody x))
  | .vxRsumiB _ f x => some (5, vBody true 95 f, some (aBody x))
  | .vxRmaxBlk _ f x => some (5, vBody true 96 f, some (aBody x))
  | .vxRsumBlk _ f x => some (5, vBody true 97 f, some (aBody x))
  | _ => none

/-- Slot 6 (R152). -/
def encode6 (i : Instr) : Option (Nat × Nat × Option Nat) :=
  match i with
  | .mxLdd _ md cM gK => some (6, md.toNat * 2097152 + cM.toNat * 131072 + gK.toNat * 2048, none)
  | .mxOpen _ m t cM gK => some (6, 1 * 16777216 + m.toNat * 1048576 + t.toNat * 524288 + cM.toNat * 32768 + gK.toNat * 512, none)
  | .mxAcc _ m t mdA mdB => some (6, 2 * 16777216 + m.toNat * 1048576 + t.toNat * 524288 + mdA.toNat * 65536 + mdB.toNat * 8192, none)
  | .mxAccs _ m t mdA mdB i j fe => some (6, 3 * 16777216 + m.toNat * 1048576 + t.toNat * 524288 + mdA.toNat * 65536 + mdB.toNat * 8192 + i.toNat * 1024 + j.toNat * 128 + fe.toNat * 64, none)
  | .mxClose _ m t => some (6, 4 * 16777216 + m.toNat * 1048576 + t.toNat * 524288, none)
  | .mxWait _ gD a t => some (6, 5 * 16777216 + gD.toNat * 262144 + a.toNat * 65536 + t.toNat * 32768, none)
  | .mxStat _ gD => some (6, 6 * 16777216 + gD.toNat * 262144, none)
  | .mxStop _ cM gK => some (6, 7 * 16777216 + cM.toNat * 1048576 + gK.toNat * 16384, none)
  | .mxResume _ cM gK => some (6, 8 * 16777216 + cM.toNat * 1048576 + gK.toNat * 16384, none)
  | _ => none

/-- Slot 7 (R189). -/
def encode7 (i : Instr) : Option (Nat × Nat × Option Nat) :=
  match i with
  | .txLast _ gD cM gA => some (7, gD.toNat + cM.toNat * 64 + gA.toNat * 65536, none)
  | .txFuse _ gD cM gA => some (7, 1 * 4194304 + gD.toNat + cM.toNat * 64 + gA.toNat * 65536, none)
  | .txWait _ gD gA => some (7, 2 * 4194304 + gD.toNat + gA.toNat * 65536, none)
  | .txTest _ gD gA => some (7, 3 * 4194304 + gD.toNat + gA.toNat * 65536, none)
  | .txStw _ gD gA gB => some (7, 4 * 4194304 + gD.toNat + gA.toNat * 65536 + gB.toNat * 1024, none)
  | .txStp _ gA gB => some (7, 5 * 4194304 + gA.toNat * 65536 + gB.toNat * 1024, none)
  | .prArrive _ imm => some (7, 8 * 4194304 + imm.toNat, none)
  | .prWait _ imm => some (7, 9 * 4194304 + imm.toNat, none)
  | .prSync _ imm => some (7, 10 * 4194304 + imm.toNat, none)
  | .mgPost _ cM gA => some (7, 12 * 4194304 + cM.toNat * 64 + gA.toNat * 65536, none)
  | .mgRot _ cM gA => some (7, 13 * 4194304 + cM.toNat * 64 + gA.toNat * 65536, none)
  | .mgWait _ gD => some (7, 14 * 4194304 + gD.toNat, none)
  | _ => none

/-- The slot, the body and the extension's body of an instruction row; none for a row that is no syllable. An integer
syllable is given for slot 1. -/
def encodeSyl (i : Instr) : Option (Nat × Nat × Option Nat) :=
  encode0 i <|> encode1 i <|> encode3 i <|> encode4 i <|> encode5 i <|> encode6 i <|> encode7 i

/-- Slot 0 (R133). -/
def decode0 (c : CoreId) (b : Nat) : Option Instr :=
    match b / 2 ^ 22 with
    | 0 => some (.nop c)
    | 1 => some (.br c (fld b 0))
    | 2 => some (.call c (fld b 0))
    | 3 => some (.ret c)
    | 4 => some (.jr c (fld b 16))
    | 5 => some (.callr c (fld b 16))
    | 8 => some (.bc c (fld b 16) (fld b 13) (fld b 0))
    | 16 => some (.lpSet c (fld b 21) (fld b 15) (fld b 0))
    | 24 => some (.ctlRd c (fld b 16) (fld b 0))
    | 25 => some (.ctlWr c (fld b 16) (fld b 0))
    | 28 => some (.sys c (fld b 0))
    | 29 => some (.eret c)
    | 30 => some (.fence c)
    | 31 => some (.idle c)
    | _ => none

/-- Slots 1 and 2 (R134, R163). -/
def decode1 (c : CoreId) (b : Nat) : Option Instr :=
    if 0x38 ≤ b / 2 ^ 22 then some (.movK c (fld b 16) (fldB b 24) (fld b 22) (fld b 0)) else
    match b / 2 ^ 22 with
    | 0 => some (.add c (fld b 16) (fld b 10) (fld b 4))
    | 1 => some (.sub c (fld b 16) (fld b 10) (fld b 4))
    | 2 => some (.and c (fld b 16) (fld b 10) (fld b 4))
    | 3 => some (.or c (fld b 16) (fld b 10) (fld b 4))
    | 4 => some (.xor c (fld b 16) (fld b 10) (fld b 4))
    | 5 => some (.shl c (fld b 16) (fld b 10) (fld b 4))
    | 6 => some (.shr c (fld b 16) (fld b 10) (fld b 4))
    | 7 => some (.sra c (fld b 16) (fld b 10) (fld b 4))
    | 8 => some (.rotl c (fld b 16) (fld b 10) (fld b 4))
    | 9 => some (.min c (fld b 16) (fld b 10) (fld b 4))
    | 10 => some (.max c (fld b 16) (fld b 10) (fld b 4))
    | 11 => some (.minu c (fld b 16) (fld b 10) (fld b 4))
    | 12 => some (.maxu c (fld b 16) (fld b 10) (fld b 4))
    | 13 => some (.cmp c (fld b 16) (fld b 10) (fld b 4) (fld b 0))
    | 14 => some (.sel c (fld b 16) (fld b 10) (fld b 4))
    | 16 => some (.addi c (fld b 16) (fld b 10) (fld b 0))
    | 17 => some (.andi c (fld b 16) (fld b 10) (fld b 0))
    | 18 => some (.ori c (fld b 16) (fld b 10) (fld b 0))
    | 19 => some (.xori c (fld b 16) (fld b 10) (fld b 0))
    | 20 => some (.shli c (fld b 16) (fld b 10) (fld b 0))
    | 21 => some (.shri c (fld b 16) (fld b 10) (fld b 0))
    | 22 => some (.srai c (fld b 16) (fld b 10) (fld b 0))
    | 23 => some (.cmpi c (fld b 16) (fld b 10) (fld b 6) (fld b 0))
    | 32 => some (.clz c (fld b 16) (fld b 10))
    | 33 => some (.ctz c (fld b 16) (fld b 10))
    | 34 => some (.popc c (fld b 16) (fld b 10))
    | 35 => some (.parity c (fld b 16) (fld b 10))
    | 36 => some (.brev c (fld b 16) (fld b 10) (fld b 0))
    | 37 => some (.sext c (fld b 16) (fld b 10) (fld b 0))
    | 38 => some (.zext c (fld b 16) (fld b 10) (fld b 0))
    | 40 => some (.crc32c c (fld b 16) (fld b 10) (fld b 4) (fld b 0))
    | 41 => some (.crc64 c (fld b 16) (fld b 10) (fld b 4) (fld b 0))
    | 44 => some (.mfm c (fld b 16) (fldB b 0))
    | 45 => some (.fcmp c (fld b 16) (fld b 10) (fld b 4) (fld b 2) (fld b 0))
    | 47 => some (.fcvt c (fld b 16) (fld b 10) (fld b 7) (fld b 4) (fld b 0))
    | 46 => some (if b % 2 = 0 then .fmax c (fld b 16) (fld b 10) (fld b 4) (fld b 2) else .fmin c (fld b 16) (fld b 10) (fld b 4) (fld b 2))
    | 48 => some (.capGetf c (fld b 16) (fld b 10) (fld b 0))
    | 54 => some (.capChk c (fld b 16) (fld b 10) (fld b 4) (fld b 0))
    | 49 => some (if b % 2 = 0 then .capSeta c (fld b 16) (fld b 10) (fld b 4) else .capAdda c (fld b 16) (fld b 10) (fld b 4))
    | 50 => some (if b % 2 = 0 then .capSetb c (fld b 16) (fld b 10) (fld b 4) else .capSetbo c (fld b 16) (fld b 10) (fld b 4))
    | 51 => some (.capAndp c (fld b 16) (fld b 10) (fld b 4))
    | 52 => some (if b % 2 = 0 then .capMv c (fld b 16) (fld b 10) else .capClrt c (fld b 16) (fld b 10))
    | 53 => some (if b % 2 = 0 then .capSeal c (fld b 16) (fld b 10) (fld b 4) else .capUnseal c (fld b 16) (fld b 10) (fld b 4))
    | 55 => some (if b % 2 = 0 then .capRds c (fld b 16) (fld b 4) else .capWrs c (fld b 4) (fld b 10))
    | _ => none

/-- Slot 3 (R136). -/
def decode3 (c : CoreId) (b : Nat) : Option Instr :=
    match b / 2 ^ 24 with
    | 0 => some (.ldB c (memF b))
    | 1 => some (.ldBu c (memF b))
    | 2 => some (.ldH c (memF b))
    | 3 => some (.ldHu c (memF b))
    | 4 => some (.ldW c (memF b))
    | 5 => some (.ldWu c (memF b))
    | 6 => some (.ldD c (memF b))
    | 7 => some (.stB c (memF b))
    | 8 => some (.stH c (memF b))
    | 9 => some (.stW c (memF b))
    | 10 => some (.stD c (memF b))
    | 11 => some (.ldC c (memF b))
    | 12 => some (.stC c (memF b))
    | 13 => some (.pf c (memF b))
    | _ => none

/-- Slot 4 (R147). -/
def decode4 (c : CoreId) (b : Nat) : Option Instr :=
    match b / 2 ^ 22 with
    | 0 => some (.mulS c (fld b 16) (fld b 10))
    | 1 => some (.mulU c (fld b 16) (fld b 10))
    | 2 => some (.divS c (fld b 16) (fld b 10))
    | 3 => some (.divU c (fld b 16) (fld b 10))
    | _ => none

/-- Slot 5 (R151): op is the opcode, f the syllable's fields, x the extension's body. -/
def decode5 (c : CoreId) (op : Nat) (f : VF) (x : Nat) : Option Instr :=
    match op with
    | 0 => some (.vxSetvl c f (extM x))
    | 1 => some (.vxSync c f)
    | 8 => some (.vxAdd c f (extA x))
    | 9 => some (.vxSub c f (extA x))
    | 10 => some (.vxMul c f (extA x))
    | 11 => some (.vxFma c f (extA x))
    | 12 => some (.vxFms c f (extA x))
    | 13 => some (.vxDiv c f (extA x))
    | 14 => some (.vxSqrt c f (extA x))
    | 15 => some (.vxMax c f (extA x))
    | 16 => some (.vxMin c f (extA x))
    | 17 => some (.vxAbs c f (extA x))
    | 18 => some (.vxNeg c f (extA x))
    | 19 => some (.vxCpsgn c f (extA x))
    | 20 => some (.vxRndi c f (extA x))
    | 21 => some (.vxLdexp c f (extA x))
    | 22 => some (.vxGetexp c f (extA x))
    | 23 => some (.vxCmp c f (extA x))
    | 24 => some (.vxTwosum c f (extA x))
    | 25 => some (.vxMullo c f (extA x))
    | 32 => some (.vxIadd c f (extA x))
    | 33 => some (.vxIsub c f (extA x))
    | 34 => some (.vxAnd c f (extA x))
    | 35 => some (.vxOr c f (extA x))
    | 36 => some (.vxXor c f (extA x))
    | 37 => some (.vxShl c f (extA x))
    | 38 => some (.vxShr c f (extA x))
    | 39 => some (.vxSra c f (extA x))
    | 40 => some (.vxImin c f (extA x))
    | 41 => some (.vxImax c f (extA x))
    | 42 => some (.vxImul c f (extA x))
    | 48 => some (.vxLd c f (extM x))
    | 49 => some (.vxSt c f (extM x))
    | 50 => some (.vxLds c f (extM x))
    | 51 => some (.vxSts c f (extM x))
    | 52 => some (.vxLdx c f (extM x))
    | 53 => some (.vxStx c f (extM x))
    | 54 => some (.vxPackPnl c f (extM x))
    | 56 => some (.vxTqrd c f (extM x))
    | 57 => some (.vxTqhdr c f (extM x))
    | 58 => some (.vxTqpop c f)
    | 64 => some (.vxMv c f)
    | 65 => some (.vxBcst c f (extM x))
    | 66 => some (.vxExt c f (extM x))
    | 67 => some (.vxIns c f (extM x))
    | 68 => some (.vxPerm c f (extA x))
    | 69 => some (.vxShuf c f (extA x))
    | 70 => some (.vxPack c f (extA x))
    | 71 => some (.vxUnpack c f (extA x))
    | 72 => some (.vxCompress c f (extA x))
    | 73 => some (.vxExpand c f (extA x))
    | 74 => some (.vxMand c f)
    | 75 => some (.vxMor c f)
    | 76 => some (.vxMxor c f)
    | 77 => some (.vxMnot c f)
    | 78 => some (.vxMpop c f (extM x))
    | 79 => some (.vxMfirst c f (extM x))
    | 80 => some (.vxCvt c f (extA x))
    | 81 => some (.vxSlc c f (extM x))
    | 82 => some (.vxWrd c f (extM x))
    | 83 => some (.vxDraw c f (extA x))
    | 84 => some (.vxDrawu c f (extA x))
    | 88 => some (.vxRsum c f (extM x))
    | 89 => some (.vxRsumB c f (extA x))
    | 90 => some (.vxRmax c f (extM x))
    | 91 => some (.vxRmaxB c f (extA x))
    | 92 => some (.vxRmin c f (extM x))
    | 93 => some (.vxRminB c f (extA x))
    | 94 => some (.vxRsumi c f (extM x))
    | 95 => some (.vxRsumiB c f (extA x))
    | 96 => some (.vxRmaxBlk c f (extA x))
    | 97 => some (.vxRsumBlk c f (extA x))
    | _ => none

/-- Slot 6 (R152). -/
def decode6 (c : CoreId) (b : Nat) : Option Instr :=
    match b / 2 ^ 24 with
    | 0 => some (.mxLdd c (fld b 21) (fld b 17) (fld b 11))
    | 1 => some (.mxOpen c (fld b 20) (fldB b 19) (fld b 15) (fld b 9))
    | 2 => some (.mxAcc c (fld b 20) (fldB b 19) (fld b 16) (fld b 13))
    | 3 => some (.mxAccs c (fld b 20) (fldB b 19) (fld b 16) (fld b 13) (fld b 10) (fld b 7) (fldB b 6))
    | 4 => some (.mxClose c (fld b 20) (fldB b 19))
    | 5 => some (.mxWait c (fld b 18) (fld b 16) (fldB b 15))
    | 6 => some (.mxStat c (fld b 18))
    | 7 => some (.mxStop c (fld b 20) (fld b 14))
    | 8 => some (.mxResume c (fld b 20) (fld b 14))
    | _ => none

/-- Slot 7 (R189). -/
def decode7 (c : CoreId) (b : Nat) : Option Instr :=
    match b / 2 ^ 22 with
    | 0 => some (.txLast c (fld b 0) (fld b 6) (fld b 16))
    | 1 => some (.txFuse c (fld b 0) (fld b 6) (fld b 16))
    | 2 => some (.txWait c (fld b 0) (fld b 16))
    | 3 => some (.txTest c (fld b 0) (fld b 16))
    | 4 => some (.txStw c (fld b 0) (fld b 16) (fld b 10))
    | 5 => some (.txStp c (fld b 16) (fld b 10))
    | 8 => some (.prArrive c (fld b 0))
    | 9 => some (.prWait c (fld b 0))
    | 10 => some (.prSync c (fld b 0))
    | 12 => some (.mgPost c (fld b 6) (fld b 16))
    | 13 => some (.mgRot c (fld b 6) (fld b 16))
    | 14 => some (.mgWait c (fld b 0))
    | _ => none

/-- The instruction of an opcode, reserved bits not yet looked at. -/
def decodeRaw (c : CoreId) (slot b : Nat) (x : Option Nat) : Option Instr :=
  match slot with
  | 0 => decode0 c b
  | 1 | 2 => decode1 c b
  | 3 => decode3 c b
  | 4 => decode4 c b
  | 5 => decode5 c (b / 2 ^ 20 % 2 ^ 7) (vF b) (x.getD 0)
  | 6 => decode6 c b
  | _ => decode7 c b

/-- The vector opcodes that take no extension (R151). -/
def vNoExt : List Nat := [1, 58, 64, 74, 75, 76, 77]

/-- What decoding a syllable finds. -/
inductive DecRes where
  | ok (i : Instr)
  | illegal      -- fault 0x1010: a missing or superfluous extension (R151)
  | reserved     -- fault 0x1011 (R130, R134)
deriving DecidableEq, Repr

/-- R130, R131, R151: decode a syllable's body with the extension that follows it. A reserved bit is one that the
instruction's own encoding does not have. -/
def decodeSyl (c : CoreId) (slot b : Nat) (x : Option Nat) : DecRes :=
  match decodeRaw c slot b x with
  | none => .reserved
  | some i =>
    if slot = 5 ∧ vNoExt.contains (b / 2 ^ 20 % 2 ^ 7) ≠ x.isNone then .illegal
    else match encodeSyl i with
      | some (_, b', x') => if i.wf && b' == b && x' == x then .ok i else .reserved
      | none => .reserved

end Machine
end Sys2Proof
end

