-- ==== Sys2Proof/Config.lean ====
section
/-! DEFINITION. What stepping B1 fixes (sizes and limits of the spec's tables) and the values that the spec leaves open,
as constants without a body: nothing in Lean can evaluate them, so a claim holds whatever they are. -/

namespace Sys2Proof.Config

/-- Bytes of tile memory in each core: 6 MiB (R13). -/
def tileBytes : Nat := 0x600000
/-- First byte of the emergency area (R161). -/
def emergencyBase : Nat := 0x5FFE00
/-- Bytes of device memory on each die: 320 GB (R16). -/
def dieBytes : Nat := 0x5000000000
/-- Bytes of device memory in each region: 80 GB (R19). -/
def regionBytes : Nat := 0x1400000000
/-- Bytes of each logical channel: 5 GB (R258). -/
def channelBytes : Nat := 0x140000000
/-- Vector register length in bits on stepping B1 (R106). -/
def vlen : Nat := 16384
/-- Bytes of a pushed exception frame (R168). -/
def frameBytes : Nat := 1536
/-- Tags of a transfer engine (R185). -/
def txTags : Nat := 512
/-- Entries of a translation buffer (R219). -/
def tlbEntries : Nat := 128
/-- Entries of a walk cache (R219). -/
def walkCacheEntries : Nat := 16
/-- Entries of the command journal (R338). -/
def journalSlots : Nat := 4096
/-- Entries of a channel controller's queue, and those kept for class 0 (R265). -/
def mcQueue : Nat := 256
def mcReserved : Nat := 32
/-- Entries of a hamper (R234). -/
def hamperEntries : Nat := 64
/-- Flits of a replay buffer (R295). -/
def replayFlits : Nat := 512
/-- Entries of a region's host filter (R359) and of the package's tracker (R249). -/
def filterEntries : Nat := 131072
def trackerEntries : Nat := 16384

/-- FREE VALUE (log 23). A value the spec leaves open, read with the counter State.freeCtr; the reader takes its low bits. -/
opaque freeNat : Nat → Nat

/-- FREE VALUE (log 11). The root of the SLH-DSA-SHA2-128s public key for the seeds SK.seed and PK.seed (R390; FIPS 205). -/
opaque slhRoot : BitVec 128 → BitVec 128 → BitVec 128

/-- FREE VALUE (log 11). Byte k of the SLH-DSA-SHA2-128s signature that the identity key makes over a message (R396, R398). -/
opaque slhSignByte : List Byte → Nat → Byte

/-- FREE VALUE (log 11). Byte k of an SPDM, DOE or CDAT object whose format another standard gives and the spec does not
(R356, R396): the request's code and its parameter choose the object. -/
opaque protocolByte : Nat → Nat → Nat → Byte

/-- FREE VALUE (log 11). The length of such an object. -/
opaque protocolLen : Nat → Nat → Nat

/-- FREE VALUE (log 11). The SHA-256 of the boot ROM, measurement 1 (R397). -/
opaque romDigest : BitVec 256

/-- R292: the receive credits that a port advertises for a VC, in 16-byte units (log 80). -/
opaque rxCredits : Nat → Nat

/-- R259: the check bits of a 32-byte block's data, tags and poison bit (log 106). -/
opaque checkBits : BitVec 256 → BitVec 2 → Bool → BitVec 24

/-- R259: what the reserved metadata bits of a block hold (log 106). -/
opaque metaRest : Nat → BitVec 5

/-- FREE VALUE (log 57). How far die 0's timestamp counter runs ahead of die 1's after the n-th release of package reset; the
model takes it modulo 5 (R28). -/
opaque bridgeLag : Nat → Nat

end Sys2Proof.Config
end

