-- ==== Sys2Proof/Machine/Fp.lean ====
section
/-! DEFINITION. Number formats and arithmetic that rounds once (R31 to R45, R51). An exact magnitude is a natural number
times a power of two, with a sticky bit for a quotient or a root that goes on; one function rounds it to every format. -/

namespace Sys2Proof.Machine

/-- The special encodings of a floating-point format (R32). -/
inductive FSpec where
  | ieee | e4m3 | finite
deriving DecidableEq, Repr

/-- A floating-point format: exponent and mantissa width, bias, special encodings (R32). -/
structure FFmt where
  eb : Nat
  mb : Nat
  bias : Nat
  spec : FSpec
deriving DecidableEq, Repr

/-- What a format code names (R31): a floating-point format, a two's complement integer, or the block scale. -/
inductive Fmt where
  | flt (f : FFmt) | int8 | int4 | e8m0
deriving DecidableEq, Repr

def fp32 : FFmt := ⟨8, 23, 127, .ieee⟩
def fp16 : FFmt := ⟨5, 10, 15, .ieee⟩
def bf16 : FFmt := ⟨8, 7, 127, .ieee⟩
def fp64 : FFmt := ⟨11, 52, 1023, .ieee⟩
def e4m3 : FFmt := ⟨4, 3, 7, .e4m3⟩
def e5m2 : FFmt := ⟨5, 2, 15, .ieee⟩
def e2m3 : FFmt := ⟨2, 3, 1, .finite⟩
def e3m2 : FFmt := ⟨3, 2, 3, .finite⟩
def e2m1 : FFmt := ⟨2, 1, 1, .finite⟩

/-- The format a 4-bit code names; none for a reserved code (R31). -/
def fmtOf (code : BitVec 4) : Option Fmt :=
  match code.toNat with
  | 0 => some (.flt fp32) | 1 => some (.flt fp16) | 2 => some (.flt bf16) | 3 => some (.flt e4m3)
  | 4 => some (.flt e5m2) | 5 => some (.flt e2m3) | 6 => some (.flt e3m2) | 7 => some (.flt e2m1)
  | 8 => some .int8 | 9 => some .int4 | 10 => some .e8m0 | 11 => some (.flt fp64)
  | _ => none

def FFmt.width (f : FFmt) : Nat := 1 + f.eb + f.mb

def Fmt.width : Fmt → Nat
  | .flt f => f.width | .int8 => 8 | .int4 => 4 | .e8m0 => 8

/-- The magnitude code of the largest finite value (R32). -/
def FFmt.maxCode (f : FFmt) : Nat :=
  match f.spec with
  | .ieee => (2 ^ f.eb - 1) * 2 ^ f.mb - 1
  | .e4m3 => 2 ^ (f.eb + f.mb) - 2
  | .finite => 2 ^ (f.eb + f.mb) - 1

/-- The canonical NaN (R38); a format without one has none to write. -/
def FFmt.canonNaN (f : FFmt) : Nat :=
  match f.spec with
  | .ieee => (2 ^ f.eb - 1) * 2 ^ f.mb + 2 ^ (f.mb - 1)
  | .e4m3 => 2 ^ (f.eb + f.mb) - 1
  | .finite => 0

def FFmt.infCode (f : FFmt) : Nat := (2 ^ f.eb - 1) * 2 ^ f.mb

/-- The sign bit in place. -/
def FFmt.signed (f : FFmt) (s : Bool) (code : Nat) : Nat := if s then code + 2 ^ (f.eb + f.mb) else code

/-- Exponent of the unit in the last place of the subnormals. -/
def FFmt.qmin (f : FFmt) : Int := 1 - (f.bias : Int) - f.mb

/-- The value of an element (R32): a finite one is (−1)^s × m × 2^e. -/
inductive FVal where
  | nan (signalling : Bool)
  | inf (s : Bool)
  | fin (s : Bool) (m : Nat) (e : Int)
deriving DecidableEq, Repr

/-- R32, R38: the value that the bits stand for. -/
def FFmt.decode (f : FFmt) (x : Nat) : FVal :=
  let e := (x >>> f.mb) % 2 ^ f.eb
  let m := x % 2 ^ f.mb
  let s := x.testBit (f.eb + f.mb)
  if f.spec = .ieee ∧ e = 2 ^ f.eb - 1 then
    (if m = 0 then .inf s else .nan (!(m.testBit (f.mb - 1))))
  else if f.spec = .e4m3 ∧ x % 2 ^ (f.eb + f.mb) = 2 ^ (f.eb + f.mb) - 1 then .nan false
  else if e = 0 then .fin s m f.qmin
  else .fin s (2 ^ f.mb + m) ((e : Int) - f.bias - f.mb)

/-- R34: the signed integer of a two's complement element of w bits. -/
def intElem (w x : Nat) : Int := if x % 2 ^ w < 2 ^ (w - 1) then (x % 2 ^ w : Nat) else (x % 2 ^ w : Nat) - (2 ^ w : Nat)

/-- A numeric condition flag set: invalid, overflow, underflow, inexact (R51). -/
structure NF where
  nv : Bool := false
  ov : Bool := false
  uf : Bool := false
  nx : Bool := false
deriving DecidableEq, Repr

def NF.or (a b : NF) : NF := ⟨a.nv || b.nv, a.ov || b.ov, a.uf || b.uf, a.nx || b.nx⟩

/-- The four flags as the bits NV, OF, UF, NX of R53, most significant first. -/
def NF.bits (a : NF) : Nat := a.nv.toNat * 8 + a.ov.toNat * 4 + a.uf.toNat * 2 + a.nx.toNat

/-- A rounding in use (R42): the default is already resolved, and stochastic rounding carries its 16-bit draw. -/
inductive Rnd where
  | rne | rtz | sr (u : Nat)
deriving DecidableEq, Repr

/-- The exact result of an operation before its one rounding (R37). st: nonzero bits follow below m × 2^e. -/
inductive XRes where
  | nan (nv : Bool)
  | inf (s : Bool) (nv : Bool)
  | num (s : Bool) (m : Nat) (e : Int) (st : Bool)
deriving DecidableEq, Repr

/-- m × 2^e cut at 2^q: the whole units, the discarded part over 2^k, and k. -/
def splitAt (m : Nat) (e q : Int) : Nat × Nat × Nat :=
  if q ≤ e then (m <<< (e - q).toNat, 0, 0)
  else
    let k := (q - e).toNat
    (m >>> k, m % 2 ^ k, k)

/-- R42, R43: round m × 2^e (st: more bits below) to a whole multiple of 2^q. Answers the multiple and whether bits were lost. -/
def roundAt (r : Rnd) (m : Nat) (e q : Int) (st : Bool) : Nat × Bool :=
  let (t, rem, k) := splitAt m e q
  let lost := rem != 0 || st
  let up := match r with
    | .rtz => false
    | .rne => lost && (decide (2 ^ k < 2 * rem) || (decide (2 ^ k = 2 * rem) && (st || t % 2 = 1)))
    | .sr u => lost && decide (2 ^ 16 ≤ (rem <<< 16) >>> k + u)
  (t + up.toNat, lost)

/-- Exponent of the unit in the last place that a magnitude takes in a format whose exponent has no upper limit (R44). -/
def FFmt.ulp (f : FFmt) (m : Nat) (e : Int) : Int :=
  max f.qmin (if m = 0 then f.qmin else (Nat.log2 m : Int) + e - f.mb)

/-- A written element: its bits, its flags, and whether it makes its block's scale 0xFF (R44). -/
structure Elem where
  bits : Nat
  fl : NF := {}
  blkNaN : Bool := false
deriving DecidableEq, Repr

/-- Formats that are not block formats: SAT has no effect on them (R44). -/
def FFmt.wide (f : FFmt) : Bool := f.spec = .ieee && f.mb != 2

/-- R44: what an overflow writes. -/
def FFmt.overflow (f : FFmt) (r : Rnd) (sat s : Bool) : Elem :=
  let fl : NF := { ov := true, nx := true }
  match f.spec with
  | .finite => { bits := f.signed s f.maxCode, fl := fl, blkNaN := !sat }
  | .ieee => { bits := f.signed s (if r = .rtz || (sat && !f.wide) then f.maxCode else f.infCode), fl := fl }
  | .e4m3 => { bits := if r = .rtz || sat then f.signed s f.maxCode else f.canonNaN, fl := fl }

/-- R37, R51: the result is below the smallest normal after rounding, with the exponent unbounded, as IEEE 754-2019 detects tininess
after rounding. Under stochastic rounding it is the delivered result that decides (DESIGN CHOICE, log 88). -/
def FFmt.tiny (f : FFmt) (r : Rnd) (m : Nat) (e : Int) (st : Bool) (code : Nat) : Bool :=
  match r with
  | .sr _ => decide (code < 2 ^ f.mb)
  | r =>
    let q := (Nat.log2 m : Int) + e - f.mb
    m != 0 && decide (q < f.qmin) && !(decide (q + 1 = f.qmin) && (roundAt r m e q st).1 == 2 ^ (f.mb + 1))

/-- R37, R42 to R44, R51: write an exact result into a floating-point format. -/
def FFmt.write (f : FFmt) (r : Rnd) (sat : Bool) (x : XRes) : Elem :=
  match x with
  | .nan nv =>
    if f.spec = .finite then { bits := 0, fl := { nv := true }, blkNaN := true }
    else { bits := f.canonNaN, fl := { nv := nv } }
  | .inf s nv =>
    match f.spec with
    | .ieee => { bits := f.signed s f.infCode, fl := { nv := nv } }
    | .e4m3 => { bits := if sat then f.signed s f.maxCode else f.canonNaN, fl := { nv := true } }
    | .finite => { bits := f.signed s f.maxCode, fl := { nv := true }, blkNaN := !sat }
  | .num s m e st =>
    let q := f.ulp m e
    let (t, lost) := roundAt r m e q st
    let code := t + (q - f.qmin).toNat * 2 ^ f.mb
    if f.maxCode < code then f.overflow r sat s
    else { bits := f.signed s code, fl := { nx := lost, uf := lost && f.tiny r m e st code } }

/-- The largest integer a conversion into INT8 or INT4 writes (R34). -/
def intMax (w : Nat) : Nat := 2 ^ (w - 1) - 1

/-- R34, R44: write an exact result, already divided by the element's fixed-point unit, into a w-bit integer. -/
def writeInt (w : Nat) (r : Rnd) (sat : Bool) (x : XRes) : Elem :=
  let put (s : Bool) (t : Nat) : Nat := if s then (2 ^ w - t) % 2 ^ w else t
  match x with
  | .nan _ => { bits := 0, fl := { nv := true }, blkNaN := true }
  | .inf s _ => { bits := put s (intMax w), fl := { nv := true }, blkNaN := !sat }
  | .num s m e st =>
    let (t, lost) := roundAt r m e 0 st
    if intMax w < t then { bits := put s (intMax w), fl := { ov := true, nx := true } }
    else { bits := put s t, fl := { nx := lost } }

/-- Write into any element format (R44); a block scale is no destination. -/
def Fmt.write (f : Fmt) (r : Rnd) (sat : Bool) (x : XRes) : Elem :=
  match f with
  | .flt g => g.write r sat x
  | .int8 => writeInt 8 r sat x
  | .int4 => writeInt 4 r sat x
  | .e8m0 => { bits := 0 }

/-- The exact value of a finite operand. -/
def FVal.exact : FVal → XRes
  | .nan sg => .nan sg
  | .inf s => .inf s false
  | .fin s m e => .num s m e false

/-- The value of an element of any format under its fixed-point unit (R34, R35). -/
def Fmt.decode (f : Fmt) (x : Nat) : FVal :=
  match f with
  | .flt g => g.decode x
  | .int8 => let i := intElem 8 x; .fin (decide (i < 0)) i.natAbs (-6)
  | .int4 => let i := intElem 4 x; .fin (decide (i < 0)) i.natAbs (-2)
  | .e8m0 => if x % 256 = 255 then .nan false else .fin false 1 ((x % 256 : Nat) - 127)

def FVal.isNaN : FVal → Bool
  | .nan _ => true
  | _ => false

def FVal.isSNaN : FVal → Bool
  | .nan sg => sg
  | _ => false

def FVal.isZero : FVal → Bool
  | .fin _ m _ => m = 0
  | _ => false

def FVal.sign : FVal → Bool
  | .nan _ => false
  | .inf s => s
  | .fin s _ _ => s

def FVal.neg : FVal → FVal
  | .nan sg => .nan sg
  | .inf s => .inf (!s)
  | .fin s m e => .fin (!s) m e

/-- A signed magnitude. -/
def sgn (s : Bool) (m : Nat) : Int := if s then -(m : Int) else m

/-- R40: the exact sum of two finite values; an exact zero is +0 unless both are negative. -/
def addFin (s1 : Bool) (m1 : Nat) (e1 : Int) (s2 : Bool) (m2 : Nat) (e2 : Int) : XRes :=
  let e := min e1 e2
  let v := sgn s1 (m1 <<< (e1 - e).toNat) + sgn s2 (m2 <<< (e2 - e).toNat)
  .num (if v = 0 then s1 && s2 else decide (v < 0)) v.natAbs e false

/-- R37, R51: addition before rounding. -/
def addX (a b : FVal) : XRes :=
  if a.isNaN || b.isNaN then .nan (a.isSNaN || b.isSNaN)
  else match a, b with
    | .inf s, .inf t => if s = t then .inf s false else .nan true
    | .inf s, _ => .inf s false
    | _, .inf t => .inf t false
    | .fin s1 m1 e1, .fin s2 m2 e2 => addFin s1 m1 e1 s2 m2 e2
    | _, _ => .nan false

def subX (a b : FVal) : XRes := addX a b.neg

/-- R37, R51: multiplication before rounding. -/
def mulX (a b : FVal) : XRes :=
  if a.isNaN || b.isNaN then .nan (a.isSNaN || b.isSNaN)
  else match a, b with
    | .fin s1 m1 e1, .fin s2 m2 e2 => .num (s1 != s2) (m1 * m2) (e1 + e2) false
    | x, y => if x.isZero || y.isZero then .nan true else .inf (x.sign != y.sign) false

/-- R37: a × b + c with one rounding; infinity times zero signals invalid even beside a quiet NaN addend. -/
def fmaX (a b c : FVal) : XRes :=
  if a.isNaN || b.isNaN then .nan (a.isSNaN || b.isSNaN || c.isSNaN)
  else match mulX a b with
    | .nan nv => .nan (nv || c.isSNaN)
    | .inf s _ => match c with
      | .nan sg => .nan sg
      | .inf t => if s = t then .inf s false else .nan true
      | .fin _ _ _ => .inf s false
    | .num s m e _ => match c with
      | .nan sg => .nan sg
      | .inf t => .inf t false
      | .fin t n f => addFin s m e t n f

/-- Bits a quotient or a root is computed to below its leading bit: more than any precision, its 16 stochastic bits and its
subnormal range need. -/
def divBits : Nat := 400

/-- R37: division before rounding; a nonzero finite value over zero is infinity, zero over zero and infinity over infinity
are invalid. -/
def divX (a b : FVal) : XRes :=
  if a.isNaN || b.isNaN then .nan (a.isSNaN || b.isSNaN)
  else
    let s := a.sign != b.sign
    match a, b with
    | .inf _, .inf _ => .nan true
    | .inf _, _ => .inf s false
    | _, .inf _ => .num s 0 0 false
    | .fin _ m1 e1, .fin _ m2 e2 =>
      if m2 = 0 then (if m1 = 0 then .nan true else .inf s false)
      else
        let n := m1 <<< divBits
        .num s (n / m2) (e1 - e2 - divBits) (n % m2 != 0)
    | _, _ => .nan false

/-- The integer square root, bit by bit, so that the kernel computes it (log2 and shifts are its own operations). -/
def isqrtGo (n : Nat) : Nat → Nat → Nat
  | 0, r => r
  | k + 1, r => let t := r + 2 ^ k; isqrtGo n k (if t * t ≤ n then t else r)

/-- R37: square root before rounding; of a negative value it is invalid, of −0 it is −0. -/
def sqrtX (a : FVal) : XRes :=
  match a with
  | .nan sg => .nan sg
  | .inf s => if s then .nan true else .inf false false
  | .fin s m e =>
    if m = 0 then .num s 0 e false
    else if s then .nan true
    else
      let e2 := if e % 2 = 0 then e - 2 * divBits else e - 1 - 2 * divBits
      let n := m <<< (e - e2).toNat
      let r := isqrtGo n (Nat.log2 n / 2 + 1) 0
      .num false r (e2 / 2) (r * r != n)

/-- The order of two values that are no NaN: −0 and +0 are equal. -/
def cmpVal (a b : FVal) : Ordering :=
  match a, b with
  | .fin s1 m1 e1, .fin s2 m2 e2 =>
    let e := min e1 e2
    compare (sgn s1 (m1 <<< (e1 - e).toNat)) (sgn s2 (m2 <<< (e2 - e).toNat))
  | .inf s, .inf t => compare (sgn s 1) (sgn t 1)
  | .inf s, _ => if s then .lt else .gt
  | _, .inf t => if t then .gt else .lt
  | _, _ => .eq

/-- R39: maximum (mx) or minimum of two elements of one format, with the invalid flag. -/
def FFmt.maxMin (f : FFmt) (mx : Bool) (x y : Nat) : Nat × Bool :=
  let a := f.decode x
  let b := f.decode y
  let nv := a.isSNaN || b.isSNaN
  let v :=
    if a.isNaN && b.isNaN then f.canonNaN
    else if a.isNaN then y
    else if b.isNaN then x
    else if a.isZero && b.isZero then (if a.sign = mx then y else x)
    else match cmpVal a b with
      | .lt => if mx then y else x
      | _ => if mx then x else y
  (v, nv)

/-- A binary32 pattern as FVal. -/
def f32 (x : Nat) : FVal := fp32.decode x

end Sys2Proof.Machine
end

