-- ==== Sys2Proof/Machine/Map.lean ====
section
/-! DEFINITION. Sparse data: a list of key and value pairs in one canonical form (rising keys, no entry equal to what an
unlisted key reads as), with one reading and one writing function. -/

namespace Sys2Proof.Machine

/-- The value at key k; an unlisted key reads as d k. -/
def mget {α : Type} (d : Nat → α) (m : SMap α) (k : Nat) : α :=
  match m.find? (fun x => x.1 == k) with
  | some x => x.2
  | none => d k

/-- Insert a pair before the first greater key. -/
def minsert {α : Type} (k : Nat) (v : α) : SMap α → SMap α
  | [] => [(k, v)]
  | x :: r => if k < x.1 then (k, v) :: x :: r else x :: minsert k v r

/-- Write v at key k: an entry that an unlisted key would read as is removed. -/
def mset {α : Type} [DecidableEq α] (d : Nat → α) (m : SMap α) (k : Nat) (v : α) : SMap α :=
  let r := m.filter (fun x => x.1 != k)
  if v = d k then r else minsert k v r

/-- The canonical form: keys strictly rising, and no entry that an unlisted key would read as. -/
def mwf {α : Type} [DecidableEq α] (d : Nat → α) : SMap α → Bool
  | [] => true
  | x :: r => decide (x.2 ≠ d x.1) && r.all (fun y => decide (x.1 < y.1)) && mwf d r

/-- Drop every entry whose key satisfies p: those keys read as d again. -/
def mdrop {α : Type} (p : Nat → Bool) (m : SMap α) : SMap α := m.filter (fun x => !(p x.1))

/-- n bytes from address a, little-endian (R4). -/
def readBytes (d : Nat → Byte) (m : SMap Byte) (a n : Nat) : List Byte := (List.range n).map (fun i => mget d m (a + i))

/-- Write bytes from address a up. -/
def writeBytes (d : Nat → Byte) (m : SMap Byte) (a : Nat) : List Byte → SMap Byte
  | [] => m
  | b :: r => writeBytes d (mset d m a b) (a + 1) r

/-- The number whose little-endian bytes are l (R4). -/
def leNat : List Byte → Nat
  | [] => 0
  | b :: r => b.toNat + 256 * leNat r

/-- n little-endian bytes of x (R4). -/
def leBytes : Nat → Nat → List Byte
  | 0, _ => []
  | n + 1, x => BitVec.ofNat 8 x :: leBytes n (x / 256)

/-- Bits hi down to lo of x. -/
def bitsOf (x hi lo : Nat) : Nat := (x >>> lo) % 2 ^ (hi + 1 - lo)

/-- x with bits hi down to lo replaced by v. -/
def setBits (x hi lo v : Nat) : Nat := x - bitsOf x hi lo * 2 ^ lo + (v % 2 ^ (hi + 1 - lo)) * 2 ^ lo

/-- R10: a counter of w bits counts up and stays at all ones. -/
def satAdd (w x n : Nat) : Nat := min (2 ^ w - 1) (x + n)

/-- The zero default of sparse bytes, flags and registers. -/
def zeroByte : Nat → Byte := fun _ => 0
def noFlag : Nat → Bool := fun _ => false

/-- Replace element i of a list where there is one. -/
def listUpd {α : Type} (f : α → α) : List α → Nat → List α
  | [], _ => []
  | x :: r, 0 => f x :: r
  | x :: r, n + 1 => x :: listUpd f r n

end Sys2Proof.Machine
end

