-- ==== Sys2Proof/Machine/Hash.lean ====
section
/-! DEFINITION. The bit functions that the spec writes out: the hem generator (R47), the CRC step (R149), and SHA-256, which
the spec names by its standard (R390; log 12). -/

namespace Sys2Proof.Machine

/-- Rotate a 32-bit word left. -/
def rotl32 (x n : Nat) : Nat := ((x <<< n) ||| (x >>> (32 - n))) % 2 ^ 32

def add32 (x y : Nat) : Nat := (x + y) % 2 ^ 32

/-- Word w (32 bits) of a wider value. -/
def word32 (x w : Nat) : Nat := (x >>> (32 * w)) % 2 ^ 32

/-- One round of R47 on a, b, c, d. -/
def hemRound (key r : Nat) (s : Nat × Nat × Nat × Nat) : Nat × Nat × Nat × Nat :=
  let (a, b, c, d) := s
  let a := add32 a (word32 key (r % 4) ^^^ r)
  let c := add32 c (word32 key ((r + 2) % 4))
  let a := add32 a b
  let d := rotl32 (d ^^^ a) 11
  let c := add32 c d
  let b := rotl32 (b ^^^ c) 19
  let a := add32 a b
  let d := rotl32 (d ^^^ a) 5
  let c := add32 c d
  let b := rotl32 (b ^^^ c) 23
  (a, b, c, d)

/-- R47: the 128-bit draw of a 128-bit key and a 64-bit counter. -/
def hemDraw (key ctr : Nat) : Nat :=
  let (a, b, c, d) := (List.range 12).foldl (fun s r => hemRound key r s)
    (ctr % 2 ^ 32, (ctr >>> 32) % 2 ^ 32, 0x9E3779B9, 0x7F4A7C15)
  (a ^^^ word32 key 0) + (b ^^^ word32 key 1) * 2 ^ 32 + (c ^^^ word32 key 2) * 2 ^ 64 + (d ^^^ word32 key 3) * 2 ^ 96

/-- R149: the CRC step over n bytes of data, least significant bit first. -/
def crcStep (s data n poly : Nat) : Nat :=
  (List.range (8 * n)).foldl (fun s i => (s >>> 1) ^^^ (if (s ^^^ (data >>> i)) % 2 = 1 then poly else 0)) s

def polyCrc32c : Nat := 0x82F63B78
def polyCrc64 : Nat := 0xC96C5795D7870F42

/-- R172: the seal of a frame whose sealed 864 bytes, with bytes 40 to 47 taken as 0, are f. -/
def frameSeal (fk seq : Nat) (f : List Byte) : W64 :=
  let acc := (List.range 54).foldl (fun acc i =>
    acc ^^^ hemDraw (fk ^^^ leNat ((f.drop (16 * i)).take 16)) ((seq * 128 ||| i) % 2 ^ 64)) 0
  BitVec.ofNat 64 (hemDraw (fk ^^^ acc) (2 ^ 64 - 1 - seq % 2 ^ 64))

/-! ### SHA-256 (FIPS 180-4) -/

def rotr32 (x n : Nat) : Nat := ((x >>> n) ||| (x <<< (32 - n))) % 2 ^ 32

def shaPrimes : List Nat := [2, 3, 5, 7, 11, 13, 17, 19, 23, 29, 31, 37, 41, 43, 47, 53, 59, 61, 67, 71, 73, 79, 83, 89, 97, 101,
  103, 107, 109, 113, 127, 131, 137, 139, 149, 151, 157, 163, 167, 173, 179, 181, 191, 193, 197, 199, 211, 223, 227, 229, 233,
  239, 241, 251, 257, 263, 269, 271, 277, 281, 283, 293, 307, 311]

/-- The integer root of degree k of n, bit by bit. -/
def rootGo (k n : Nat) : Nat → Nat → Nat
  | 0, r => r
  | b + 1, r => let t := r + 2 ^ b; rootGo k n b (if t ^ k ≤ n then t else r)

/-- The first 32 bits of the fraction of the k-th root of p. -/
def fracRoot (k p : Nat) : Nat := rootGo k (p * 2 ^ (32 * k)) 40 0 % 2 ^ 32

def shaK : List Nat := shaPrimes.map (fracRoot 3)
def shaInit : List Nat := (shaPrimes.take 8).map (fracRoot 2)

/-- The message schedule: 64 words from 16. -/
def shaSchedule (w : List Nat) : List Nat :=
  (List.range 48).foldl (fun w i =>
    let x := w.getD (i + 1) 0
    let y := w.getD (i + 14) 0
    let s0 := rotr32 x 7 ^^^ rotr32 x 18 ^^^ (x >>> 3)
    let s1 := rotr32 y 17 ^^^ rotr32 y 19 ^^^ (y >>> 10)
    w ++ [(w.getD i 0 + s0 + w.getD (i + 9) 0 + s1) % 2 ^ 32]) w

/-- One round on the eight words a to h. -/
def shaRound (s : List Nat) (kw : Nat) : List Nat :=
  match s with
  | [a, b, c, d, e, f, g, h] =>
    let t1 := h + (rotr32 e 6 ^^^ rotr32 e 11 ^^^ rotr32 e 25) + ((e &&& f) ^^^ ((e ^^^ (2 ^ 32 - 1)) &&& g)) + kw
    let t2 := (rotr32 a 2 ^^^ rotr32 a 13 ^^^ rotr32 a 22) + ((a &&& b) ^^^ (a &&& c) ^^^ (b &&& c))
    [(t1 + t2) % 2 ^ 32, a, b, c, (d + t1) % 2 ^ 32, e, f, g]
  | _ => s

def shaBlock (s w : List Nat) : List Nat :=
  List.zipWith add32 s (((shaSchedule w).zipWith (· + ·) shaK).foldl shaRound s)

/-- The big-endian 32-bit words of a byte list. -/
def beWords : List Byte → List Nat
  | a :: b :: c :: d :: r => (((a.toNat * 256 + b.toNat) * 256 + c.toNat) * 256 + d.toNat) :: beWords r
  | _ => []

/-- n big-endian bytes of x. -/
def beBytes (n x : Nat) : List Byte := (leBytes n x).reverse

def shaBlocks : Nat → List Nat → List Nat → List Nat
  | 0, s, _ => s
  | n + 1, s, w => shaBlocks n (shaBlock s (w.take 16)) (w.drop 16)

/-- SHA-256 of a byte string: 32 bytes. -/
def sha256 (m : List Byte) : List Byte :=
  let pad := (119 - m.length % 64) % 64
  let b := m ++ [0x80] ++ List.replicate pad 0 ++ beBytes 8 (8 * m.length)
  (shaBlocks (b.length / 64) shaInit (beWords b)).flatMap (beBytes 4)

end Sys2Proof.Machine
end

