-- ==== Sys2Proof/Machine/Regs.lean ====
section
/-! DEFINITION. The registers of the block, one table for each register block, written from the register tables of the spec:
offset, and each field's bits, access, class and reset value. What a table does not list is reserved: it reads 0 and a write
to it is ignored (R8). The one function that writes a register by access and class (R6, R7). -/

namespace Sys2Proof.Machine

/-- Access codes (R6). -/
inductive RAcc where
  | ro | rw | w1c | wo | rws
deriving DecidableEq, Repr

/-- Configuration classes (R7). -/
inductive RCls where
  | live | staged | locked
deriving DecidableEq, Repr

/-- One field of a register: bits hi down to lo. -/
structure RField where
  hi  : Nat
  lo  : Nat
  acc : RAcc
  cls : RCls
  reset : Nat
deriving DecidableEq, Repr

structure RReg where
  off : Nat
  fields : List RField
deriving DecidableEq, Repr

/-- The reset value of a register (R9). -/
def RReg.reset (r : RReg) : Nat := r.fields.foldl (fun x f => setBits x f.hi f.lo f.reset) 0

def findReg (t : List RReg) (off : Nat) : Option RReg := t.find? (fun r => r.off == off)

/-- What an unwritten register of a table holds; a reserved offset holds 0 (R8). -/
def tableReset (t : List RReg) (off : Nat) : W64 :=
  match findReg t off with
  | some r => BitVec.ofNat 64 r.reset
  | none => 0

/-- R6 to R8: the value that a write of new leaves in one field, and whether the write is rejected for it. mask: the bits
the access covers; runs: the field's using block runs. A Staged field takes the written value at once in what a read
returns; what its block works with is kept apart. -/
def fieldWrite (f : RField) (runs : Bool) (old new mask : Nat) : Nat × Bool :=
  let o := bitsOf old f.hi f.lo
  let m := bitsOf mask f.hi f.lo
  let n := (bitsOf new f.hi f.lo &&& m) ||| (o &&& (m ^^^ (2 ^ (f.hi + 1 - f.lo) - 1)))
  match f.acc with
  | .ro => (o, false)
  | .w1c => (o &&& ((bitsOf new f.hi f.lo &&& m) ^^^ (2 ^ (f.hi + 1 - f.lo) - 1)), false)
  | .wo => (0, decide (f.cls = .locked) && runs && m != 0)
  | .rw | .rws => if f.cls = .locked && runs && n != o then (o, true) else (n, false)

/-- R7: write a whole register, each field under its own class; true when some field rejects the write. -/
def regWrite (r : RReg) (runs : RField → Bool) (old new mask : Nat) : Nat × Bool :=
  r.fields.foldl (fun acc f =>
    let w := fieldWrite f (runs f) old new mask
    (setBits acc.1 f.hi f.lo w.1, acc.2 || w.2)) (old, false)

/-- Numeric registers of a core (R53 to R56). -/
def regsNum : List RReg := [
  ⟨0x1000, [⟨15, 12, .w1c, .live, 0⟩, ⟨11, 11, .w1c, .live, 0⟩, ⟨10, 10, .w1c, .live, 0⟩, ⟨9, 9, .w1c, .live, 0⟩, ⟨8, 8, .w1c, .live, 0⟩, ⟨7, 7, .w1c, .live, 0⟩, ⟨6, 6, .w1c, .live, 0⟩, ⟨5, 5, .w1c, .live, 0⟩, ⟨4, 4, .w1c, .live, 0⟩, ⟨3, 3, .w1c, .live, 0⟩, ⟨2, 2, .w1c, .live, 0⟩, ⟨1, 1, .w1c, .live, 0⟩, ⟨0, 0, .w1c, .live, 0⟩]⟩,  -- NUMFLAGS (R53)
  ⟨0x1008, [⟨6, 6, .wo, .live, 0⟩, ⟨5, 5, .rws, .staged, 0⟩, ⟨4, 4, .rws, .staged, 1⟩, ⟨3, 2, .rws, .staged, 0⟩, ⟨1, 0, .rws, .staged, 0⟩]⟩,  -- NUMCTL (R54)
  ⟨0x1010, [⟨31, 0, .ro, .live, 0⟩]⟩,  -- VXAMAX (R55)
  ⟨0x1018, [⟨16, 16, .rw, .live, 0⟩, ⟨15, 0, .rw, .live, 0⟩]⟩,  -- NUMREJ (R55)
  ⟨0x1100, [⟨63, 0, .rw, .locked, 0⟩]⟩,  -- HEM0.KEYLO (R56)
  ⟨0x1108, [⟨63, 0, .rw, .locked, 0⟩]⟩,  -- HEM0.KEYHI (R56)
  ⟨0x1110, [⟨63, 0, .rw, .locked, 0⟩]⟩,  -- HEM0.CTR (R56)
  ⟨0x1120, [⟨63, 0, .rw, .locked, 0⟩]⟩,  -- HEM1.KEYLO (R56)
  ⟨0x1128, [⟨63, 0, .rw, .locked, 0⟩]⟩,  -- HEM1.KEYHI (R56)
  ⟨0x1130, [⟨63, 0, .rw, .locked, 0⟩]⟩,  -- HEM1.CTR (R56)
  ⟨0x1140, [⟨63, 0, .rw, .locked, 0⟩]⟩,  -- HEM2.KEYLO (R56)
  ⟨0x1148, [⟨63, 0, .rw, .locked, 0⟩]⟩,  -- HEM2.KEYHI (R56)
  ⟨0x1150, [⟨63, 0, .rw, .locked, 0⟩]⟩,  -- HEM2.CTR (R56)
  ⟨0x1160, [⟨63, 0, .rw, .locked, 0⟩]⟩,  -- HEM3.KEYLO (R56)
  ⟨0x1168, [⟨63, 0, .rw, .locked, 0⟩]⟩,  -- HEM3.KEYHI (R56)
  ⟨0x1170, [⟨63, 0, .rw, .locked, 0⟩]⟩]  -- HEM3.CTR (R56)

/-- Matrix registers (R84). -/
def regsMx : List RReg := [
  ⟨0x1200, [⟨23, 23, .ro, .live, 0⟩, ⟨22, 19, .ro, .live, 0⟩, ⟨18, 16, .ro, .live, 0⟩, ⟨15, 0, .ro, .live, 0⟩]⟩,  -- MXSTAT
  ⟨0x1208, [⟨15, 8, .rw, .locked, 0x10⟩, ⟨1, 1, .rw, .live, 1⟩, ⟨0, 0, .rw, .locked, 1⟩]⟩,  -- MXCTL
  ⟨0x1210, [⟨32, 32, .rw, .live, 0⟩, ⟨31, 16, .rw, .live, 0⟩, ⟨15, 0, .rw, .live, 0⟩]⟩,  -- MXCNT
  ⟨0x1218, [⟨63, 0, .rw, .live, 0⟩]⟩,  -- MXBUSY
  ⟨0x1220, [⟨63, 0, .rw, .live, 0⟩]⟩]  -- MXWAIT

/-- Accumulation registers (R104). -/
def regsAcc : List RReg := [
  ⟨0x1300, [⟨4, 4, .rws, .staged, 0⟩, ⟨3, 0, .rws, .staged, 1⟩]⟩,  -- ACCCTL
  ⟨0x1308, [⟨7, 4, .ro, .live, 0⟩, ⟨3, 0, .ro, .live, 0⟩]⟩,  -- ACCSTAT
  ⟨0x1310, [⟨63, 0, .rw, .live, 0⟩]⟩,  -- ACCFOLDS
  ⟨0x1318, [⟨63, 0, .rw, .live, 0⟩]⟩,  -- ACCSTALL
  ⟨0x1320, [⟨48, 48, .rw, .live, 0⟩, ⟨47, 32, .rw, .live, 0⟩, ⟨31, 16, .rw, .live, 0⟩, ⟨15, 0, .rw, .live, 0⟩]⟩,  -- ACCCNT
  ⟨0x1340, [⟨22, 22, .ro, .live, 0⟩, ⟨21, 21, .ro, .live, 0⟩, ⟨20, 20, .ro, .live, 0⟩, ⟨19, 10, .ro, .live, 0⟩, ⟨9, 0, .ro, .live, 0⟩]⟩,  -- ACCTILE 0
  ⟨0x1348, [⟨22, 22, .ro, .live, 0⟩, ⟨21, 21, .ro, .live, 0⟩, ⟨20, 20, .ro, .live, 0⟩, ⟨19, 10, .ro, .live, 0⟩, ⟨9, 0, .ro, .live, 0⟩]⟩,  -- ACCTILE 1
  ⟨0x1350, [⟨22, 22, .ro, .live, 0⟩, ⟨21, 21, .ro, .live, 0⟩, ⟨20, 20, .ro, .live, 0⟩, ⟨19, 10, .ro, .live, 0⟩, ⟨9, 0, .ro, .live, 0⟩]⟩,  -- ACCTILE 2
  ⟨0x1358, [⟨22, 22, .ro, .live, 0⟩, ⟨21, 21, .ro, .live, 0⟩, ⟨20, 20, .ro, .live, 0⟩, ⟨19, 10, .ro, .live, 0⟩, ⟨9, 0, .ro, .live, 0⟩]⟩,  -- ACCTILE 3
  ⟨0x1360, [⟨22, 22, .ro, .live, 0⟩, ⟨21, 21, .ro, .live, 0⟩, ⟨20, 20, .ro, .live, 0⟩, ⟨19, 10, .ro, .live, 0⟩, ⟨9, 0, .ro, .live, 0⟩]⟩,  -- ACCTILE 4
  ⟨0x1368, [⟨22, 22, .ro, .live, 0⟩, ⟨21, 21, .ro, .live, 0⟩, ⟨20, 20, .ro, .live, 0⟩, ⟨19, 10, .ro, .live, 0⟩, ⟨9, 0, .ro, .live, 0⟩]⟩,  -- ACCTILE 5
  ⟨0x1370, [⟨22, 22, .ro, .live, 0⟩, ⟨21, 21, .ro, .live, 0⟩, ⟨20, 20, .ro, .live, 0⟩, ⟨19, 10, .ro, .live, 0⟩, ⟨9, 0, .ro, .live, 0⟩]⟩,  -- ACCTILE 6
  ⟨0x1378, [⟨22, 22, .ro, .live, 0⟩, ⟨21, 21, .ro, .live, 0⟩, ⟨20, 20, .ro, .live, 0⟩, ⟨19, 10, .ro, .live, 0⟩, ⟨9, 0, .ro, .live, 0⟩]⟩]  -- ACCTILE 7

/-- Vector registers (R129). -/
def regsVx : List RReg := [
  ⟨0x1400, [⟨27, 24, .ro, .live, 8⟩, ⟨23, 16, .ro, .live, 0x10⟩, ⟨15, 0, .ro, .live, 0x4000⟩]⟩,  -- VXCAP
  ⟨0x1408, [⟨12, 0, .ro, .live, 0⟩]⟩,  -- VXVL
  ⟨0x1410, [⟨9, 9, .ro, .live, 0⟩, ⟨8, 4, .ro, .live, 0⟩, ⟨3, 0, .ro, .live, 0⟩]⟩,  -- VXSTAT
  ⟨0x1418, [⟨1, 1, .rw, .locked, 1⟩, ⟨0, 0, .rw, .live, 1⟩]⟩,  -- VXCTL
  ⟨0x1420, [⟨48, 48, .rw, .live, 0⟩, ⟨47, 32, .rw, .live, 0⟩, ⟨31, 16, .rw, .live, 0⟩, ⟨15, 0, .rw, .live, 0⟩]⟩,  -- VXCNT
  ⟨0x1428, [⟨63, 0, .rw, .live, 0⟩]⟩]  -- VXBUSY

/-- Scalar registers (R153). -/
def regsSc : List RReg := [
  ⟨0x1500, [⟨11, 8, .ro, .live, 0⟩, ⟨7, 5, .ro, .live, 0⟩, ⟨4, 4, .ro, .live, 0⟩]⟩,  -- SCSTAT
  ⟨0x1508, [⟨1, 1, .rw, .locked, 1⟩, ⟨0, 0, .rw, .locked, 1⟩]⟩,  -- SCCTL
  ⟨0x1510, [⟨63, 0, .rw, .live, 0⟩]⟩,  -- MLO
  ⟨0x1518, [⟨63, 0, .rw, .live, 0⟩]⟩,  -- MHI
  ⟨0x1520, [⟨63, 0, .rw, .live, 0⟩]⟩,  -- LC0
  ⟨0x1528, [⟨63, 0, .rw, .live, 0⟩]⟩,  -- LC1
  ⟨0x1530, [⟨63, 0, .rw, .live, 0⟩]⟩,  -- LS0
  ⟨0x1540, [⟨63, 0, .rw, .live, 0⟩]⟩,  -- LS1
  ⟨0x1538, [⟨63, 0, .rw, .live, 0⟩]⟩,  -- LE0
  ⟨0x1548, [⟨63, 0, .rw, .live, 0⟩]⟩,  -- LE1
  ⟨0x1550, [⟨63, 0, .ro, .live, 0⟩]⟩,  -- RSP
  ⟨0x1558, [⟨63, 0, .rw, .live, 0⟩]⟩,  -- SCSTALL
  ⟨0x1560, [⟨63, 0, .rw, .live, 0⟩]⟩,  -- SCPOVL
  ⟨0x1568, [⟨63, 0, .rw, .live, 0⟩]⟩,  -- SCSPLIT
  ⟨0x1570, [⟨63, 0, .rw, .live, 0⟩]⟩,  -- SCFLUSH
  ⟨0x1578, [⟨63, 0, .w1c, .live, 0⟩]⟩,  -- GPOISON
  ⟨0x1580, [⟨16, 16, .rw, .live, 0⟩, ⟨15, 0, .rw, .live, 0⟩]⟩]  -- SCCNT

/-- Exception registers (R181); the capability registers CAPn and SCAPs have their own homes. -/
def regsEx : List RReg := [
  ⟨0x1600, [⟨1, 1, .rw, .live, 0⟩, ⟨0, 0, .rw, .live, 0⟩]⟩,  -- ARITHCTL
  ⟨0x1608, [⟨63, 48, .ro, .live, 0⟩, ⟨7, 6, .ro, .live, 0⟩, ⟨3, 3, .ro, .live, 0⟩, ⟨2, 2, .ro, .live, 0⟩, ⟨1, 0, .ro, .live, 0⟩]⟩,  -- EXSTAT
  ⟨0x1610, [⟨15, 8, .rw, .live, 0⟩, ⟨1, 1, .rw, .live, 0⟩, ⟨0, 0, .rw, .live, 0⟩]⟩,  -- EXCTL
  ⟨0x1618, [⟨7, 0, .w1c, .live, 0⟩]⟩,  -- EXPEND
  ⟨0x1620, [⟨63, 0, .ro, .live, 0⟩]⟩,  -- EXADDR
  ⟨0x1628, [⟨63, 0, .ro, .live, 0⟩]⟩,  -- EXSEQ
  ⟨0x1630, [⟨63, 0, .rw, .live, 0xFFFFFFFFFFFFFFFF⟩]⟩,  -- EXTIMER
  ⟨0x1638, [⟨63, 0, .wo, .locked, 0⟩]⟩,  -- FRAMEKEYLO
  ⟨0x1640, [⟨63, 0, .wo, .locked, 0⟩]⟩,  -- FRAMEKEYHI
  ⟨0x1648, [⟨48, 48, .rw, .live, 0⟩, ⟨47, 32, .rw, .live, 0⟩, ⟨31, 16, .rw, .live, 0⟩, ⟨15, 0, .rw, .live, 0⟩]⟩,  -- EXCNT
  ⟨0x1650, [⟨63, 0, .rw, .live, 0⟩]⟩]  -- EXENTRY

/-- Transfer-engine registers of a core (R209). -/
def regsTx : List RReg := [
  ⟨0x1900, [⟨26, 26, .ro, .live, 0⟩, ⟨25, 16, .ro, .live, 0⟩, ⟨15, 0, .ro, .live, 0⟩]⟩,  -- TXSTAT
  ⟨0x1908, [⟨31, 16, .rw, .live, 0x100⟩, ⟨9, 0, .rw, .live, 0x180⟩]⟩,  -- TXCTL
  ⟨0x1910, [⟨5, 4, .wo, .live, 0⟩, ⟨3, 0, .wo, .live, 0⟩]⟩,  -- TXRES
  ⟨0x1918, [⟨48, 48, .rw, .live, 0⟩, ⟨47, 32, .rw, .live, 0⟩, ⟨31, 16, .rw, .live, 0⟩, ⟨15, 0, .rw, .live, 0⟩]⟩,  -- TXCNT
  ⟨0x1920, [⟨63, 0, .rw, .live, 0⟩]⟩,  -- TXBYTES
  ⟨0x1928, [⟨63, 0, .rw, .live, 0⟩]⟩,  -- TXTAGWAIT
  ⟨0x1930, [⟨63, 0, .rw, .live, 0⟩]⟩]  -- TXSEQWAIT

/-- Translation registers of a core (R231). -/
def regsTr : List RReg := [
  ⟨0x1A00, [⟨15, 8, .ro, .live, 0⟩, ⟨6, 4, .ro, .live, 0⟩, ⟨0, 0, .ro, .live, 0⟩]⟩,  -- TRSTAT
  ⟨0x1A08, [⟨63, 0, .rw, .live, 0⟩]⟩,  -- TRMISS
  ⟨0x1A10, [⟨63, 0, .rw, .live, 0⟩]⟩,  -- TRWALK
  ⟨0x1A18, [⟨63, 0, .rw, .live, 0⟩]⟩,  -- TRFAULT
  ⟨0x1A20, [⟨63, 0, .wo, .live, 0⟩]⟩,  -- TRINV
  ⟨0x1A28, [⟨0, 0, .ro, .live, 0⟩]⟩]  -- TRINVACK

/-- Level-1 cache registers (R255) and the launch exit code (R335). -/
def regsL1 : List RReg := [
  ⟨0x1B00, [⟨2, 2, .rw, .live, 1⟩, ⟨1, 1, .wo, .live, 0⟩, ⟨0, 0, .wo, .live, 0⟩]⟩,  -- L1CTL
  ⟨0x1B08, [⟨63, 0, .rw, .live, 0⟩]⟩,  -- L1DHIT
  ⟨0x1B10, [⟨63, 0, .rw, .live, 0⟩]⟩,  -- L1DMISS
  ⟨0x1B18, [⟨63, 0, .rw, .live, 0⟩]⟩,  -- BASKHIT
  ⟨0x1B20, [⟨63, 0, .rw, .live, 0⟩]⟩,  -- BASKDROP
  ⟨0x1B28, [⟨63, 0, .rw, .live, 0⟩]⟩,  -- L1ERR
  ⟨0x1C00, [⟨31, 0, .rw, .live, 0⟩]⟩]  -- LEXIT

/-- Cluster registers (R256). -/
def clusterRegs : List RReg := [
  ⟨0x0, [⟨8, 8, .rw, .locked, 1⟩, ⟨3, 0, .rw, .live, 8⟩]⟩,  -- L2CTL
  ⟨0x8, [⟨14, 8, .ro, .live, 0⟩, ⟨6, 0, .ro, .live, 0⟩]⟩,  -- L2STAT
  ⟨0x10, [⟨63, 0, .rw, .live, 0⟩]⟩,  -- L2HIT
  ⟨0x18, [⟨63, 0, .rw, .live, 0⟩]⟩,  -- L2MISS
  ⟨0x20, [⟨63, 0, .rw, .live, 0⟩]⟩,  -- HAMRECALL
  ⟨0x28, [⟨63, 0, .rw, .live, 0⟩]⟩,  -- HAMSTALL
  ⟨0x30, [⟨63, 0, .rw, .live, 0⟩]⟩,  -- SNPDEFER
  ⟨0x38, [⟨63, 0, .rw, .live, 0⟩]⟩,  -- SNPRETRY
  ⟨0x40, [⟨63, 0, .rw, .live, 0⟩]⟩,  -- XCROSS
  ⟨0x48, [⟨48, 48, .rw, .live, 0⟩, ⟨47, 32, .rw, .live, 0⟩, ⟨31, 16, .rw, .live, 0⟩, ⟨15, 0, .rw, .live, 0⟩]⟩]  -- L2ERR

/-- Region registers (R211, R257, R286, R365). -/
def regionRegs : List RReg := [
  ⟨0x10000, [⟨15, 8, .ro, .live, 0⟩, ⟨7, 0, .ro, .live, 0⟩]⟩,  -- MG.STAT (R211)
  ⟨0x10008, [⟨31, 16, .rw, .live, 0⟩, ⟨15, 0, .rw, .live, 0⟩]⟩,  -- MG.CNT
  ⟨0x10010, [⟨63, 0, .rw, .live, 0⟩]⟩,  -- MG.BYTES
  ⟨0x20000, [⟨2, 2, .rw, .locked, 1⟩, ⟨1, 0, .rw, .live, 1⟩]⟩,  -- RC.CTL
  ⟨0x20008, [⟨63, 0, .rw, .live, 0⟩]⟩,  -- RC.HIT
  ⟨0x20010, [⟨63, 0, .rw, .live, 0⟩]⟩,  -- RC.MISS
  ⟨0x20018, [⟨63, 0, .rw, .live, 0⟩]⟩,  -- RC.ACCEPT
  ⟨0x20020, [⟨63, 0, .rw, .live, 0⟩]⟩,  -- RC.DECLINE
  ⟨0x20028, [⟨63, 0, .rw, .live, 0⟩]⟩,  -- RC.DISCARD
  ⟨0x20030, [⟨48, 48, .rw, .live, 0⟩, ⟨47, 32, .rw, .live, 0⟩, ⟨31, 16, .rw, .live, 0⟩, ⟨15, 0, .rw, .live, 0⟩]⟩,  -- RC.ERR
  ⟨0x30000, [⟨17, 0, .ro, .live, 0⟩]⟩,  -- HF.STAT (R365)
  ⟨0x30008, [⟨63, 0, .rw, .live, 0⟩]⟩,  -- HF.EVICT
  ⟨0x40000, [⟨59, 0, .ro, .live, 0⟩]⟩,  -- STK.REMAP0
  ⟨0x40008, [⟨25, 25, .ro, .live, 0⟩, ⟨24, 20, .ro, .live, 0x10⟩, ⟨19, 0, .ro, .live, 0⟩]⟩,  -- STK.REMAP1
  ⟨0x40010, [⟨32, 32, .rw, .live, 1⟩, ⟨31, 0, .rws, .staged, 0x1F40⟩]⟩,  -- STK.RTCTL
  ⟨0x40018, [⟨4, 4, .rw, .live, 0⟩, ⟨3, 0, .rw, .live, 1⟩]⟩,  -- STK.PCTL
  ⟨0x40020, [⟨56, 32, .ro, .live, 0⟩, ⟨7, 4, .ro, .live, 0⟩, ⟨2, 0, .ro, .live, 0⟩]⟩,  -- STK.PSTAT
  ⟨0x40028, [⟨8, 8, .rw, .live, 1⟩, ⟨7, 0, .rw, .live, 0x18⟩]⟩,  -- STK.RINSE
  ⟨0x40030, [⟨48, 48, .rw, .live, 0⟩, ⟨47, 32, .rw, .live, 0⟩, ⟨31, 16, .rw, .live, 0⟩, ⟨15, 0, .rw, .live, 0⟩]⟩]  -- STK.CNT

/-- Registers of one physical channel (R287). -/
def chanRegs : List RReg := [
  ⟨0x0, [⟨13, 13, .ro, .live, 0⟩, ⟨12, 12, .ro, .live, 0⟩, ⟨11, 11, .ro, .live, 0⟩, ⟨10, 2, .ro, .live, 0⟩, ⟨1, 0, .ro, .live, 0⟩]⟩,  -- MC.STAT
  ⟨0x8, [⟨47, 40, .rw, .live, 0x80⟩, ⟨39, 32, .rw, .live, 0xC0⟩, ⟨31, 16, .rw, .live, 0x400⟩, ⟨10, 10, .rw, .live, 1⟩, ⟨9, 0, .rw, .live, 0x200⟩]⟩,  -- MC.CTL
  ⟨0x10, [⟨32, 0, .ro, .live, 0⟩]⟩,  -- MC.RINSEPTR
  ⟨0x100, [⟨63, 0, .rw, .live, 0⟩]⟩,  -- MC.CE
  ⟨0x108, [⟨63, 0, .rw, .live, 0⟩]⟩,  -- MC.UE
  ⟨0x110, [⟨63, 0, .rw, .live, 0⟩]⟩,  -- MC.PRD
  ⟨0x118, [⟨63, 0, .rw, .live, 0⟩]⟩,  -- MC.PARTP
  ⟨0x120, [⟨63, 0, .rw, .live, 0⟩]⟩,  -- MC.RTWAIT
  ⟨0x128, [⟨63, 0, .rw, .live, 0⟩]⟩,  -- MC.RTFAIL
  ⟨0x130, [⟨63, 0, .rw, .live, 0⟩]⟩,  -- MC.AGED
  ⟨0x138, [⟨63, 0, .rw, .live, 0⟩]⟩,  -- MC.RANAN
  ⟨0x140, [⟨63, 0, .rw, .live, 0⟩]⟩,  -- MC.RAPOIS
  ⟨0x148, [⟨63, 0, .rw, .live, 0⟩]⟩,  -- MC.DROP
  ⟨0x800, [⟨23, 16, .rw, .locked, 1⟩, ⟨6, 6, .ro, .live, 0⟩, ⟨5, 5, .ro, .live, 0⟩, ⟨4, 4, .wo, .live, 0⟩, ⟨3, 2, .rw, .locked, 0⟩, ⟨1, 0, .rw, .locked, 0⟩]⟩,  -- SOAK.CTL
  ⟨0x808, [⟨32, 0, .rw, .locked, 0⟩]⟩,  -- SOAK.START
  ⟨0x810, [⟨32, 0, .rw, .locked, 0⟩]⟩,  -- SOAK.END
  ⟨0x818, [⟨63, 0, .rw, .locked, 0⟩]⟩,  -- SOAK.KEYLO
  ⟨0x820, [⟨63, 0, .rw, .locked, 0⟩]⟩,  -- SOAK.KEYHI
  ⟨0x828, [⟨63, 0, .rw, .locked, 0⟩]⟩,  -- SOAK.CONST
  ⟨0x830, [⟨63, 0, .rw, .live, 0⟩]⟩,  -- SOAK.ERR
  ⟨0x838, [⟨32, 0, .ro, .live, 0⟩]⟩,  -- SOAK.FIRST
  ⟨0x840, [⟨63, 0, .ro, .live, 0⟩]⟩,  -- SOAK.LANES
  ⟨0x848, [⟨7, 0, .ro, .live, 0⟩]⟩]  -- SOAK.LANESM

/-- Press registers (R210). -/
def pressRegs : List RReg := [
  ⟨0x400000, [⟨15, 0, .rw, .live, 0x4000⟩]⟩,  -- PRESS.CTL
  ⟨0x400008, [⟨15, 0, .rw, .live, 0⟩]⟩,  -- PRESS.CNT
  ⟨0x400100, [⟨63, 0, .rw, .locked, 0⟩]⟩,  -- CH0.MEMBERS
  ⟨0x400120, [⟨63, 0, .rw, .locked, 0⟩]⟩,  -- CH1.MEMBERS
  ⟨0x400140, [⟨63, 0, .rw, .locked, 0⟩]⟩,  -- CH2.MEMBERS
  ⟨0x400160, [⟨63, 0, .rw, .locked, 0⟩]⟩,  -- CH3.MEMBERS
  ⟨0x400108, [⟨0, 0, .rw, .locked, 0⟩]⟩,  -- CH0.CFG
  ⟨0x400128, [⟨0, 0, .rw, .locked, 0⟩]⟩,  -- CH1.CFG
  ⟨0x400148, [⟨0, 0, .rw, .locked, 0⟩]⟩,  -- CH2.CFG
  ⟨0x400168, [⟨0, 0, .rw, .locked, 0⟩]⟩,  -- CH3.CFG
  ⟨0x400110, [⟨63, 0, .ro, .live, 0⟩]⟩,  -- CH0.ARRIVED
  ⟨0x400130, [⟨63, 0, .ro, .live, 0⟩]⟩,  -- CH1.ARRIVED
  ⟨0x400150, [⟨63, 0, .ro, .live, 0⟩]⟩,  -- CH2.ARRIVED
  ⟨0x400170, [⟨63, 0, .ro, .live, 0⟩]⟩,  -- CH3.ARRIVED
  ⟨0x400118, [⟨63, 0, .ro, .live, 0⟩]⟩,  -- CH0.EPOCH
  ⟨0x400138, [⟨63, 0, .ro, .live, 0⟩]⟩,  -- CH1.EPOCH
  ⟨0x400158, [⟨63, 0, .ro, .live, 0⟩]⟩,  -- CH2.EPOCH
  ⟨0x400178, [⟨63, 0, .ro, .live, 0⟩]⟩]  -- CH3.EPOCH

/-- Package translation registers (R232). -/
def transRegs : List RReg := [
  ⟨0x500000, [⟨47, 16, .rw, .locked, 0⟩, ⟨1, 1, .rw, .locked, 0⟩, ⟨0, 0, .rw, .live, 0⟩]⟩,  -- CTX0
  ⟨0x500008, [⟨47, 16, .rw, .locked, 0⟩, ⟨1, 1, .rw, .locked, 0⟩, ⟨0, 0, .rw, .live, 0⟩]⟩,  -- CTX1
  ⟨0x500010, [⟨47, 16, .rw, .locked, 0⟩, ⟨1, 1, .rw, .locked, 0⟩, ⟨0, 0, .rw, .live, 0⟩]⟩,  -- CTX2
  ⟨0x500018, [⟨47, 16, .rw, .locked, 0⟩, ⟨1, 1, .rw, .locked, 0⟩, ⟨0, 0, .rw, .live, 0⟩]⟩,  -- CTX3
  ⟨0x500020, [⟨47, 16, .rw, .locked, 0⟩, ⟨1, 1, .rw, .locked, 0⟩, ⟨0, 0, .rw, .live, 0⟩]⟩,  -- CTX4
  ⟨0x500028, [⟨47, 16, .rw, .locked, 0⟩, ⟨1, 1, .rw, .locked, 0⟩, ⟨0, 0, .rw, .live, 0⟩]⟩,  -- CTX5
  ⟨0x500030, [⟨47, 16, .rw, .locked, 0⟩, ⟨1, 1, .rw, .locked, 0⟩, ⟨0, 0, .rw, .live, 0⟩]⟩,  -- CTX6
  ⟨0x500038, [⟨47, 16, .rw, .locked, 0⟩, ⟨1, 1, .rw, .locked, 0⟩, ⟨0, 0, .rw, .live, 0⟩]⟩,  -- CTX7
  ⟨0x500040, [⟨47, 16, .rw, .locked, 0⟩, ⟨1, 1, .rw, .locked, 0⟩, ⟨0, 0, .rw, .live, 0⟩]⟩,  -- CTX8
  ⟨0x500048, [⟨47, 16, .rw, .locked, 0⟩, ⟨1, 1, .rw, .locked, 0⟩, ⟨0, 0, .rw, .live, 0⟩]⟩,  -- CTX9
  ⟨0x500050, [⟨47, 16, .rw, .locked, 0⟩, ⟨1, 1, .rw, .locked, 0⟩, ⟨0, 0, .rw, .live, 0⟩]⟩,  -- CTX10
  ⟨0x500058, [⟨47, 16, .rw, .locked, 0⟩, ⟨1, 1, .rw, .locked, 0⟩, ⟨0, 0, .rw, .live, 0⟩]⟩,  -- CTX11
  ⟨0x500060, [⟨47, 16, .rw, .locked, 0⟩, ⟨1, 1, .rw, .locked, 0⟩, ⟨0, 0, .rw, .live, 0⟩]⟩,  -- CTX12
  ⟨0x500068, [⟨47, 16, .rw, .locked, 0⟩, ⟨1, 1, .rw, .locked, 0⟩, ⟨0, 0, .rw, .live, 0⟩]⟩,  -- CTX13
  ⟨0x500070, [⟨47, 16, .rw, .locked, 0⟩, ⟨1, 1, .rw, .locked, 0⟩, ⟨0, 0, .rw, .live, 0⟩]⟩,  -- CTX14
  ⟨0x500078, [⟨47, 16, .rw, .locked, 0⟩, ⟨1, 1, .rw, .locked, 0⟩, ⟨0, 0, .rw, .live, 0⟩]⟩,  -- CTX15
  ⟨0x500080, [⟨15, 0, .rw, .live, 0⟩]⟩,  -- WINCTX
  ⟨0x500100, [⟨63, 0, .wo, .live, 0⟩]⟩,  -- INV.DB
  ⟨0x500108, [⟨9, 9, .ro, .live, 1⟩, ⟨8, 8, .w1c, .live, 0⟩, ⟨4, 0, .ro, .live, 0x10⟩]⟩,  -- INV.STAT
  ⟨0x500110, [⟨15, 0, .ro, .live, 0⟩]⟩,  -- INV.DONE
  ⟨0x500118, [⟨15, 0, .rw, .live, 0x100⟩]⟩,  -- INV.CTL
  ⟨0x500120, [⟨31, 16, .rw, .live, 0⟩, ⟨15, 0, .rw, .live, 0⟩]⟩,  -- INV.CNT
  ⟨0x500128, [⟨32, 32, .rw, .live, 0⟩, ⟨31, 16, .rw, .live, 0⟩, ⟨15, 0, .rw, .live, 0⟩]⟩]  -- TR.CNT

/-- Registers of one window entry (R233). -/
def winRegs : List RReg := [
  ⟨0x0, [⟨55, 44, .rw, .locked, 0⟩, ⟨43, 32, .rw, .locked, 0⟩, ⟨25, 16, .rw, .locked, 0⟩, ⟨8, 8, .rw, .locked, 0⟩, ⟨7, 4, .rw, .locked, 0⟩, ⟨3, 3, .rw, .locked, 0⟩, ⟨2, 2, .rw, .locked, 0⟩, ⟨1, 1, .rw, .locked, 0⟩, ⟨0, 0, .rw, .live, 0⟩]⟩,  -- WINw.CFG
  ⟨0x8, [⟨39, 25, .rw, .locked, 0⟩]⟩,  -- WINw.LOCAL
  ⟨0x10, [⟨32, 32, .ro, .live, 0⟩, ⟨31, 0, .rw, .live, 0⟩]⟩]  -- WINw.STAT

/-- Map and window drop registers (R23, R285). -/
def dieRegs : List RReg := [
  ⟨0x600000, [⟨0, 0, .rw, .locked, 0⟩]⟩,  -- MEM.MAP (R285)
  ⟨0xB00000, [⟨63, 0, .rw, .live, 0⟩]⟩,  -- WIN.DROP (R23)
  ⟨0xB00008, [⟨31, 0, .ro, .live, 0⟩]⟩]  -- WIN.DROPADDR

/-- Registers of one seam-link port (R308). -/
def portRegs : List RReg := [
  ⟨0x0, [⟨41, 32, .ro, .live, 0⟩, ⟨31, 29, .ro, .live, 0⟩, ⟨23, 16, .ro, .live, 0⟩, ⟨7, 4, .ro, .live, 0⟩, ⟨2, 0, .ro, .live, 0⟩]⟩,  -- SL.STAT
  ⟨0x8, [⟨23, 16, .rws, .staged, 0xFF⟩, ⟨15, 12, .rw, .live, 3⟩, ⟨11, 8, .rw, .live, 8⟩, ⟨1, 1, .wo, .live, 0⟩, ⟨0, 0, .rw, .live, 1⟩]⟩,  -- SL.CTL
  ⟨0x10, [⟨63, 0, .rw, .live, 0⟩]⟩,  -- SL.FECCORR
  ⟨0x18, [⟨63, 0, .rw, .live, 0⟩]⟩,  -- SL.FECUNC
  ⟨0x20, [⟨63, 0, .rw, .live, 0⟩]⟩,  -- SL.CRCERR
  ⟨0x28, [⟨63, 0, .rw, .live, 0⟩]⟩,  -- SL.REPLAY
  ⟨0x30, [⟨63, 0, .rw, .live, 0⟩]⟩,  -- SL.RETRAIN
  ⟨0x38, [⟨63, 0, .rw, .live, 0⟩]⟩,  -- SL.LANEDROP
  ⟨0x40, [⟨63, 0, .rw, .live, 0⟩]⟩,  -- SL.DOWN
  ⟨0x48, [⟨63, 0, .rw, .live, 0⟩]⟩,  -- SL.TXFLITS
  ⟨0x50, [⟨63, 0, .rw, .live, 0⟩]⟩]  -- SL.RXFLITS

/-- Transport registers (R309). -/
def seamRegs : List RReg := [
  ⟨0x740000, [⟨47, 40, .rw, .live, 0x10⟩, ⟨39, 32, .rw, .live, 4⟩, ⟨31, 16, .rw, .live, 0x32⟩, ⟨12, 8, .rw, .live, 0x10⟩]⟩,  -- SEAM.CTL
  ⟨0x740008, [⟨63, 0, .rw, .live, 0⟩]⟩,  -- SEAM.VCMAP
  ⟨0x740010, [⟨7, 0, .ro, .live, 0⟩]⟩,  -- SEAM.INCARN
  ⟨0x740100, [⟨63, 0, .rw, .live, 0⟩]⟩,  -- SEAM.E2ERETX
  ⟨0x740108, [⟨63, 0, .rw, .live, 0⟩]⟩,  -- SEAM.DUP
  ⟨0x740110, [⟨63, 0, .rw, .live, 0⟩]⟩,  -- SEAM.OOO
  ⟨0x740118, [⟨63, 0, .rw, .live, 0⟩]⟩,  -- SEAM.VOIDED
  ⟨0x740120, [⟨63, 0, .rw, .live, 0⟩]⟩,  -- SEAM.TTLEXP
  ⟨0x740128, [⟨63, 0, .rw, .live, 0⟩]⟩,  -- SEAM.NOROUTE
  ⟨0x740130, [⟨63, 0, .rw, .live, 0⟩]⟩,  -- SEAM.UNREACH
  ⟨0x740138, [⟨63, 0, .rw, .live, 0⟩]⟩,  -- SEAM.MALFORMED
  ⟨0x740200, [⟨41, 32, .rw, .locked, 0⟩, ⟨10, 0, .rw, .locked, 0⟩]⟩,  -- SEAM.BAR0
  ⟨0x740210, [⟨41, 32, .rw, .locked, 0⟩, ⟨10, 0, .rw, .locked, 0⟩]⟩,  -- SEAM.BAR1
  ⟨0x740220, [⟨41, 32, .rw, .locked, 0⟩, ⟨10, 0, .rw, .locked, 0⟩]⟩,  -- SEAM.BAR2
  ⟨0x740230, [⟨41, 32, .rw, .locked, 0⟩, ⟨10, 0, .rw, .locked, 0⟩]⟩]  -- SEAM.BAR3

/-- Wear-gauge and resole registers (R387). -/
def wearRegs : List RReg := [
  ⟨0x800000, [⟨9, 0, .ro, .live, 0⟩]⟩,  -- WG.RISK
  ⟨0x800008, [⟨49, 0, .ro, .live, 0⟩]⟩,  -- WG.SUB
  ⟨0x800010, [⟨38, 38, .ro, .live, 0⟩, ⟨37, 30, .rw, .live, 0⟩, ⟨29, 20, .rw, .live, 0x3FF⟩, ⟨19, 10, .rw, .live, 0x32⟩, ⟨9, 0, .rw, .live, 0x3FF⟩]⟩,  -- WG.CFG
  ⟨0x800020, [⟨63, 32, .rw, .live, 100000⟩, ⟨31, 0, .rw, .live, 100⟩]⟩,  -- WG.LIM0
  ⟨0x800028, [⟨63, 32, .rw, .live, 10000⟩, ⟨31, 0, .rw, .live, 10⟩]⟩,  -- WG.LIM1
  ⟨0x800030, [⟨63, 32, .rw, .live, 105⟩, ⟨31, 0, .rw, .live, 85⟩]⟩,  -- WG.LIM2
  ⟨0x800038, [⟨63, 32, .rw, .live, 1000⟩, ⟨31, 0, .rw, .live, 1⟩]⟩,  -- WG.LIM3
  ⟨0x800040, [⟨63, 32, .rw, .live, 5⟩, ⟨31, 0, .rw, .live, 50⟩]⟩,  -- WG.LIM4
  ⟨0x800060, [⟨31, 0, .ro, .live, 0⟩]⟩,  -- WG.IN0
  ⟨0x800068, [⟨31, 0, .ro, .live, 0⟩]⟩,  -- WG.IN1
  ⟨0x800070, [⟨31, 0, .ro, .live, 0⟩]⟩,  -- WG.IN2
  ⟨0x800078, [⟨31, 0, .ro, .live, 0⟩]⟩,  -- WG.IN3
  ⟨0x800080, [⟨31, 0, .ro, .live, 0⟩]⟩,  -- WG.IN4
  ⟨0x800100, [⟨25, 16, .ro, .live, 0⟩, ⟨7, 6, .ro, .live, 0⟩, ⟨5, 5, .ro, .live, 0⟩, ⟨4, 4, .ro, .live, 0⟩, ⟨3, 3, .ro, .live, 0⟩, ⟨2, 2, .ro, .live, 0⟩, ⟨1, 1, .ro, .live, 0⟩, ⟨0, 0, .ro, .live, 0⟩]⟩,  -- RS.STAT
  ⟨0x800108, [⟨63, 0, .ro, .live, 0⟩]⟩,  -- RS.STEP
  ⟨0x800110, [⟨63, 48, .rw, .live, 0⟩, ⟨47, 32, .rw, .live, 0⟩, ⟨31, 16, .rw, .live, 0⟩, ⟨15, 0, .rw, .live, 0⟩]⟩,  -- RS.CNT
  ⟨0x800118, [⟨63, 0, .rw, .live, 0⟩]⟩,  -- RS.REALIGN
  ⟨0x800120, [⟨16, 16, .rw, .live, 0⟩, ⟨15, 0, .rw, .live, 0⟩]⟩]  -- RS.CNT2

/-- Trust registers (R408). -/
def secRegs : List RReg := [
  ⟨0x900000, [⟨39, 32, .ro, .live, 0⟩, ⟨31, 24, .ro, .live, 0⟩, ⟨7, 7, .ro, .live, 0⟩, ⟨6, 6, .ro, .live, 0⟩, ⟨5, 5, .ro, .live, 0⟩, ⟨4, 4, .ro, .live, 1⟩, ⟨3, 2, .ro, .live, 0⟩, ⟨1, 0, .ro, .live, 0⟩]⟩,  -- SEC.STAT
  ⟨0x900008, [⟨9, 8, .ro, .live, 0⟩, ⟨7, 7, .ro, .live, 0⟩, ⟨6, 6, .ro, .live, 0⟩, ⟨5, 4, .ro, .live, 0⟩, ⟨3, 0, .ro, .live, 0⟩]⟩,  -- SEC.FUSE
  ⟨0x900010, [⟨63, 0, .ro, .live, 0⟩]⟩,  -- SEC.DEVID0
  ⟨0x900018, [⟨63, 0, .ro, .live, 0⟩]⟩,  -- SEC.DEVID1
  ⟨0x900020, [⟨63, 0, .ro, .live, 0⟩]⟩,  -- SEC.DEVID2
  ⟨0x900028, [⟨63, 0, .ro, .live, 0⟩]⟩,  -- SEC.DEVID3
  ⟨0x900030, [⟨47, 32, .rw, .live, 0⟩, ⟨31, 16, .rw, .live, 0⟩, ⟨15, 0, .rw, .live, 0⟩]⟩]  -- SEC.CNT

/-- Power and pad registers (R434). -/
def pwrRegs : List RReg := [
  ⟨0xA00000, [⟨42, 32, .ro, .live, 0⟩, ⟨23, 16, .ro, .live, 0⟩, ⟨11, 8, .ro, .live, 0⟩, ⟨7, 5, .ro, .live, 0⟩, ⟨4, 4, .ro, .live, 0⟩, ⟨1, 0, .ro, .live, 0⟩]⟩,  -- PWR.STAT
  ⟨0xA00008, [⟨2, 0, .rw, .live, 0⟩]⟩,  -- PWR.CTL
  ⟨0xA00010, [⟨47, 32, .rw, .live, 0⟩, ⟨31, 16, .rw, .live, 0⟩, ⟨15, 0, .rw, .live, 0⟩]⟩,  -- PWR.CNT
  ⟨0xA00018, [⟨5, 4, .rw, .live, 0⟩, ⟨3, 2, .rw, .live, 0⟩, ⟨1, 0, .rw, .live, 0⟩]⟩]  -- PAD.CTL

/-- CXL port registers (R257, R365). -/
def cxlRegs : List RReg := [
  ⟨0x0, [⟨12, 12, .ro, .live, 0⟩, ⟨11, 11, .ro, .live, 0⟩, ⟨10, 8, .ro, .live, 0⟩, ⟨7, 4, .ro, .live, 0⟩, ⟨2, 0, .ro, .live, 0⟩]⟩,  -- CXL.STAT
  ⟨0x8, [⟨63, 0, .rw, .live, 0⟩]⟩,  -- CXL.BISNP
  ⟨0x10, [⟨63, 0, .rw, .live, 0⟩]⟩,  -- CXL.BICONFL
  ⟨0x18, [⟨63, 0, .rw, .live, 0⟩]⟩,  -- CXL.WLOST
  ⟨0x30000, [⟨14, 0, .ro, .live, 0⟩]⟩,  -- HT.STAT (R257)
  ⟨0x30008, [⟨63, 0, .rw, .live, 0⟩]⟩]  -- HT.EVICT

/-- Cretas registers in BAR0 (R328). -/
def barRegs : List RReg := [
  ⟨0x0, [⟨31, 16, .ro, .live, 0x8640⟩, ⟨15, 8, .ro, .live, 0xB1⟩, ⟨7, 0, .ro, .live, 0x31⟩]⟩,  -- CR.ID
  ⟨0x8, [⟨19, 19, .ro, .live, 1⟩, ⟨18, 18, .ro, .live, 0⟩, ⟨17, 16, .ro, .live, 0⟩, ⟨15, 0, .ro, .live, 0⟩]⟩,  -- CR.STAT
  ⟨0x10, [⟨63, 0, .ro, .live, 0⟩]⟩,  -- CR.COMMITSEQ
  ⟨0x18, [⟨12, 0, .ro, .live, 0x1000⟩]⟩,  -- CR.JOURNAL
  ⟨0x20, [⟨48, 48, .rw, .live, 0⟩, ⟨47, 32, .rw, .live, 0⟩, ⟨31, 16, .rw, .live, 0⟩, ⟨15, 0, .rw, .live, 0⟩]⟩,  -- CR.CNT
  ⟨0x2000, [⟨63, 6, .rw, .locked, 0⟩, ⟨0, 0, .rw, .locked, 0⟩]⟩,  -- FR.BASE
  ⟨0x2008, [⟨15, 8, .rw, .live, 0⟩, ⟨0, 0, .rw, .live, 0⟩]⟩,  -- FR.CTL
  ⟨0x2010, [⟨31, 0, .rw, .live, 0⟩]⟩,  -- FR.HEAD
  ⟨0x2018, [⟨31, 0, .ro, .live, 0⟩]⟩,  -- FR.TAIL
  ⟨0x2020, [⟨63, 0, .rw, .live, 0⟩]⟩,  -- FR.HELD
  ⟨0x2040, [⟨63, 6, .rw, .locked, 0⟩, ⟨0, 0, .rw, .locked, 0⟩]⟩,  -- ER.BASE
  ⟨0x2048, [⟨15, 8, .rw, .live, 0⟩, ⟨7, 4, .rw, .locked, 8⟩, ⟨0, 0, .rw, .live, 0⟩]⟩,  -- ER.CTL
  ⟨0x2050, [⟨31, 0, .rw, .live, 0⟩]⟩,  -- ER.HEAD
  ⟨0x2058, [⟨31, 0, .ro, .live, 0⟩]⟩,  -- ER.TAIL
  ⟨0x2060, [⟨63, 0, .rw, .live, 0⟩]⟩,  -- ER.LOST
  ⟨0x3000, [⟨63, 0, .wo, .live, 0⟩]⟩]  -- INV.DB

/-- Registers of one command queue (R328). -/
def queueRegs : List RReg := [
  ⟨0x0, [⟨63, 6, .rw, .locked, 0⟩, ⟨0, 0, .rw, .locked, 0⟩]⟩,  -- Qq.BASE
  ⟨0x8, [⟨63, 6, .rw, .locked, 0⟩, ⟨0, 0, .rw, .locked, 0⟩]⟩,  -- Qq.CQBASE
  ⟨0x10, [⟨31, 19, .rws, .staged, 0x100⟩, ⟨15, 8, .rw, .live, 0⟩, ⟨7, 4, .rw, .locked, 4⟩, ⟨0, 0, .rw, .live, 0⟩]⟩,  -- Qq.CTL
  ⟨0x18, [⟨31, 0, .rw, .live, 0⟩]⟩,  -- Qq.TAIL
  ⟨0x20, [⟨31, 0, .ro, .live, 0⟩]⟩,  -- Qq.HEAD
  ⟨0x28, [⟨31, 0, .rw, .live, 0⟩]⟩,  -- Qq.CQHEAD
  ⟨0x30, [⟨31, 0, .ro, .live, 0⟩]⟩,  -- Qq.CQTAIL
  ⟨0x38, [⟨48, 48, .rw, .live, 0⟩, ⟨47, 32, .rw, .live, 0⟩, ⟨31, 0, .rw, .live, 0⟩]⟩]  -- Qq.CNT

/-- Registers in configuration space (R355), by offset within the DVSEC. -/
def dvsecRegs : List RReg := [
  ⟨0xC, [⟨23, 16, .ro, .live, 0x31⟩, ⟨15, 8, .ro, .live, 0xB1⟩, ⟨7, 6, .ro, .live, 0⟩, ⟨3, 0, .ro, .live, 0⟩]⟩,  -- TNM.STAT
  ⟨0x10, [⟨16, 16, .ro, .live, 0⟩, ⟨15, 14, .ro, .live, 0⟩, ⟨13, 10, .ro, .live, 0⟩, ⟨9, 0, .ro, .live, 0⟩]⟩,  -- TNM.BOARD
  ⟨0x14, [⟨15, 0, .rw, .live, 0x64⟩]⟩,  -- TNM.CTL
  ⟨0x18, [⟨31, 16, .rw, .live, 0⟩, ⟨15, 0, .rw, .live, 0⟩]⟩]  -- TNM.RECOV

/-- The function's identity (R351) where the PCI Express header has it (PRESUMED, log 19): Device ID and Vendor ID; class code and
Revision ID. -/
def configRegs : List RReg := [
  ⟨0x0, [⟨31, 16, .ro, .live, 0x8640⟩, ⟨15, 0, .ro, .live, 0x1F7A⟩]⟩,
  ⟨0x8, [⟨31, 8, .ro, .live, 0x120000⟩, ⟨7, 0, .ro, .live, 0xB1⟩]⟩]

/-- A DVSEC capability (R354): its owner, its ID and the facts that it shows, by the spec's names for them. -/
structure DvsecCap where
  tonumund : Bool
  id : BitVec 16
  shows : List (String × Nat)

/-- R349, R354, R357: the DVSEC capabilities of configuration space. -/
def dvsecCaps : List DvsecCap := [
  ⟨false, 0, [("Cache_Capable", 1), ("Mem_Capable", 1), ("HDM_Count", 1), ("Range 1 size", 0xA000000000), ("Range 2 size", 0),
    ("Memory_Active_Timeout, s", 4), ("CXL Reset", 0), ("Function-level reset", 0)]⟩,
  ⟨false, 7, [("Cache", 1), ("Mem", 1), ("256-byte flit", 1)]⟩,
  ⟨false, 8, [("entries", 1), ("component registers: BAR", 4), ("component registers: offset", 0)]⟩,
  ⟨true, 1, [("vendor", 0x1F7A)]⟩]

/-- The registers of a core's block but the capability words. -/
def coreRegs : List RReg := regsNum ++ regsMx ++ regsAcc ++ regsVx ++ regsSc ++ regsEx ++ regsTx ++ regsTr ++ regsL1

def coreReset : Nat → W64 := tableReset coreRegs
def clusterReset : Nat → W64 := tableReset clusterRegs

/-- The table entry of a region register: channel p's registers lie from 0x0008_0000 + 0x1000 × p up (R287). -/
def regionReg (off : Nat) : Option RReg :=
  if 0x80000 ≤ off ∧ off < 0x91000 then findReg chanRegs (off % 0x1000) else findReg regionRegs off

def regionReset (off : Nat) : W64 :=
  match regionReg off with
  | some r => BitVec.ofNat 64 r.reset
  | none => 0

/-- The table entry of a die register (R21): window entries (R233), ports (R308) and the tables of the other chapters. -/
def dieReg (off : Nat) : Option RReg :=
  if 0x501000 ≤ off ∧ off < 0x501800 then findReg winRegs (off % 0x20)
  else if 0x700000 ≤ off ∧ off < 0x730000 then findReg portRegs (off % 0x10000)
  else if 0x740000 ≤ off ∧ off < 0x750000 then findReg seamRegs off
  else if 0x750000 ≤ off ∧ off < 0x752000 then
    (if off % 8 = 0 then some ⟨off, [⟨2, 0, .rw, .live, 0⟩, ⟨3, 3, .rw, .live, 0⟩, ⟨6, 4, .rw, .live, 0⟩, ⟨7, 7, .rw, .live, 0⟩]⟩ else none)
  else if off < 0x500000 then findReg pressRegs off
  else if off < 0x600000 then findReg transRegs off
  else if off < 0x700000 then findReg dieRegs off
  else if off < 0x900000 then findReg wearRegs off
  else if off < 0xA00000 then findReg secRegs off
  else if off < 0xB00000 then findReg pwrRegs off
  else findReg dieRegs off

def dieReset (off : Nat) : W64 :=
  match dieReg off with
  | some r => BitVec.ofNat 64 r.reset
  | none => 0

def cxlReset : Nat → W64 := tableReset cxlRegs

/-- The table entry of a BAR0 register (R328): queues from 0x1000 up, mailbox control words. -/
def barReg (off : Nat) : Option RReg :=
  if 0x1000 ≤ off ∧ off < 0x1800 then findReg queueRegs (off % 0x80)
  else if 0x100 ≤ off ∧ off < 0x900 then
    (if off % 0x100 = 0x80 then some ⟨off, [⟨2, 2, .w1c, .live, 0⟩, ⟨1, 1, .ro, .live, 0⟩, ⟨0, 0, .wo, .live, 0⟩]⟩ else none)
  else findReg barRegs off

def barReset (off : Nat) : W64 :=
  match barReg off with
  | some r => BitVec.ofNat 64 r.reset
  | none => 0

end Sys2Proof.Machine
end

