-- ==== Sys2Proof/Machine/State.lean ====
section
/-! DEFINITION. The state of the package as plain data: every register, memory, queue and mode that the spec gives it, the
queue of waiting commands, and the state right after package reset. -/

namespace Sys2Proof.Machine

/-! ## The core (chapters 06, 07) -/

/-- A capability register: 128 bits and the tag outside them (R155). -/
structure Cap where
  bits : BitVec 128 := 0
  tag  : Bool := false
deriving DecidableEq, Repr

/-- What the scalar processor is doing (R153, R15). -/
inductive Run where
  | idle | running | halted | inReset
deriving DecidableEq, Repr

/-- Why a bundle is held (R141, R144, and the chapters of the units); stopFull is an mx.stop for which the matrix queue has no room yet
(R72). -/
inductive Held where
  | scoreboard | queueFull | storeBufFull | overlap | divide | fence | idle | eret | walk
  | tqEmpty | mxWait (tile : Nat) | vxSync | txWait | prWait | prSync | prArrive | mgWait | mgSlot | txFull | fold | stop | stopFull
deriving DecidableEq, Repr

/-- A held bundle: why, the syllable that holds it, that syllable's slot, the bundle's length, whether the bundle also
removes a tile-queue entry (R81, R123), and what it read of MLO and MHI in D where it is held in M (R132, R148). -/
structure HeldAt where
  why  : Held
  syl  : W32
  slot : Nat
  len  : Nat
  pop  : Bool
  prod : Option (W64 × W64) := none
deriving DecidableEq, Repr

/-- An exception due at the next bundle boundary (R166): class 0 a fault of the bundle, class 1 a system call. -/
structure Exc where
  cls  : Nat
  code : BitVec 16
  addr : W64 := 0
  syl  : W32 := 0
  slot : Nat := 0
  len  : Nat := 0
deriving DecidableEq, Repr

/-- The space an address lies in: the core's own tile memory, the package map of R16, host memory over CXL.cache. -/
inductive Space where
  | tile | pa | host
deriving DecidableEq, Repr

/-- One byte's place. -/
structure SAddr where
  sp : Space
  a  : Nat
deriving DecidableEq, Repr

/-- A load whose data have not arrived (R142). keepTag: an ld.c through a capability with LDC. -/
structure LateLoad where
  toCap : Bool
  reg   : BitVec 6
  size  : Nat
  sx    : Bool
  keepTag : Bool
  bytes : List SAddr
  ctx   : BitVec 4
  nc    : Bool
  va    : W64
  inv   : BitVec 2 := 0       -- the invalidations that wait for it (R223 step 3): bit 0 the doorbell's, bit 1 TRINV's
  need  : Nat := 0            -- parts that another package has yet to answer (R300)
  got   : List (Nat × List Byte) := []   -- answered parts, by their offset in the load
  pois  : Bool := false
deriving DecidableEq, Repr

/-- One entry of the store buffer (R143). cap: the tag an st.c stores. -/
structure StoreE where
  bytes : List (SAddr × Byte)
  ctx   : BitVec 4
  nc    : Bool
  cap   : Option Bool := none
  va    : W64
  inv   : BitVec 2 := 0
deriving DecidableEq, Repr

/-- A product or quotient on its way to MHI:MLO (R147, R148). -/
structure Product where
  lo : W64
  hi : W64
  divide : Bool
deriving DecidableEq, Repr

/-- A bundle in the prefetch queue (R139): its address and its syllables. -/
structure Fetched where
  addr : W64
  syls : List W32
deriving DecidableEq, Repr

/-! ## The vector engine (chapter 05) -/

/-- A conversion of the stage sequencer (R195): elements of the input slots into the output slots, memory to memory. -/
structure SeqV where
  s    : Nat
  stage : Nat
  f1   : BitVec 4
  f2   : BitVec 4
  rnd  : BitVec 2
  g    : Bool
  n    : Nat            -- elements of each input item
  ins  : List Nat
  outs : List Nat
  esc  : Option (Nat × Nat) := none   -- the escape slot and its size, where items go on to the spill ring
deriving DecidableEq, Repr

/-- What a vector instruction takes at its start (R54, R124): the default rounding, SAT, SCALEFIT and the slice count. -/
structure VCtl where
  rnd : BitVec 2
  sat : Bool
  fit : Bool
  slices : Nat
deriving DecidableEq, Repr

/-- An instruction in the vector queue (R112): its captured VL and general registers, the hem counter its use begins at (drew: it
has taken its draws), the checked tile-memory offset, the beats already finished (R128), what it took at its start if it has
started, and whether it has counted poison (R126). -/
structure VEntry where
  instr : Instr
  vl    : Nat
  hem   : W64
  x     : W64
  y     : W64
  beats : Nat
  drew  : Bool
  ctl   : Option VCtl := none
  pois  : Bool := false
  done  : Bool        -- its vector result is written and only its general register is due
  gval  : W64
  syl   : W32 := 0
  ext   : W32 := 0
  seq   : Option SeqV := none
deriving DecidableEq, Repr

/-! ## The matrix arrays and exact accumulation (chapters 03, 04) -/

/-- An operand descriptor (R69, R179). -/
structure OpDesc where
  fmt : BitVec 4
  nblkM1 : BitVec 12
  panel : BitVec 23
  astride : BitVec 23
  scale : BitVec 23
  sstride : BitVec 23
deriving DecidableEq, Repr

/-- The slice fields of mx.accs (R101). -/
structure Slice where
  i : Nat
  j : Nat
  fe : Bool
deriving DecidableEq, Repr

/-- What a matrix operation does (R68). -/
inductive MOp where
  | mopen (desc : BitVec 256) (off : W64)
  | acc (a b : OpDesc) (sl : Option Slice) (blk : Nat)
  | close
deriving DecidableEq, Repr

/-- An operation of the matrix queue (R72): its syllable, its place in issue order, the arrays it still has to start on, and
the slot; of a running accumulate with FE = 1, the anchors that its fold will set, found with the last K-block's slabs (R91, R92). -/
structure MqE where
  syl  : W32 := 0
  src  : Option (Nat × Nat) := none     -- a stage of a fused command issued it (R195)
  sq   : Nat
  m    : BitVec 4
  t    : Fin 2
  op   : MOp
  anchors : List (Fin 4 × BitVec 10) := []
deriving DecidableEq, Repr

/-- The state of a tile slot (R65). -/
inductive SlotSt where
  | free | opened | closing | qwait
deriving DecidableEq, Repr

/-- A tile slot of an array (R65, R66, R89, R99). -/
structure Tile where
  st     : SlotSt := .free
  desc   : BitVec 256 := 0
  base   : BitVec 10 := 0
  baseSet : Bool := false
  anchor : BitVec 10 := 0
  anchSet : Bool := false
  weltValid : Bool := false
  folds  : Nat := 0
  blocks : Nat := 0
  flags  : BitVec 4 := 0
  poison : BitVec 32 := 0
  cells  : SMap (BitVec 128) := []
deriving DecidableEq, Repr

/-- The shadow of an array (R93): captured cells, where their welt lies, and what the merge does. -/
structure Shadow where
  t     : Fin 2
  welt  : Nat
  rows  : Nat
  cols  : Nat
  base  : Int
  anchor : Int
  first : Bool
  cells : SMap (BitVec 128)
  slabs : SMap (BitVec 128)   -- a Wide block's slabs, added directly (R91): sums in units of 2^slabQ(cell)
  slabE : SMap (BitVec 16)    -- their weight exponents, two's complement
  tags  : SMap (BitVec 6)     -- the special tags that the Wide block's slabs raise
deriving DecidableEq, Repr

/-- A job of the fold engine (R93, R104, R125). -/
inductive FeJob where
  | merge (a : Fin 4)
  | welt
deriving DecidableEq, Repr

/-- A close in progress on an array (R76): the numeric controls and the hem counter it took at its start. -/
structure CloseRun where
  t    : Fin 2
  rnd  : BitVec 2
  sat  : Bool
  fit  : Bool
  hem  : W64
  src  : Option (Nat × Nat) := none
deriving DecidableEq, Repr

/-- An entry of the tile queue (R79). -/
structure TqE where
  hdr  : List Byte
  data : List Byte
deriving DecidableEq, Repr

/-- A close in Queue wait (R80). -/
structure QWait where
  a : Fin 4
  t : Fin 2
  e : TqE
  status : W64
deriving DecidableEq, Repr

/-! ## Translation (chapter 09) -/

/-- An entry of a translation buffer (R219): a page of 2^sh bytes. -/
structure TlbE where
  ctx : BitVec 4
  sh  : Nat
  vpn : Nat
  base : Nat
  w   : Bool
  x   : Bool
  nc  : Bool
  host : Bool
deriving DecidableEq, Repr

/-- A pointer entry of the walk cache (R219): the table that entries of level lv + 1 come from. -/
structure WalkC where
  ctx : BitVec 4
  lv  : Nat
  vpn : Nat
  tbl : Nat
deriving DecidableEq, Repr

/-- A page walk in progress, or waiting for a walker (R219). stale: an invalidation matched it. -/
structure Walk where
  ctx : BitVec 4
  va  : W64
  acc : Acc
  stale : Bool
deriving DecidableEq, Repr

/-- An invalidation at one unit (R223): the range, and whether the doorbell or TRINV asked. -/
structure InvReq where
  req : W64
  doorbell : Bool
deriving DecidableEq, Repr

/-! ## Caches and coherence (chapter 10) -/

/-- A line's contents: data, a tag and a poison bit per 16 bytes (R159, R234). -/
structure LData where
  data : BitVec 512 := 0
  tags : BitVec 4 := 0
  poison : BitVec 4 := 0
deriving DecidableEq, Repr

/-- The states of an L2 line that is held (R239); I is absence. -/
inductive LSt where
  | s | e | m | o
deriving DecidableEq, Repr

/-- A line of an L1 or of the basket. key: the line's number, host lines from 2^58 up. -/
structure L1Line where
  key : Nat
  d   : LData
deriving DecidableEq, Repr

/-- A line of an L2 (R239). hold: within the 32 F-cycles of R245. -/
structure L2Line where
  key : Nat
  st  : LSt
  scalar : Bool
  d   : LData
  hold : Bool
deriving DecidableEq, Repr

/-- The two kinds of hamper entry (R240). none as state: the entry became I (R247). -/
inductive HamKind where
  | victim | writeback | offer
deriving DecidableEq, Repr

structure HamE where
  key  : Nat
  kind : HamKind
  st   : Option LSt
  scalar : Bool
  d    : LData
  stale : Bool
deriving DecidableEq, Repr

/-- The kinds of coherence request that wait for their snoop (R243). -/
inductive ReqKind where
  | readOwn | upgrade | writeInv | read | readCur
deriving DecidableEq, Repr

/-- A coherence request under way (R243, R244): retry, its retries so far, whether the home reserves the line for it, a WriteInv's bytes,
and the kind of a Read's line. -/
structure CohReq where
  kind : ReqKind
  key  : Nat
  retry : Bool
  tries : Nat
  hostFill : LData
  mask : BitVec 64
  data : BitVec 512
  poison : Bool
  resv : Bool := false
  scalar : Bool := false
  bad  : Bool := false
deriving DecidableEq, Repr

/-- A snoop deferred by a hold window (R245): 0 Read, 1 ReadOwn or Upgrade, 2 WriteInv. -/
structure Deferred where
  cl  : ClusterId
  key : Nat
  kind : Nat
  scalar : Bool := false
  bad : Bool := false
deriving DecidableEq, Repr

/-- A writeback or an offer on its way to its home (R240, R247, R248). -/
structure Move where
  cl   : ClusterId
  key  : Nat
  offer : Bool
  stale : Bool
  d    : LData
deriving DecidableEq, Repr

/-- A line of a region cache (R241). used: hit since it was installed. -/
structure RcLine where
  key : Nat
  dirty : Bool
  used : Bool
  d   : LData
deriving DecidableEq, Repr

/-! ## Transfers, fused stages, the mangle ring and the press (chapter 08) -/

/-- A last as tx.last or tx.fuse captured it (R183, R184): op 0 copies; the spaces are those of R183; sctx and dctx are the contexts
of its capabilities. -/
structure Last where
  off  : Nat
  esz  : Nat
  counts : List Nat
  strides : List Int
  scatter : Bool
  irq  : Bool
  bulk : Bool
  prio : Bool
  srcSp : Nat
  dstSp : Nat
  op   : Nat
  tag  : BitVec 16
  src  : Nat
  dst  : Nat
  resume : Nat
  sctx : BitVec 4
  dctx : BitVec 4
deriving DecidableEq, Repr

/-- A firing of a stage that has not been completed: its output slots, none for one staged in the escape slot (R191, R194). -/
structure Firing where
  outs : List (Option Nat)
  done : Bool
deriving DecidableEq, Repr

/-- The kinds of stage (R190). -/
inductive StageKind where
  | load | store | cvt | mx | prog
deriving DecidableEq, Repr

/-- A stage of a running fused command (R190, R191). ended: closes ended per array. fin: its END or ABORT is placed. -/
structure StageS where
  kind : StageKind
  outRate : Nat
  inRate : List Nat
  firings : Nat
  body : BitVec 384
  child : Option Nat := none
  fired : Nat := 0
  completed : Nat := 0
  flight : List Firing := []
  ended : List Nat := [0, 0, 0, 0]
  aborted : Bool := false
  fin  : Bool := false
  tdesc : BitVec 256 := 0
  adesc : Option OpDesc := none
  bdesc : Option OpDesc := none
deriving DecidableEq, Repr

/-- An edge of a running fused command (R190, R193, R194). Its ordinary slots are used in turn: from rd, taken by the consumer's
firings, then full, then being filled. staged: items that await the spill ring, in the escape slot or (stash) converted there one after another; due: those
of them that are complete. ring: spilled items, by their offset. -/
structure EdgeS where
  prod : Nat
  cons : Nat
  port : Nat
  spill : Bool
  slots : Nat
  size : Nat
  base : Nat
  rd   : Nat := 0
  taken : Nat := 0
  full : Nat := 0
  resv : Nat := 0
  staged : Nat := 0
  due : Nat := 0
  stash : List (List Byte × Bool) := []
  ring : List Nat := []
  marker : Option Bool := none   -- END, or ABORT (true)
deriving DecidableEq, Repr

/-- A fused command at work (R190). -/
structure Fused where
  irq  : Bool
  tag  : BitVec 16
  spillVa : Nat
  spillBytes : Nat
  spillCtx : BitVec 4
  stages : List StageS
  edges : List EdgeS
deriving DecidableEq, Repr

/-- What a stream does (R189, R198, R200). halting: it waits for its issued requests; aborting likewise. -/
inductive StSt where
  | running | halting | halted | aborting | ended
deriving DecidableEq, Repr

/-- A stream context (R189). issued and limit count bytes of its source; landed: byte ranges delivered; items: for a stage of a
fused command, the tile offsets of its slots from item number item0 on. -/
structure Stream where
  gen  : Nat
  st   : StSt := .running
  aborted : Bool := false
  free : Bool := false
  syl  : W32 := 0
  last : Option Last := none
  fused : Option Fused := none
  parent : Option (Nat × Nat) := none
  itemBytes : Nat := 0
  items : List Nat := []
  item0 : Nat := 0
  issued : Nat := 0
  limit : Nat := 0
  landed : List (Nat × Nat) := []
  code : BitVec 16 := 0
  va   : W64 := 0
  pos  : Nat := 0
  wrote : Bool := false
deriving DecidableEq, Repr

/-- A request of the transfer engine that holds a tag (R185). units: where each byte, or each element of an accumulate, comes from
and goes to; data: its source bytes with their poison, once read; msg: it waits for another package. -/
structure TxReq where
  tag  : Nat
  s    : Nat
  gen  : Nat
  e0   : Nat
  n    : Nat
  unit : Nat
  op   : Nat
  units : List (SAddr × SAddr)
  data : Option (List (Byte × Bool))
  bulk : Bool
  crit : Bool
  nc   : Bool
  sctx : BitVec 4
  dctx : BitVec 4
  vas  : List (BitVec 4 × Nat)
  msg  : Bool := false
  inv  : BitVec 2 := 0
  acked : Nat := 0       -- bytes that controllers have acknowledged (R267)
deriving DecidableEq, Repr

/-- A post or a rotation of the mangle ring (R202). -/
structure MgOp where
  area : Nat
  len  : Nat
  span : Nat
  started : Bool := false
  held : Bool := false
  ended : Bool := false
  code : BitVec 16 := 0
deriving DecidableEq, Repr

/-- A core's arrival on a press channel (R205, R206): waits are the streams that a DRAIN arrival waits for. -/
structure PrCh where
  pending : Bool := false
  entered : Bool := false
  drain : Bool := false
  waits : List Nat := []
  bySync : Bool := false
deriving DecidableEq, Repr

/-! ## Memory stacks and controllers (chapter 11) -/

/-- An entry of a controller's queue (R265, R266). -/
structure McE where
  req  : MReq
  cls  : Nat
  aged : Bool
  lch  : Nat
  off  : Nat         -- in-channel address
  done : Nat         -- bytes already served
  ecc  : List Ecc := []    -- what the check of a rinse read's blocks finds (R271)
deriving DecidableEq, Repr

/-- The service state of a physical channel (R287). -/
inductive Svc where
  | inService | retraining | spare | dead
deriving DecidableEq, Repr

/-- A soak run (R283). -/
structure SoakRun where
  restore : Bool       -- the channel is in service and must be zeroed before it returns (R284)
deriving DecidableEq, Repr

/-- A physical channel and its controller. -/
structure Chan where
  svc   : Svc := .inService
  was   : Svc := .inService     -- what it returns to after a retraining
  queue : List McE := []
  due   : Bool := false
  fails : Nat := 0
  fill  : Option Nat := none    -- a poison fill runs: in-channel address it began at
  fillRec : Bool := false       -- it follows a death during a patch's copy: its end posts 0x8042 (R278)
  fixes : List Nat := []        -- addresses of blocks whose write-back waits for an entry (R268, R271)
  ceSecond : Nat := 0
  ceRaised : Bool := false
  ceBase : Nat := 0             -- MC.CE when that second began
  drainWr : Bool := false       -- rule 3 of R266 is serving class 2
  rows  : SMap Nat := []        -- the row open in each bank, plus 1 (R260)
  soak  : Option SoakRun := none
deriving DecidableEq, Repr

/-- The patch machinery of a stack (R275). -/
structure Patch where
  state : Nat := 0
  lch   : Nat := 0
  done  : Nat := 0
  old   : Nat := 0
  ticket : Option Nat := none
  got   : Nat := 0       -- bursts of the granule being copied that the copier has taken (R277)
  slots : Nat := 0       -- burst slots of the old channel in this round of 16
  given : Nat := 0       -- of these, the copier's
deriving DecidableEq, Repr

/-- A stack's remap table as the always-on domain keeps it (R264). -/
structure RemapCopy where
  remap : Vector (Fin 17) 16 := .ofFn (fun i => ⟨i.val, by omega⟩)
  spare : Fin 17 := 16
  spareBad : Bool := false
deriving DecidableEq, Repr

/-! ## Seam links (chapter 12) -/

/-- The state of a port (R291). -/
inductive PortSt where
  | disabled | detect | train | config | active | retrain | down
deriving DecidableEq, Repr

/-- A message that waits at a port: its source when another port brought it (R298), and whether this package keeps it for a
resend (R304). -/
structure OutMsg where
  opc  : BitVec 8
  m    : Msg
  src  : Option PortId := none
  kept : Bool := false
deriving DecidableEq, Repr

/-- A seam-link port (R289 to R296). lanes: those in use; left: those that caused the present Retrain; mask: LANEMASK as the last
training took it. credits: units of each VC that the next receiver has room for; owed: units to return to it. -/
structure Port where
  st    : PortSt := .disabled
  width : Nat := 0
  good  : BitVec 8 := 0
  lanes : BitVec 8 := 0
  left  : BitVec 8 := 0
  mask  : BitVec 8 := 0xFF
  npos  : BitVec 10 := 0
  nport : BitVec 3 := 0
  fails : Nat := 0
  lseq  : Nat := 0
  replay : List (Nat × List Byte) := []
  replays : Nat := 0
  expect : Nat := 0
  ackv  : Bool := false
  discard : Bool := false
  nakDue : Bool := false
  credits : Vector Nat 16 := .replicate 16 0
  owed  : Vector Nat 16 := .replicate 16 0
  cfgGood : Nat := 0
  cfgLast : List Byte := []
  selfLoop : Bool := false
  cfgSent : List Byte := []     -- the payload of the CONFIG flits that this port sends (R292)
  out   : List OutMsg := []
deriving DecidableEq, Repr

/-- Who waits for the answer to a message: a transfer engine's tag, a part of a scalar load (by its offset), a scalar store, a
Cretas command by its journal slot, the replication. -/
inductive Asker where
  | tx (c : CoreId) (tag : Nat)
  | load (c : CoreId) (toCap : Bool) (reg : BitVec 6) (off : Nat)
  | store (c : CoreId) (ctx : BitVec 4) (va n : Nat) (inv : BitVec 2)
  | cmd (j : Nat)
  | repl
  | nobody
deriving DecidableEq, Repr

/-- A message not yet acknowledged (R304). tries: counted resends; noted: 0x9053 is posted. -/
structure Sent where
  opc  : BitVec 8
  m    : Msg
  who  : Asker
  tries : Nat := 0
  noted : Bool := false
deriving DecidableEq, Repr

/-- A sender's channel (R301). -/
structure SendCh where
  dst  : BitVec 10
  vc   : BitVec 4
  next : BitVec 32 := 0
  unacked : List Sent := []
deriving DecidableEq, Repr

/-- An entry of the sequence table (R302), with what R303 counts. -/
structure RecvCh where
  src  : BitVec 10
  vc   : BitVec 4
  incarn : BitVec 8
  expected : BitVec 32
  since : Nat := 0
  dupTs : Option W64 := none
deriving DecidableEq, Repr

/-- Arrivals of one epoch at the root of a barrier (R307). -/
structure BarArr where
  epoch : BitVec 32
  srcs  : List (BitVec 10)
deriving DecidableEq, Repr

/-! ## Resoles and the wear gauge (chapter 16) -/

/-- An entry of a resole list (R372): kind 1 TENSOR, 2 OPTIMIZER, 3 CURSOR. len: LENGTH, or CTRBASE of a cursor. -/
structure REnt where
  kind : Nat
  core : Nat
  stream : Nat
  draws : Nat
  va   : Nat
  len  : Nat
deriving DecidableEq, Repr

/-- A resole list, as SNAP read it (R371). -/
structure RList where
  toHost : Bool
  vc   : BitVec 4
  ctx  : BitVec 4
  stepVa : Nat
  capPa : Nat
  capLen : Nat
  hostPa : Nat
  thresh : Nat
  hyst : Nat
  alarm : Nat
  rpt  : Nat
  ents : List REnt
deriving DecidableEq, Repr

/-- A HEM record (R377). -/
structure HemRec where
  core : Nat
  stream : Nat
  key  : BitVec 128
  ctr  : W64
deriving DecidableEq, Repr

/-- A capture in progress (R374): what Cretas reads at Q. snap: the journal slot of the SNAP that asked. -/
structure Capture where
  ch   : PressId
  snap : Option Nat
  list : RList
  epoch : W64
  quiet : Bool := false
  stepNo : W64 := 0
  cursors : List W64 := []
  hems : List HemRec := []
deriving DecidableEq, Repr

/-- A replication in progress (R380). phase: 0 nothing written (again after a takeover), 1 the image, 2 STEPk, 3 CURRENT; fail: the
code of a write that aborted. -/
structure Repl where
  snap : Option Nat
  list : RList
  ch   : PressId
  stepNo : W64
  bytes : Nat
  slot : Nat
  phase : Nat := 0
  fail : Option (BitVec 16) := none
deriving DecidableEq, Repr

/-- What Cretas keeps for resoles: SNAPs that wait, with their channels; the standing list; a resole that the gauge made due;
completions since the last resole; whether the alarm has fired; of the pairing (always-on) the partner's feed, whether it was forced,
and CURRENT and the slot size of its store. -/
structure Resole where
  snaps : List (Nat × PressId × RList) := []
  deferred : List (Option Nat) := []
  standing : Option (PressId × RList) := none
  due   : Bool := false
  since : Nat := 0
  alarmed : Bool := false
  capture : Option Capture := none
  repl  : Option Repl := none
  pfeed : BitVec 8 := 0
  forced : Bool := false
  cur   : Nat := 0xFF
  slotLen : Nat := 0
deriving DecidableEq, Repr

/-! ## Cretas (chapter 14) -/

/-- A launch as its block names it (R335). -/
structure LaunchRun where
  mask : BitVec 64
  block : List Byte
  rejoined : Nat := 0
  interrupted : Bool := false
  timedOut : Bool := false
deriving DecidableEq, Repr

/-- A journal slot (R338, R339). src: a queue, or 16 + n for mailbox n; done: the work has ended, with its code and RESULT; record:
the completion record once committed; launch: the launch it started; stream and gen: the stream context of the fused command that it
started; poison0 and voided0: the poison and VOIDED counts when its work started, which its record's counts are taken from. -/
structure JSlot where
  entry : BitVec 512
  src  : Nat
  ticket : BitVec 32
  cq   : BitVec 32
  reruns : Nat := 0
  started : Bool := false
  done : Option (BitVec 16 × BitVec 128) := none
  record : Option (List Byte) := none
  launch : Option LaunchRun := none
  stream : Option Nat := none
  gen  : Nat := 0
  poison0 : Nat := 0
  voided0 : Nat := 0
deriving DecidableEq, Repr

/-! ## The parts of the package -/

/-- A Gnosepol core. regs: the last value written to each register of its block (R21), keyed by offset; an unlisted
register holds its reset value. The fields from vRnd to accS are the working values of Staged fields (R7, R54, R104). -/
structure Core where
  run   : Run := .idle
  g     : Vector W64 64 := .replicate 64 0
  sb    : BitVec 64 := 0
  late  : BitVec 64 := 0        -- registers that a bundle may still have to wait for, though written (R140)
  c     : Vector Cap 16 := .replicate 16 {}
  scap  : Vector Cap 5 := .replicate 5 {}
  regs  : SMap W64 := []
  lateLoads : List LateLoad := []
  products  : List Product := []
  storeBuf  : List StoreE := []
  retBuf : List W64 := []
  lpLast : Bool := false        -- lc1 was set after lc0 (R138)
  pq    : List Fetched := []
  held  : Option HeldAt := none
  exc   : Option Exc := none
  haltReq : Bool := false
  dbgHalt : Bool := false
  launch : Option Nat := none
  tile  : SMap Byte := []
  tileTags : SMap Bool := []
  tilePoison : SMap Bool := []
  v     : Vector (BitVec 16384) 32 := .replicate 32 0
  vm    : Vector (BitVec 4096) 8 := .replicate 8 0
  vl    : BitVec 13 := 0
  vq    : List VEntry := []
  vRnd  : BitVec 2 := 0
  vSat  : Bool := true
  vFit  : Bool := false
  aRnd  : BitVec 2 := 0
  aSat  : Bool := true
  aFit  : Bool := false
  accFull : Bool := false
  accS  : BitVec 4 := 1
  md    : Vector (Option OpDesc) 8 := .replicate 8 none
  mq    : List MqE := []
  mxSq  : Nat := 0
  acc   : Option MqE := none
  tiles : Vector Tile 8 := .replicate 8 {}
  lastStatus : Vector W64 8 := .replicate 8 0
  closes : Vector (Option CloseRun) 4 := .replicate 4 none
  shadows : Vector (Option Shadow) 4 := .replicate 4 none
  feq   : List FeJob := []
  tileQueue : List TqE := []
  qwait : List QWait := []
  stopped : Bool := false
  mxReserved : BitVec 4 := 0
  streams : Vector (Option Stream) 16 := .replicate 16 none
  txReqs : List TxReq := []
  txGen : Nat := 0
  seqHeldV : List VEntry := []
  seqHeldM : List MqE := []
  mgPost : Option MgOp := none
  mgRot : Option MgOp := none
  pr : Vector PrCh 4 := .replicate 4 {}
  tlb   : List TlbE := []
  walkCache : List WalkC := []
  walks : List Walk := []
  invPend : List InvReq := []
  l1i   : List L1Line := []
  l1d   : List L1Line := []
  basket : List L1Line := []
  stride : List Nat := []
  strideCtx : BitVec 4 := 0
deriving DecidableEq, Repr

/-- A cluster: its L2, its hamper and what its agent has under way. -/
structure Cluster where
  regs   : SMap W64 := []
  l2     : List L2Line := []
  hamper : List HamE := []
  evWait : List L2Line := []
  reqs   : List CohReq := []
  defers : List Deferred := []
deriving DecidableEq, Repr

/-- An entry of a host filter (R359): a line that a host processor may cache. -/
structure FiltE where
  key : Nat
  owned : Bool
deriving DecidableEq, Repr

/-- A region: its region cache, its host filter (oldest entry first), its stack and its mangle ring. -/
structure Region where
  regs  : SMap W64 := []
  rc    : List RcLine := []
  moves : List Move := []
  filter : List FiltE := []
  chans : Vector Chan 17 := .replicate 17 {}
  remap : Vector (Fin 17) 16 := .ofFn (fun i => ⟨i.val, by omega⟩)
  spare : Fin 17 := 16
  spareBad : Bool := false
  patch : Patch := {}
  rtInt : W32 := 8000
  poisonFrom : Vector (Option Nat) 16 := .replicate 16 none
  ringWait : List MReq := []
  quiesced : Bool := false
  kept  : RemapCopy := {}
deriving DecidableEq, Repr

/-- A die: its timestamp counter, its frame owner masks and its die registers (die 0's copy governs, R437). -/
structure Die where
  ts    : W64 := 0
  masks : SMap (BitVec 16) := []
  regs  : SMap W64 := []
  htEvict : Nat := 0
deriving DecidableEq, Repr

/-- What a source reports, before its ring gives it a sequence number and a phase (R346). -/
structure Report where
  code  : BitVec 16
  event : Bool
  answer : Bool := false
  held  : Bool := false
  level : Nat
  num   : Nat
  die   : Nat
  ts    : W64 := 0
  seq   : W64 := 0
  addr  : W64 := 0
  tag   : BitVec 16 := 0
  slot  : BitVec 8 := 0
  off   : W32 := 0
  detail : BitVec 128 := 0
deriving DecidableEq, Repr

/-! ## Cretas, the host port, trust and power (chapters 14, 15, 17, 18) -/

/-- What Cretas keeps beside its BAR0 registers: whether HELLO has run since reset and CAPS has succeeded, the working MAXINFL of
each queue, the part resets that run (level, number), the halted streams that wait for an answer (record, core, stream), the
records posted to each ring since package reset, and the events lost since the last 0xB041. -/
structure Cretas where
  helloDone : Bool := false
  capsDone : Bool := false
  infl  : Vector Nat 16 := .replicate 16 256
  resets : List (Nat × Nat) := []
  asked : List (Nat × Nat × Nat) := []
  frSeq : Nat := 0
  erSeq : Nat := 0
  lost  : Nat := 0
deriving DecidableEq, Repr

/-- The CXL port: CXL.STAT.STATE, RATE and WIDTH, whether the link stands in L0, Bus Master and Memory Space Enable, CACHEEN, its
counters, the HDM decoder registers, the MSI-X table, the vectors signalled (R350 to R365). -/
structure Cxl where
  st    : Nat := 0
  rate  : Nat := 0
  width : Nat := 0
  up    : Bool := false
  bme   : Bool := false
  mse   : Bool := false
  cacheEn : Bool := false
  regs  : SMap W64 := []
  hdm   : SMap W32 := []
  msix  : SMap Byte := []
  pend  : BitVec 256 := 0
  fired : BitVec 256 := 0
deriving DecidableEq, Repr

/-- A back-invalidation snoop at the port (R359): sent is false while it waits for one of the 1,024 tags. -/
structure BiSnp where
  key : Nat
  inv : Bool
  sent : Bool
deriving DecidableEq, Repr

/-- A window that a remote request has passed: its entry, the local address and the window's context (R228, R230). -/
structure WinHit where
  w   : Fin 64
  pa  : Nat
  ctx : BitVec 4
deriving DecidableEq, Repr

/-- A request that waits at a line's home for a back-invalidation, or at the CXL port for the host link (R359, R360, R363). -/
inductive HomeReq where
  | read (cl : ClusterId) (key : Nat) (scalar bad : Bool)
  | readCur (cl : ClusterId) (key : Nat)
  | hostRead (key : Nat) (want : HostWant)
  | hostWrite (key : Nat) (mask : BitVec 64) (data : BitVec 512) (poison giveUp : Bool)
  | msg (opc : BitVec 8) (m : Msg) (win : Option WinHit)
deriving DecidableEq, Repr

/-- The fuses (R389). A shipped part has DBGCLOSE = 1. -/
structure Fuses where
  uds : BitVec 256 := 0
  imgKeyH : Vector (BitVec 256) 4 := .replicate 4 0
  imgRev : BitVec 4 := 0
  svnMin : BitVec 64 := 0
  dbgKeyH : Vector (BitVec 256) 2 := .replicate 2 0
  dbgRev : BitVec 2 := 0
  pwHash : BitVec 256 := 0
  pwEn : Bool := false
  pwScope : BitVec 2 := 0
  dbgClose : Bool := true
deriving DecidableEq, Repr

/-- Root of trust and debug (chapter 17). sigs: the signatures that FIPS 205 accepts, among those presented (key, message,
signature). store: the two slots of the image store; preferred: the slot of R393. booted: the slot and the first 256 bytes of the
image that runs. fails: failures since reset; streak: failures since the last success, for the hold-off. signing: the signed
response being made; reply: what is left of a large SPDM response. pins: the preloaded boundary scan. -/
structure Trust where
  fuses : Fuses := {}
  sigs  : List (List Byte × List Byte × List Byte) := []
  store : Vector (SMap Byte) 2 := .replicate 2 []
  preferred : Fin 2 := 0
  booted : Option (Fin 2 × List Byte) := none
  fallback : Bool := false
  recovery : Bool := false
  idKey : Bool := true
  scope : BitVec 2 := 0
  route : BitVec 2 := 0
  nonce : Option (BitVec 256) := none
  nonceAt : W64 := 0
  fails : Nat := 0
  streak : Nat := 0
  holdoff : Bool := false
  failAt : W64 := 0
  unlocks : Nat := 0
  signing : Option (List Byte) := none
  reply : List Byte := []
  pins  : List Bool := []
deriving DecidableEq, Repr

/-- Power and the pins (chapter 18): the three reset pins, whether the package is in reset, the root PLLs; the always-on domain's
recorded faults, whether VSTBY was lost and PWR_GOOD seen since, whether the package has run, the latched trip; HOT_N and
SMB_ALERT_N low; the divider steps that power and temperature demand; THROT_N low; the measured power, and the temperature in 1/8 °C;
droops: the bins of 100 ms of R367, the present one first. -/
structure Power where
  stby  : Bool := true
  good  : Bool := true
  perst : Bool := true
  rst   : Bool := false
  pll   : Bool := false
  faults : List (BitVec 16 × Nat) := []
  vstbyLost : Bool := true
  seen  : Bool := true
  ran   : Bool := true
  trip  : Bool := false
  hot   : Bool := false
  alert : Bool := false
  dPower : Nat := 0
  dTemp : Nat := 0
  throt : Bool := false
  avg   : Nat := 0
  temp  : BitVec 16 := 0
  releases : Nat := 0
  droops : List Nat := [0]
  gaugeBins : List (Nat × Nat) := []
  gaugeSeen : List Nat := []
deriving DecidableEq, Repr

/-- Why a step stops: the model has no command that the spec gives no effect to, so no meaning raises one. -/
inductive Fault where
  /-- Raised by no meaning of this model (safe). -/
  | unreached
deriving DecidableEq, Repr

/-- Why a step refuses. -/
inductive Refusal where
  /-- Raised by exec for a command that has no meaning yet; no command is left without one (safe). -/
  | notModelled (mnemonic : String)
deriving DecidableEq, Repr

/-- The package. pending: the commands that wait, first in first out. -/
structure State where
  pending : List Instr := []
  cores   : Vector Core 64 := .replicate 64 {}
  clusters : Vector Cluster 16 := .replicate 16 {}
  regions : Vector Region 8 := .replicate 8 {}
  dies    : Vector Die 2 := .replicate 2 {}
  mem     : SMap Byte := []
  memTags : SMap Bool := []
  memPoison : SMap Bool := []
  hostMem : SMap Byte := []
  memReady : Bool := false
  tracker : List Nat := []
  invQ    : List W64 := []
  invRun  : Bool := false
  invGot  : BitVec 64 := 0
  invAck  : BitVec 64 := 0
  invTimed : Bool := false
  winDrain : BitVec 64 := 0
  answer  : List Byte := []
  commitSeq : W64 := 0
  straps  : Straps := ⟨0, 0, 0, 0, false, false, false, false⟩
  ports   : Vector Port 6 := .replicate 6 {}
  sendChs : List SendCh := []
  recvChs : List RecvCh := []
  barArr  : Vector (List BarArr) 4 := .replicate 4 []
  barSent : BitVec 4 := 0
  rs      : Resole := {}
  bar     : SMap W64 := []
  mbReq   : Vector (BitVec 512) 8 := .replicate 8 0
  mbRsp   : Vector (BitVec 512) 8 := .replicate 8 0
  journal : SMap JSlot := []
  crs     : Cretas := {}
  cxl     : Cxl := {}
  dvsec   : SMap W64 := []
  config  : SMap W64 := []      -- the function's identity (R351)
  biSnps  : List BiSnp := []
  homeWait : List HomeReq := []
  trust   : Trust := {}
  pwr     : Power := {}
  frWait  : List Report := []
  erWait  : List Report := []
  freeCtr : Nat := 0
deriving DecidableEq, Repr

/-- The package right after reset. -/
def State.reset : State := {}

end Sys2Proof.Machine
end

