-- ==== Sys2Proof/Machine/Ops.lean ====
section
/-! DEFINITION. The named operations over registers, tile memory and capabilities that the meanings share, the reports that
go to Cretas, and taking an exception and returning from one. -/

namespace Sys2Proof.Machine

/-! ## Parts of the package -/

def State.core (s : State) (c : CoreId) : Core := s.cores.get c
def State.setCore (s : State) (c : CoreId) (k : Core) : State := { s with cores := s.cores.set c.val k c.isLt }
def State.updCore (s : State) (c : CoreId) (f : Core → Core) : State := s.setCore c (f (s.core c))
def State.cluster (s : State) (c : ClusterId) : Cluster := s.clusters.get c
def State.updCluster (s : State) (c : ClusterId) (f : Cluster → Cluster) : State :=
  { s with clusters := s.clusters.set c.val (f (s.cluster c)) c.isLt }
def State.region (s : State) (r : RegionId) : Region := s.regions.get r
def State.updRegion (s : State) (r : RegionId) (f : Region → Region) : State :=
  { s with regions := s.regions.set r.val (f (s.region r)) r.isLt }
def State.die (s : State) (d : DieId) : Die := s.dies.get d
def State.updDie (s : State) (d : DieId) (f : Die → Die) : State :=
  { s with dies := s.dies.set d.val (f (s.die d)) d.isLt }

/-- R12: the die, the region and the cluster of a core, and its local number. -/
def coreDie (c : CoreId) : DieId := ⟨c.val / 32, by omega⟩
def coreRegion (c : CoreId) : RegionId := ⟨c.val / 8, by omega⟩
def coreCluster (c : CoreId) : ClusterId := ⟨c.val / 4, by omega⟩
def coreLocal (c : CoreId) : Nat := c.val % 32
def clusterRegion (c : ClusterId) : RegionId := ⟨c.val / 2, by omega⟩
def clusterDie (c : ClusterId) : DieId := ⟨c.val / 8, by omega⟩
def regionDie (r : RegionId) : DieId := ⟨r.val / 4, by omega⟩

/-! ## Registers of a core -/

/-- R138: g0 reads 0. -/
def Core.getG (k : Core) (r : GReg) : W64 := if r = 0 then 0 else k.g[r.toNat]'(by have := r.isLt; omega)

/-- R138: a write to g0 is discarded. A write clears the register's poison bit (R142). -/
def Core.reg (k : Core) (off : Nat) : W64 := mget coreReset k.regs off
def Core.setReg (k : Core) (off : Nat) (v : W64) : Core := { k with regs := mset coreReset k.regs off v }
def Core.fld (k : Core) (off hi lo : Nat) : Nat := bitsOf (k.reg off).toNat hi lo
def Core.setFld (k : Core) (off hi lo v : Nat) : Core := k.setReg off (BitVec.ofNat 64 (setBits (k.reg off).toNat hi lo v))
/-- R10: a counter field counts n up and saturates. -/
def Core.count (k : Core) (off hi lo n : Nat) : Core := k.setFld off hi lo (satAdd (hi + 1 - lo) (k.fld off hi lo) n)

/-- Offsets of the core registers that meanings name. -/
def rNUMFLAGS : Nat := 0x1000
def rNUMCTL : Nat := 0x1008
def rVXAMAX : Nat := 0x1010
def rNUMREJ : Nat := 0x1018
def rHEM (s i : Nat) : Nat := 0x1100 + 0x20 * s + 8 * i
def rMLO : Nat := 0x1510
def rMHI : Nat := 0x1518
def rLC (n : Nat) : Nat := 0x1520 + 8 * n
def rLS (n : Nat) : Nat := 0x1530 + 0x10 * n
def rLE (n : Nat) : Nat := 0x1538 + 0x10 * n
def rSCSTALL : Nat := 0x1558
def rSCPOVL : Nat := 0x1560
def rSCSPLIT : Nat := 0x1568
def rSCFLUSH : Nat := 0x1570
def rGPOISON : Nat := 0x1578
def rARITHCTL : Nat := 0x1600
def rEXSTAT : Nat := 0x1608
def rEXCTL : Nat := 0x1610
def rEXPEND : Nat := 0x1618
def rEXADDR : Nat := 0x1620
def rEXSEQ : Nat := 0x1628
def rEXTIMER : Nat := 0x1630
def rFRAMEKEYLO : Nat := 0x1638
def rFRAMEKEYHI : Nat := 0x1640
def rEXCNT : Nat := 0x1648
def rEXENTRY : Nat := 0x1650

def Core.poisoned (k : Core) (r : GReg) : Bool := r != 0 && (k.reg rGPOISON).getLsbD r.toNat

/-- Write a general register with its poison bit (R138, R142): g0 takes nothing, and the scoreboard bit clears (R139). -/
def Core.putG (k : Core) (r : GReg) (v : W64) (poison : Bool) : Core :=
  if r = 0 then k
  else
    let k := { k with g := k.g.set r.toNat v (by have := r.isLt; omega), sb := k.sb &&& ~~~(BitVec.ofNat 64 (2 ^ r.toNat)) }
    k.setReg rGPOISON (BitVec.ofNat 64 (setBits (k.reg rGPOISON).toNat r.toNat r.toNat poison.toNat))

def Core.setG (k : Core) (r : GReg) (v : W64) : Core := k.putG r v false

/-- R139: the register's value arrives late. -/
def Core.markG (k : Core) (r : GReg) : Core :=
  if r = 0 then k else { k with sb := k.sb ||| BitVec.ofNat 64 (2 ^ r.toNat) }

def Core.busyG (k : Core) (r : GReg) : Bool := r != 0 && k.sb.getLsbD r.toNat

def Core.getC (k : Core) (r : CReg) : Cap := k.c[r.toNat]'(by have := r.isLt; omega)
def Core.setC (k : Core) (r : CReg) (v : Cap) : Core := { k with c := k.c.set r.toNat v (by have := r.isLt; omega) }
def Core.pcc (k : Core) : Cap := k.scap[0]
def Core.rscap (k : Core) : Cap := k.scap[1]
def Core.escap (k : Core) : Cap := k.scap[2]
def Core.setScap (k : Core) (i : Fin 5) (v : Cap) : Core := { k with scap := k.scap.set i.val v i.isLt }

def Core.depth (k : Core) : Nat := k.fld rEXSTAT 1 0
def Core.ie (k : Core) : Bool := k.fld rEXCTL 0 0 = 1

/-- R51, R53: raise numeric flags; sh is 0 for the scalar processor, 4 for the vector engine, 8 for the array group. -/
def Core.raiseFlags (k : Core) (sh : Nat) (f : NF) : Core :=
  k.setReg rNUMFLAGS (k.reg rNUMFLAGS ||| BitVec.ofNat 64 (f.bits * 2 ^ sh))

/-- R139, R141: the prefetch queue is flushed. -/
def Core.flushQueue (k : Core) : Core := ({ k with pq := [] } : Core).count rSCFLUSH 63 0 1

/-! ## Capabilities (R155 to R160) -/

def Cap.addr (x : Cap) : Nat := x.bits.toNat % 2 ^ 64
def Cap.e (x : Cap) : Nat := bitsOf x.bits.toNat 103 98
def Cap.b (x : Cap) : Nat := bitsOf x.bits.toNat 97 81
def Cap.l (x : Cap) : Nat := bitsOf x.bits.toNat 80 64
def Cap.perms (x : Cap) : Nat := bitsOf x.bits.toNat 115 104
def Cap.ctx (x : Cap) : BitVec 4 := BitVec.ofNat 4 (bitsOf x.bits.toNat 119 116)
def Cap.seal (x : Cap) : Nat := bitsOf x.bits.toNat 123 120
def Cap.w (x : Cap) : Nat := x.e + 17
/-- R156. -/
def Cap.base (x : Cap) : Nat := ((x.addr >>> x.w) <<< x.w) ||| (x.b <<< x.e)
def Cap.top (x : Cap) : Nat := x.base + (x.l <<< x.e)
def Cap.perm (x : Cap) (n : Nat) : Bool := x.perms.testBit n

/-- Permission bits (R157). -/
def pLD : Nat := 0
def pST : Nat := 1
def pEX : Nat := 2
def pLDC : Nat := 3
def pSTC : Nat := 4
def pTILE : Nat := 5
def pSYS : Nat := 6
def pSEAL : Nat := 7
def pESTK : Nat := 8
def pXFER : Nat := 9

/-- R158: bits that make a capability untagged wherever it is used. -/
def Cap.malformed (x : Cap) : Bool :=
  x.seal == 15 || decide (47 < x.e) || bitsOf x.bits.toNat 115 114 != 0 || bitsOf x.bits.toNat 127 124 != 0

/-- R158, R163: the effective tag. -/
def Cap.tagged (x : Cap) : Bool := x.tag && !x.malformed

def Cap.tile (x : Cap) : Bool := x.perm pTILE

def Cap.withAddr (x : Cap) (a : Nat) : Cap := { x with bits := BitVec.ofNat 128 (setBits x.bits.toNat 63 0 a) }

/-- R156: a capability whose address moves; the tag is cleared where the bounds would change. -/
def Cap.moved (x : Cap) (a : Nat) : Cap := { (x.withAddr a) with tag := x.tag && decide (a % 2 ^ 64 / 2 ^ x.w = x.addr / 2 ^ x.w) }

/-- Bytes a to a + n − 1 touch the emergency area (R161). -/
def inEmergency (a n : Nat) : Bool := decide (a < 0x600000) && decide (Config.emergencyBase < a + n)

/-- R160: an access of n bytes at ea with every permission of ps; in tile memory its bytes exist and lie outside the
emergency area. -/
def Cap.allows (x : Cap) (ps : List Nat) (ea n : Nat) : Bool :=
  x.tagged && x.seal == 0 && ps.all x.perm && decide (x.base ≤ ea) && decide (ea + n ≤ x.top) &&
    (!x.tile || !(inEmergency ea n))

/-! ## Tile memory (R33, R62, R159, R436) -/

def Core.tileByte (k : Core) (a : Nat) : Byte := mget zeroByte k.tile a
def Core.tileRead (k : Core) (a n : Nat) : List Byte := readBytes zeroByte k.tile a n
def Core.tileNat (k : Core) (a n : Nat) : Nat := leNat (k.tileRead a n)

/-- The 16-byte words that n bytes at a touch. -/
def wordsOf (a n : Nat) : List Nat := if n = 0 then [] else (List.range ((a + n - 1) / 16 + 1 - a / 16)).map (fun i => a / 16 + i)

/-- R436: some word that the bytes touch is poisoned. -/
def Core.tilePois (k : Core) (a n : Nat) : Bool := (wordsOf a n).any (mget noFlag k.tilePoison)

/-- R159: a write clears the tag of the granule w that it touches. R436: a word written whole takes the poison of its data, a
word written in part stays poisoned or becomes so with poisoned data. -/
def Core.markWord (k : Core) (w : Nat) (whole pois : Bool) : Core :=
  { k with tileTags := mset noFlag k.tileTags w false,
           tilePoison := mset noFlag k.tilePoison w (if whole then pois else mget noFlag k.tilePoison w || pois) }

def Core.tileMarks (k : Core) (a n : Nat) (pois : Bool) : Core :=
  (wordsOf a n).foldl (fun k w => k.markWord w (decide (a ≤ 16 * w) && decide (16 * w + 16 ≤ a + n)) pois) k

def Core.tileWrite (k : Core) (a : Nat) (bs : List Byte) (pois : Bool := false) : Core :=
  { (k.tileMarks a bs.length pois) with tile := writeBytes zeroByte k.tile a bs }

/-- One write of bytes, each with its place and its poison (R436): a word that they cover whole takes its poison from them. -/
def Core.tileLand (k : Core) (bs : List (Nat × Byte × Bool)) : Core :=
  let k := { k with tile := bs.foldl (fun m b => writeBytes zeroByte m b.1 [b.2.1]) k.tile }
  (bs.map (fun b => b.1 / 16)).eraseDups.foldl (fun k w =>
    let mine := bs.filter (fun b => b.1 / 16 == w)
    k.markWord w ((List.range 16).all (fun i => mine.any (fun b => b.1 % 16 == i))) (mine.any (fun b => b.2.2))) k

/-- R436: the banks find errors in words of tile memory that they cannot correct. -/
def Core.bankErrors (k : Core) (ws : List Nat) : Core :=
  { k with tilePoison := ws.foldl (fun m w => if w < Config.tileBytes / 16 then mset noFlag m w true else m) k.tilePoison }

/-- Write 16 aligned bytes with their tag (R159). -/
def Core.tileWriteTagged (k : Core) (a : Nat) (bs : List Byte) (tag : Bool) : Core :=
  let k := k.tileWrite a bs
  { k with tileTags := mset noFlag k.tileTags (a / 16) tag }

def Core.tileTag (k : Core) (a : Nat) : Bool := mget noFlag k.tileTags (a / 16)

/-! ## Streams and stages -/

def Core.stream (k : Core) (s : Nat) : Option Stream := (k.streams.toList[s]?).getD none
def Core.setStream (k : Core) (s : Nat) (x : Stream) : Core :=
  if h : s < 16 then { k with streams := k.streams.set s (some x) h } else k
def Core.updStream (k : Core) (s : Nat) (f : Stream → Stream) : Core :=
  match k.stream s with
  | some x => k.setStream s (f x)
  | none => k
def Core.updFused (k : Core) (s : Nat) (f : Fused → Fused) : Core := k.updStream s (fun x => { x with fused := x.fused.map f })
def Core.updStage (k : Core) (s i : Nat) (f : StageS → StageS) : Core :=
  k.updFused s (fun u => { u with stages := listUpd f u.stages i })

/-- The oldest firing that is still at work is done. -/
def firstDone : List Firing → List Firing
  | [] => []
  | x :: r => if x.done then x :: firstDone r else { x with done := true } :: r

/-- R200: bytes lo to hi − 1 of a stream are delivered. -/
def addRange : List (Nat × Nat) → Nat → Nat → List (Nat × Nat)
  | [], lo, hi => [(lo, hi)]
  | (a, b) :: r, lo, hi =>
    if hi < a then (lo, hi) :: (a, b) :: r
    else if b < lo then (a, b) :: addRange r lo hi
    else addRange r (min a lo) (max b hi)

/-- R200: bytes of a stream are delivered. -/
def Core.landed (k : Core) (s e0 n : Nat) : Core :=
  (k.updStream s (fun x => { x with landed := addRange x.landed e0 (e0 + n) })).count 0x1920 63 0 n

/-- A request frees its tag; its bytes are delivered. -/
def State.txDone (s : State) (c : CoreId) (q : TxReq) : State :=
  s.updCore c (fun k => ({ k with txReqs := k.txReqs.filter (fun r => r.tag != q.tag) } : Core).landed q.s q.e0 q.n)

/-! ## The journal -/

def State.job (s : State) (j : Nat) : Option JSlot := (s.journal.find? (fun x => x.1 == j)).map Prod.snd
def State.setJob (s : State) (j : Nat) (x : JSlot) : State := { s with journal := minsert j x (s.journal.filter (fun y => y.1 != j)) }
def State.dropJob (s : State) (j : Nat) : State := { s with journal := s.journal.filter (fun y => y.1 != j) }
def State.updJob (s : State) (j : Nat) (f : JSlot → JSlot) : State := match s.job j with | some x => s.setJob j (f x) | none => s

/-! ## Free values and reports -/

/-- Take one free value: the counter advances, so that no two are the same reading (log 23). -/
def State.free (s : State) : Nat × State := (Config.freeNat s.freeCtr, { s with freeCtr := s.freeCtr + 1 })

/-- R28, R346: a report takes the timestamp of its die and the latest commit sequence number. -/
def State.stamp (s : State) (r : Report) : Report :=
  { r with ts := (s.dies.get ⟨r.die % 2, by omega⟩).ts, seq := s.commitSeq }

/-- A fault record waits for its ring; an event likewise (R347). -/
def State.post (s : State) (r : Report) : State :=
  if r.event then { s with erWait := s.erWait ++ [s.stamp r] } else { s with frWait := s.frWait ++ [s.stamp r] }

def State.coreReport (s : State) (c : CoreId) (code : BitVec 16) (event : Bool) (addr : W64) (detail : BitVec 128 := 0) : State :=
  s.post { code := code, event := event, level := 0, num := c.val, die := c.val / 32, addr := addr, detail := detail }

/-- R167: an asynchronous fault record that concerns a core raises its source 4, FAULTREC. -/
def State.coreFault (s : State) (c : CoreId) (code : BitVec 16) (addr : W64) (detail : BitVec 128 := 0) : State :=
  (s.coreReport c code false addr detail).updCore c (fun k => k.setFld rEXPEND 4 4 1)

/-- R7: a rejected write to a core register: counted at [hi:lo] of register cnt, and an event while its REPORT bit is 1. -/
def State.rejectCore (s : State) (c : CoreId) (cnt hi lo rep off : Nat) : State :=
  let s := s.updCore c (fun k => k.count cnt hi lo 1)
  if (s.core c).fld cnt rep rep = 1 then s.coreReport c 0xB042 true (BitVec.ofNat 64 off) else s

/-! ## What a syllable does (R132) -/

/-- The outcome of one syllable, found on the state before its bundle: hold the bundle, a fault of the bundle with the
faulting address, the effect to apply when the bundle retires, or (R206) an effect that the syllable makes while it holds. -/
inductive Issue where
  | hold (h : Held)
  | fault (code : BitVec 16) (addr : W64)
  | go (upd : State → State)
  | holdGo (h : Held) (upd : State → State)

/-- A syllable that changes only its own core. -/
def goCore (c : CoreId) (f : Core → Core) : Issue := .go (fun s => s.updCore c f)

/-- A hold where h holds, a fault where f gives one, else the effect. -/
def Issue.orElse (h : Bool) (why : Held) (f : Option (BitVec 16)) (i : Issue) : Issue :=
  match f with
  | some code => .fault code 0
  | none => if h then .hold why else i

/-- A further effect after the syllable's own. -/
def Issue.andThen (i : Issue) (f : State → State) : Issue :=
  match i with
  | .go u => .go (fun s => f (u s))
  | i => i

/-- The first code whose condition holds. -/
def firstFault (l : List (Bool × BitVec 16)) : Option (BitVec 16) :=
  match l.find? (fun x => x.1) with
  | some x => some x.2
  | none => none

end Sys2Proof.Machine
end

