-- ==== Sys2Proof/Machine/VecOps.lean ====
section
/-! DEFINITION. What the vector engine computes on its registers (chapter 05): elements, masks, rounding draws, arithmetic,
permutes, conversions to and from block formats, slicing and reductions. Every function works on the elements lo to hi − 1, so
that an instruction stopped at a beat boundary resumes where it stopped (R128). -/

namespace Sys2Proof.Machine

/-! ## Elements, lengths and masks -/

/-- Element i of width w (R107). -/
def elem (w x i : Nat) : Nat := (x >>> (w * i)) % 2 ^ w

def setElem (w x i v : Nat) : Nat := setBits x (w * i + w - 1) (w * i) v

/-- R107: the largest element count of a width. -/
def vlmax (w : Nat) : Nat := if w = 6 then 2048 else Config.vlen / w

def Core.vreg (k : Core) (r : BitVec 5) : Nat := (k.v[r.toNat]'(by have := r.isLt; omega)).toNat
def Core.setV (k : Core) (r : BitVec 5) (x : Nat) : Core :=
  { k with v := k.v.set r.toNat (BitVec.ofNat 16384 x) (by have := r.isLt; omega) }
def Core.vmask (k : Core) (r : BitVec 3) : Nat := (k.vm[r.toNat]'(by have := r.isLt; omega)).toNat
def Core.setVm (k : Core) (r : BitVec 3) (x : Nat) : Core :=
  { k with vm := k.vm.set r.toNat (BitVec.ofNat 4096 x) (by have := r.isLt; omega) }
/-- A mask register named by the low three bits of a vector field (R151). -/
def mreg (r : BitVec 5) : BitVec 3 := BitVec.ofNat 3 r.toNat

/-- R109: element i is active under the governing mask. -/
def Core.active (k : Core) (f : VF) (i : Nat) : Bool := !f.mkd || (k.vmask f.vm).testBit i

/-- R151: the width of an integer width code. -/
def intWidth (code : BitVec 4) : Option Nat :=
  match code.toNat with
  | 0 => some 8 | 1 => some 16 | 2 => some 32 | 3 => some 64 | _ => none

/-- The width of a format code, 0 for a reserved one. -/
def fmtWidth (code : BitVec 4) : Nat := match fmtOf code with | some f => f.width | none => 0

/-- R107: the width of an element format in memory forms. -/
def ffmtOf (code : BitVec 4) : Option FFmt := match fmtOf code with | some (.flt f) => some f | _ => none

/-- R114: FP32, FP16 and BF16 do arithmetic. -/
def isArith (code : BitVec 4) : Bool := decide (code.toNat ≤ 2)
def isFp64 (code : BitVec 4) : Bool := code == 0xB
/-- The formats that a conversion pairs with a block scale (R36): FP8, FP6, FP4, INT8 and INT4. -/
def isMx (code : BitVec 4) : Bool := decide (3 ≤ code.toNat) && decide (code.toNat ≤ 9)

/-- R48: the 16-bit field of element i in the draws of a use that begins at counter ctr. -/
def draw16 (key ctr i : Nat) : Nat := bitsOf (hemDraw key ((ctr + i / 8) % 2 ^ 64)) (16 * (i % 8) + 15) (16 * (i % 8))

def Core.hemKey (k : Core) (s : Nat) : Nat := (k.reg (rHEM s 0)).toNat + (k.reg (rHEM s 1)).toNat * 2 ^ 64

/-- R48, R49: take n draws of stream s: the counter moves on, and a wrap sets the stream's HEMWRAP bit. -/
def Core.advanceHem (k : Core) (s n : Nat) : Core :=
  let c := (k.reg (rHEM s 2)).toNat + n
  let k := k.setReg (rHEM s 2) (BitVec.ofNat 64 c)
  if 2 ^ 64 ≤ c then k.setFld rNUMFLAGS (12 + s) (12 + s) 1 else k

/-- R42: the rounding of element i: the field, or the default of the vector engine. -/
def Core.vRound (k : Core) (rnd : BitVec 2) (hem i : Nat) : Rnd :=
  let r := if rnd = 3 then k.vRnd else rnd
  if r = 0 then .rne else if r = 1 then .rtz else .sr (draw16 (k.hemKey 0) hem i)

/-- What a vector instruction that starts now takes (R54, R124). -/
def Core.vCtl (k : Core) : VCtl := { rnd := k.vRnd, sat := k.vSat, fit := k.vFit, slices := k.fld 0x1300 3 0 }

/-- The indices lo to hi − 1. -/
def span (lo hi : Nat) : List Nat := (List.range (hi - lo)).map (fun i => lo + i)

/-- R109: write elements lo to hi − 1 of width w of a destination that held old: g gives an active element's bits and flags;
an inactive element stays, or is 0 under Z. -/
def vMap (k : Core) (f : VF) (w lo hi old : Nat) (g : Nat → Nat × NF) : Nat × NF :=
  (span lo hi).foldl (fun acc i =>
    if k.active f i then
      let r := g i
      (setElem w acc.1 i r.1, acc.2.or r.2)
    else if f.z then (setElem w acc.1 i 0, acc.2) else acc) (old, {})

/-- An element-wise instruction: compute, write vd and raise the flags. -/
def Core.vPut (k : Core) (f : VF) (w lo hi : Nat) (g : Nat → Nat × NF) : Core :=
  let r := vMap k f w lo hi (k.vreg f.vd) g
  (k.setV f.vd r.1).raiseFlags 4 r.2

/-! ## Floating-point and integer element operations (R115, R116) -/

def Elem.pair (e : Elem) : Nat × NF := (e.bits, e.fl)

/-- A binary operation of one format rounded once. -/
def Core.vBin (k : Core) (f : VF) (x : ExtA) (hem lo hi : Nat) (op : FVal → FVal → XRes) : Core :=
  match ffmtOf x.f1 with
  | none => k
  | some g => k.vPut f g.width lo hi (fun i =>
      (g.write (k.vRound x.rnd hem i) k.vSat
        (op (g.decode (elem g.width (k.vreg f.va) i)) (g.decode (elem g.width (k.vreg f.vb) i)))).pair)

def Core.vTern (k : Core) (f : VF) (x : ExtA) (hem lo hi : Nat) (op : FVal → FVal → FVal → XRes) : Core :=
  match ffmtOf x.f1 with
  | none => k
  | some g => k.vPut f g.width lo hi (fun i =>
      (g.write (k.vRound x.rnd hem i) k.vSat
        (op (g.decode (elem g.width (k.vreg f.va) i)) (g.decode (elem g.width (k.vreg f.vb) i))
          (g.decode (elem g.width (k.vreg x.aux) i)))).pair)

def Core.vUn (k : Core) (f : VF) (x : ExtA) (hem lo hi : Nat) (op : FVal → XRes) : Core :=
  match ffmtOf x.f1 with
  | none => k
  | some g => k.vPut f g.width lo hi (fun i =>
      (g.write (k.vRound x.rnd hem i) k.vSat (op (g.decode (elem g.width (k.vreg f.va) i)))).pair)

/-- An operation on the bits of one or two elements that sets no flag but an invalid one. -/
def Core.vBits (k : Core) (f : VF) (w lo hi : Nat) (op : Nat → Nat → Nat × Bool) : Core :=
  k.vPut f w lo hi (fun i =>
    let r := op (elem w (k.vreg f.va) i) (elem w (k.vreg f.vb) i)
    (r.1, { nv := r.2 }))

/-- R115: round to an integral value; only the inexact flag, and invalid for a signalling NaN. -/
def rndiX (g : FFmt) (r : Rnd) (v : FVal) : Elem :=
  match v with
  | .fin s m e =>
    let t := roundAt r m e 0 false
    if 0 ≤ e then g.write .rne true v.exact
    else { bits := (g.write .rne true (.num s t.1 0 false)).bits, fl := { nx := t.2 } }
  | v => g.write .rne true v.exact

/-- The integer a finite value truncates to, and whether it was integral. -/
def truncInt (s : Bool) (m : Nat) (e : Int) : Int × Bool :=
  let t := roundAt .rtz m e 0 false
  (sgn s t.1, !t.2)

/-- R115: a × 2^b, rounded once. -/
def ldexpX (a b : FVal) : XRes × NF :=
  match a, b with
  | _, .nan _ => (.nan true, {})
  | .nan sg, _ => (.nan sg, {})
  | .inf s, _ => (.inf s false, {})
  | .fin s m e, .inf t => if m = 0 then (.num s 0 e false, {}) else (.num s m (if t then e - 4000 else e + 4000) false, {})
  | .fin s m e, .fin t n h =>
    if m = 0 then (.num s 0 e false, {})
    else
      let (i, whole) := truncInt t n (min h 40)
      (.num s m (e + max (-4000) (min 4000 i)) false, { nv := !whole })

/-- R115: ilogb as an integral FP32 value. -/
def getexpX (v : FVal) : Elem :=
  match v with
  | .fin _ m e =>
    if m = 0 then { bits := fp32.signed true fp32.infCode }
    else
      let n := (Nat.log2 m : Int) + e
      fp32.write .rne true (.num (decide (n < 0)) n.natAbs 0 false)
  | _ => { bits := fp32.canonNaN, fl := { nv := true } }

/-- R115, R151: the compare conditions eq, ne, lt, le, gt, ge, un. -/
def cmpCond (cc : Nat) (a b : FVal) : Bool :=
  let un := a.isNaN || b.isNaN
  let o := cmpVal a b
  match cc with
  | 0 => !un && o == .eq
  | 1 => un || o != .eq
  | 2 => !un && o == .lt
  | 3 => !un && o != .gt
  | 4 => !un && o == .gt
  | 5 => !un && o != .lt
  | _ => un

/-- The exact difference of an exact result and a finite rounded one. -/
def XRes.minus (x : XRes) (r : FVal) : XRes :=
  match x, r with
  | .num s m e _, .fin t n h => addFin s m e (!t) n h
  | x, _ => x

/-- R116: the two results of vx.twosum on binary32 patterns. -/
def twosum (x y : Nat) : Elem × Elem :=
  let a := f32 x
  let b := f32 y
  let sum := addX a b
  let hi := fp32.write .rne true sum
  match f32 hi.bits with
  | .fin s m e => (hi, fp32.write .rne true (sum.minus (.fin s m e)))
  | _ =>
    let special := a.isNaN || b.isNaN || (match a with | .inf _ => true | _ => false) || (match b with | .inf _ => true | _ => false)
    if special then (hi, { bits := fp32.canonNaN })
    else ({ hi with fl := { ov := true, nx := true, nv := true } }, { bits := fp32.canonNaN })

/-- R116: the low part of a product. -/
def mullo (x y : Nat) : Elem :=
  let p := mulX (f32 x) (f32 y)
  let hi := fp32.write .rne true p
  match p, f32 hi.bits with
  | .num _ _ _ _, .fin s m e => fp32.write .rne true (p.minus (.fin s m e))
  | .num _ _ _ _, _ => { bits := fp32.canonNaN, fl := { ov := true, nx := true, nv := true } }
  | .nan nv, _ => { bits := fp32.canonNaN, fl := { nv := nv } }
  | .inf _ _, _ => { bits := fp32.canonNaN }

/-- R115: vx.shl, vx.shr, vx.sra take the amount modulo the width. -/
def shiftElem (w : Nat) (left arith : Bool) (a b : Nat) : Nat :=
  let n := b % w
  if left then (a <<< n) % 2 ^ w
  else if arith then ((intElem w a >>> n) % (2 ^ w : Nat)).toNat
  else a >>> n

/-- R114: an integer operation of a width code; results wrap. -/
def Core.vInt (k : Core) (f : VF) (x : ExtA) (lo hi : Nat) (op : Nat → Nat → Nat → Nat) : Core :=
  match intWidth x.f1 with
  | none => k
  | some w => k.vBits f w lo hi (fun a b => (op w a b % 2 ^ w, false))

/-! ## Permutes (R118) -/

/-- A permutation: element i of vd takes h i, the element's new bits. -/
def Core.vPerm (k : Core) (f : VF) (w lo hi : Nat) (h : Nat → Nat) : Core := k.vPut f w lo hi (fun i => (h i, {}))

/-- R118: vx.shuf. Halves and pairs are of the VL elements. -/
def shufElem (p w vl a b i : Nat) : Nat :=
  let half := vl / 2
  match p with
  | 0 => elem w (if i % 2 = 0 then a else b) (i / 2)
  | 1 => elem w (if i % 2 = 0 then a else b) (half + i / 2)
  | 2 => if i < half then elem w a (2 * i) else elem w b (2 * (i - half))
  | 3 => if i < half then elem w a (2 * i + 1) else elem w b (2 * (i - half) + 1)
  | 4 => elem w a (vl - 1 - i)
  | _ => elem w a ((i + elem w b 0) % vl)

/-- The set positions of a mask below vl, in order. -/
def maskList (m vl : Nat) : List Nat := (List.range vl).filter m.testBit

/-! ## Conversions (R45, R46, R119) -/

/-- floor(log2) of a nonzero magnitude m × 2^e. -/
def ilog (m : Nat) (e : Int) : Int := (Nat.log2 m : Int) + e

/-- m1 × 2^e1 ≤ m2 × 2^e2. -/
def magLe (m1 : Nat) (e1 : Int) (m2 : Nat) (e2 : Int) : Bool :=
  let e := min e1 e2
  decide (m1 <<< (e1 - e).toNat ≤ m2 <<< (e2 - e).toNat)

/-- The larger of two magnitudes. -/
def magMax (a b : Nat × Int) : Nat × Int := if magLe a.1 a.2 b.1 b.2 then b else a

/-- R45: emax of a target, and maxfin as a magnitude. -/
def emaxOf (code : BitVec 4) : Int × Nat × Int :=
  match code.toNat with
  | 3 => (8, 7, 6) | 4 => (15, 7, 13) | 5 => (2, 15, -1) | 6 => (4, 7, 2) | 7 => (2, 3, 1) | 8 => (0, 127, -6) | _ => (0, 7, -2)

/-- R45: the unbiased scale exponent of a block whose largest finite magnitude is a (0: none). -/
def scaleExp (code : BitVec 4) (fit : Bool) (a : Nat × Int) : Option Int :=
  if a.1 = 0 then none
  else
    let (emax, mm, me) := emaxOf code
    let x0 := ilog a.1 a.2 - emax
    let x := if fit then
        (if magLe a.1 a.2 mm (me + (x0 - 1)) then x0 - 1 else if magLe a.1 a.2 mm (me + x0) then x0 else x0 + 1)
      else x0
    some (max (-127) (min 127 x))

/-- R45: write a value under a block's scale exponent. -/
def writeScaled (code : BitVec 4) (r : Rnd) (sat : Bool) (x : Int) (v : FVal) : Elem :=
  match fmtOf code with
  | some (.flt g) => g.write r sat (match v with | .fin s m e => .num s m (e - x) false | v => v.exact)
  | some .int8 => writeInt 8 r sat (match v with | .fin s m e => .num s m (e - x + 6) false | v => v.exact)
  | some .int4 => writeInt 4 r sat (match v with | .fin s m e => .num s m (e - x + 2) false | v => v.exact)
  | _ => { bits := 0 }

/-- R35: an element of a block format under its scale byte. -/
def mxValue (code : BitVec 4) (scale x : Nat) : FVal :=
  match fmtOf code with
  | some f =>
    if scale = 255 then .nan false
    else match f.decode x with
      | .fin s m e => .fin s m (e + scale - 127)
      | v => v
  | none => .nan false

/-- The value of source element i of a conversion: block formats take their scale from vs. -/
def cvtSrc (code : BitVec 4) (a vs i : Nat) : FVal :=
  match fmtOf code with
  | some f => if isMx code then mxValue code (elem 8 vs (i / 32)) (elem f.width a i) else f.decode (elem f.width a i)
  | none => .nan false

/-- The largest finite magnitude among values. -/
def maxMag (l : List FVal) : Nat × Int :=
  l.foldl (fun a v => match v with | .fin _ m e => if m = 0 then a else magMax a (m, e) | _ => a) (0, 0)

/-- R46: fold a magnitude into VXAMAX. A magnitude that binary32 cannot hold is a value the spec does not state: free. -/
def Core.gather (k : Core) (fr : Nat) (v : FVal) : Core :=
  let put (k : Core) (x : Nat) : Core := k.setReg rVXAMAX (BitVec.ofNat 64 (fp32.maxMin true x ((k.reg rVXAMAX).toNat)).1)
  match v with
  | .nan _ => k
  | .inf _ => put k fp32.infCode
  | .fin _ m e =>
    let r := fp32.write .rne true (.num false m e false)
    put k (if r.fl.nx then min (fr % 2 ^ 31) fp32.infCode else r.bits)

/-- R119: one block of a conversion into a block format: elements 32b to 32b + 31, of which those below vl exist. The block's A is
over its active elements, and its scale byte is written whatever the mask (DESIGN CHOICE, log 92). -/
def Core.cvtBlock (k0 : Core) (f : VF) (x : ExtA) (hem vl : Nat) (k : Core) (b : Nat) : Core :=
  let wt := fmtWidth x.f2
  let idx := span (32 * b) (32 * b + 32)
  let here (i : Nat) : Bool := decide (i < vl) && k0.active f i
  let val (i : Nat) : FVal := cvtSrc x.f1 (k0.vreg f.va) (k0.vreg f.vb) i
  let sc := scaleExp x.f2 k0.vFit (maxMag ((idx.filter here).map val))
  let out := idx.foldl (fun (acc : Nat × NF × Bool) i =>
    if vl ≤ i then (setElem wt acc.1 i 0, acc.2.1, acc.2.2)
    else if k0.active f i then
      let r := writeScaled x.f2 (k0.vRound x.rnd hem i) k0.vSat (sc.getD (-127)) (val i)
      (setElem wt acc.1 i r.bits, acc.2.1.or r.fl, acc.2.2 || r.blkNaN)
    else if f.z then (setElem wt acc.1 i 0, acc.2.1, acc.2.2) else acc) (k.vreg f.vd, {}, false)
  let scale : Nat := if out.2.2 then 255 else ((sc.getD (-127)) + 127).toNat
  ((k.setV f.vd out.1).setV f.vb (setElem 8 ((k.setV f.vd out.1).vreg f.vb) b scale)).raiseFlags 4 out.2.1

/-- R119: vx.cvt on elements lo to hi − 1. -/
def Core.vCvt (k : Core) (f : VF) (x : ExtA) (hem vl lo hi fr : Nat) : Core :=
  let act := (span lo hi).filter (k.active f)
  let k1 := if x.g then act.foldl (fun q i => q.gather fr (cvtSrc x.f1 (k.vreg f.va) (k.vreg f.vb) i)) k else k
  if isMx x.f2 then (span (lo / 32) ((hi + 31) / 32)).foldl (k1.cvtBlock f x hem vl) k1
  else match fmtOf x.f2 with
    | some g => k1.vPut f g.width lo hi (fun i =>
        (g.write (k.vRound x.rnd hem i) k.vSat (cvtSrc x.f1 (k.vreg f.va) (k.vreg f.vb) i).exact).pair)
    | none => k1

/-! ## Slicing (R100, R124) -/

/-- The digits of one scaled integer, most significant first. -/
def sliceDigits : Nat → Int → List Int → List Int
  | 0, n, acc => n :: acc
  | s + 1, n, acc => let t := intElem 8 (n % 256).toNat; sliceDigits s ((n - t) / 256) (t :: acc)

/-- R100: digit i of a value under the block exponent X + E. -/
def sliceDigit (s i : Nat) (xe : Int) (v : FVal) : Int :=
  match v with
  | .fin sg m e =>
    let t := roundAt .rne m (e + 6 - xe + 8 * ((s : Int) - 1)) 0 false
    (sliceDigits (s - 1) (sgn sg t.1) []).getD i 0
  | _ => 0

/-- What R100 finds of a block: a NaN or infinity (it returns before any digit), all zero, refused, or X + E. -/
inductive SliceBlk where
  | special | zero | refused | digits (xe : Int)
deriving DecidableEq, Repr

/-- R100: a block's scale byte and what is found. -/
def sliceScale (e : Int) (l : List FVal) : Nat × SliceBlk :=
  if l.any (fun v => match v with | .fin _ _ _ => false | _ => true) then (255, .special)
  else
    let a := maxMag l
    if a.1 = 0 then (0, .zero)
    else
      let ex := l.foldl (fun (acc : Option Int) v => match v with
        | .fin _ m h => if m = 0 then acc else some (match acc with | some y => max y (ilog m h) | none => ilog m h)
        | _ => acc) none
      let x := ex.getD 0 + 1 - e
      if 127 < x then (255, .refused)
      else
        let x := max (-127) x
        ((x + 127).toNat, .digits (x + e))

/-- R100: the digits lose bits of the value: the written result differs from the exact one (R51). -/
def sliceLost (s : Nat) (xe : Int) (v : FVal) : Bool :=
  match v with
  | .fin _ m e => (roundAt .rne m (e + 6 - xe + 8 * ((s : Int) - 1)) 0 false).2
  | _ => false

/-- R51: the flags of a block's active values: invalid for a signalling NaN, overflow for a refused block, inexact for lost bits. -/
def sliceFlags (s : Nat) (blk : SliceBlk) (l : List FVal) : NF :=
  { nv := l.any FVal.isSNaN, ov := blk == .refused, nx := match blk with | .digits y => l.any (sliceLost s y) | _ => false }

/-- R124: one block of vx.slc. Digits are INT8; positions from VL to the block's end take digit 0. The block's exponent and its
specials are over its active elements, and its scale byte is written whatever the mask (DESIGN CHOICE, log 92). -/
def Core.slcBlock (k0 : Core) (f : VF) (x : ExtM) (vl s : Nat) (e : Int) (k : Core) (b : Nat) : Core :=
  let w := fmtWidth x.fmt
  let idx := span (32 * b) (32 * b + 32)
  let val (i : Nat) : FVal := match fmtOf x.fmt with | some g => g.decode (elem w (k0.vreg f.va) i) | none => .nan false
  let vals := (idx.filter (fun i => decide (i < vl) && k0.active f i)).map val
  let (scale, blk) := sliceScale e vals
  let out := idx.foldl (fun acc i =>
    if vl ≤ i then setElem 8 acc i 0
    else if k0.active f i then
      match blk with
      | .special => acc
      | .digits y => setElem 8 acc i ((sliceDigit s x.aux.toNat y (val i)) % 256).toNat
      | _ => setElem 8 acc i 0
    else if f.z then setElem 8 acc i 0 else acc) (k.vreg f.vd)
  let k := k.setV f.vd out
  let k := k.setV f.vb (setElem 8 (k.vreg f.vb) b scale)
  let k := k.raiseFlags 4 (sliceFlags s blk vals)
  if blk = .refused then k.count 0x1420 31 16 1 else k

/-! ## Reductions (R121) -/

/-- R121: a .b form writes its result to every element below VL, whatever the mask. -/
def Core.vFill (k : Core) (r : BitVec 5) (w lo hi x : Nat) : Core :=
  k.setV r ((span lo hi).foldl (fun acc i => setElem w acc i x) (k.vreg r))

/-- One level of the fixed pairwise tree of binary32 sums. -/
def sumLevel : List (Nat × NF) → List (Nat × NF)
  | a :: b :: r =>
    let e := fp32.write .rne true (addX (f32 a.1) (f32 b.1))
    (e.bits, (a.2.or b.2).or e.fl) :: sumLevel r
  | l => l

/-- R121: the sum of 2^n binary32 patterns. -/
def sumTree : Nat → List (Nat × NF) → Nat × NF
  | 0, l => l.headD (0, {})
  | n + 1, l => sumTree n (sumLevel l)

/-- Least n with 2^n ≥ v. -/
def clog2 (v : Nat) : Nat := if v ≤ 1 then 0 else Nat.log2 (v - 1) + 1

/-- R121: the binary32 sum of positions lo to lo + 2^n − 1: inactive positions and those from vl on count as +0. -/
def Core.vSum (k : Core) (f : VF) (g : FFmt) (vl lo n : Nat) : Nat × NF :=
  sumTree n ((List.range (2 ^ n)).map (fun j =>
    let i := lo + j
    if i < vl && k.active f i then
      let e := fp32.write .rne true (g.decode (elem g.width (k.vreg f.va) i)).exact
      (e.bits, e.fl)
    else (0, {})))

/-- R39, R121: the maximum or minimum of the active elements; no active element: the identity. -/
def Core.vMaxMin (k : Core) (f : VF) (g : FFmt) (mx : Bool) (vl : Nat) : Nat × NF :=
  let l := ((List.range vl).filter (k.active f)).map (fun i => elem g.width (k.vreg f.va) i)
  match l with
  | [] => (g.signed mx g.infCode, {})
  | x :: r =>
    let q := r.foldl (fun (acc : Nat × Bool) y => let z := g.maxMin mx acc.1 y; (z.1, acc.2 || z.2)) (x, (g.decode x).isSNaN)
    (if (g.decode q.1).isNaN then g.canonNaN else q.1, { nv := q.2 })

/-- R121: the 64-bit sum of the active integer elements. -/
def Core.vSumInt (k : Core) (f : VF) (w vl : Nat) : Nat :=
  ((((List.range vl).filter (k.active f)).foldl (fun (acc : Int) i => acc + intElem w (elem w (k.vreg f.va) i)) 0) % (2 ^ 64 : Nat)).toNat

/-- R121: the largest magnitude of the active elements of block b, as binary32. -/
def Core.vBlkMax (k : Core) (f : VF) (g : FFmt) (vl b : Nat) : Nat × NF :=
  let l := ((span (32 * b) (min vl (32 * b + 32))).filter (k.active f)).map (fun i =>
    (fp32.write .rne true (g.decode (elem g.width (k.vreg f.va) i)).exact))
  let q := l.foldl (fun (acc : Option Nat × NF) e =>
    let m := e.bits % 2 ^ 31
    (some (match acc.1 with | none => m | some y => (fp32.maxMin true y m).1), acc.2.or e.fl)) (none, {})
  (q.1.getD 0, q.2)

/-! ## Tile memory under the vector engine (R109, R113, R126, R436) -/

/-- Write scattered whole bytes: tags clear, and a word is written whole when all its 16 bytes are. -/
def Core.tileScatter (k : Core) (cells : List (Nat × Byte)) : Core :=
  let ws := (cells.map (fun x => x.1 / 16)).eraseDups
  let k := ws.foldl (fun k w =>
    let whole := (List.range 16).all (fun i => cells.any (fun x => x.1 == 16 * w + i))
    let p := if whole then false else mget noFlag k.tilePoison w
    { k with tileTags := mset noFlag k.tileTags w false, tilePoison := mset noFlag k.tilePoison w p }) k
  { k with tile := cells.foldl (fun m x => mset zeroByte m x.1 x.2) k.tile }

/-- Write bits hi down to lo of tile memory counted from byte a: bytes touched in part keep their other bits. -/
def Core.tileSetBits (k : Core) (a lo w v : Nat) : Core :=
  let b0 := a + lo / 8
  let n := (lo % 8 + w + 7) / 8
  let old := k.tileNat b0 n
  let k := k.tileMarks b0 n false
  { k with tile := writeBytes zeroByte k.tile b0 (leBytes n (setBits old (lo % 8 + w - 1) (lo % 8) v)) }

/-- R126: an element read from tile memory at bit position lo from byte a; a poisoned word gives NaN or 0. -/
def Core.loadElem (k : Core) (f : Fmt) (a lo : Nat) : Nat × Bool :=
  let w := f.width
  let b0 := a + lo / 8
  let n := (lo % 8 + w + 7) / 8
  if k.tilePois b0 n then
    (match f with
     | .flt g => if g.spec = .finite then 0 else g.canonNaN
     | _ => 0, true)
  else (bitsOf (k.tileNat b0 n) (lo % 8 + w - 1) (lo % 8), false)

/-- R126: count an instruction that met poison. -/
def Core.countPoison (k : Core) (p : Bool) : Core := if p then k.count 0x1420 15 0 1 else k

/-- A load: addr gives element i's byte address and bit offset. The new contents of vd, and whether poison was met. -/
def Core.vLoadVals (k : Core) (f : VF) (g : Fmt) (lo hi : Nat) (addr : Nat → Nat × Nat) : Nat × Bool :=
  (span lo hi).foldl (fun (acc : Nat × Bool) i =>
    if k.active f i then
      let e := k.loadElem g (addr i).1 (addr i).2
      (setElem g.width acc.1 i e.1, acc.2 || e.2)
    else if f.z then (setElem g.width acc.1 i 0, acc.2) else acc) (k.vreg f.vd, false)

def Core.vLoad (k : Core) (f : VF) (g : Fmt) (lo hi : Nat) (addr : Nat → Nat × Nat) : Core :=
  k.setV f.vd (k.vLoadVals f g lo hi addr).1

/-- A strided or indexed store, element by element in ascending order (R117). -/
def Core.vStoreEach (k : Core) (f : VF) (w lo hi : Nat) (addr : Nat → Nat) : Core :=
  (span lo hi).foldl (fun q i =>
    if k.active f i then q.tileWrite (addr i) (leBytes (w / 8) (elem w (k.vreg f.vd) i))
    else if f.z then q.tileWrite (addr i) (leBytes (w / 8) 0) else q) k

/-- R436: the words that bits lo to hi − 1 of a contiguous write from byte a cover whole take sound data. -/
def Core.soundWords (k : Core) (a lo hi : Nat) : Core :=
  (wordsOf (a + lo / 8) (hi / 8 - lo / 8)).foldl (fun k w =>
    if decide (8 * a + lo ≤ 128 * w) && decide (128 * w + 128 ≤ 8 * a + hi) then
      { k with tilePoison := mset noFlag k.tilePoison w false } else k) k

/-- The runs of written elements among lo to hi − 1. -/
def writtenRuns (p : Nat → Bool) (lo hi : Nat) : List (Nat × Nat) :=
  (span lo hi).foldl (fun l i =>
    if p i then (match l with | (a, b) :: r => if b = i then (a, i + 1) :: r else (i, i + 1) :: l | [] => [(i, i + 1)]) else l) []

/-- A contiguous store. -/
def Core.vStoreRun (k : Core) (f : VF) (w lo hi a : Nat) : Core :=
  if w % 8 = 0 then
    k.tileScatter ((span lo hi).flatMap (fun i =>
      if k.active f i || f.z then
        let v := if k.active f i then elem w (k.vreg f.vd) i else 0
        (List.range (w / 8)).map (fun j => (a + w / 8 * i + j, BitVec.ofNat 8 (v >>> (8 * j))))
      else []))
  else
    let q := (span lo hi).foldl (fun q i =>
      if k.active f i then q.tileSetBits a (w * i) w (elem w (k.vreg f.vd) i)
      else if f.z then q.tileSetBits a (w * i) w 0 else q) k
    (writtenRuns (fun i => k.active f i || f.z) lo hi).foldl (fun q r => q.soundWords a (w * r.1) (w * r.2)) q

/-- R59: the byte and bit place of element j of line l in a panel: block bytes, groups and positions by width. -/
def panelPlace (w l j : Nat) : Nat × Nat :=
  let gw := if w = 4 then 8 else 4
  let gb := if w = 6 then 3 else 4
  let bb := if w = 8 then 1024 else if w = 6 then 768 else 512
  let b := j / 32
  let s := j % 32 / gw
  let p := j % gw
  (b * bb + s * 32 * gb + l * gb, w * p)

/-- R117: vx.pack.pnl. -/
def Core.vPackPnl (k : Core) (f : VF) (w lo hi a l : Nat) : Core :=
  (span lo hi).foldl (fun q i =>
    let (o, b) := panelPlace w l i
    if k.active f i then q.tileSetBits (a + o) b w (elem w (k.vreg f.vd) i)
    else if f.z then q.tileSetBits (a + o) b w 0 else q) k

/-! ## The welt readout (R90, R95, R125) -/

/-- Bytes of a welt element, its finite value or its tags (R90). A poisoned word gives the POISON tag (R105). -/
def Core.weltRead (k : Core) (a : Nat) : Int × Nat :=
  let x := k.tileNat a 80
  if k.tilePois a 80 then (0, 32)
  else if x >>> 638 = 1 then (0, x % 64)
  else (if x.testBit 639 then (x : Int) - (2 ^ 640 : Nat) else x, 0)

/-- R95: what special tags close as: a NaN (invalid or not), an infinity, or an overflow of a sign. -/
inductive Special where
  | poison | invalid | infinity (s : Bool) | overflow (s : Bool)
deriving DecidableEq, Repr

def specialOf (tags : Nat) : Option Special :=
  let p := tags.testBit 0
  let n := tags.testBit 1
  let po := tags.testBit 3
  let no := tags.testBit 4
  if tags.testBit 5 then some .poison
  else if tags.testBit 2 || ((p || po) && (n || no)) then some .invalid
  else if p || n then some (.infinity n)
  else if po || no then some (.overflow no)
  else none

/-- R95, R51: the element that special tags write; an overflow is inexact too. -/
def writeSpecial (f : FFmt) (r : Rnd) (sat : Bool) (t : Special) : Elem :=
  match t with
  | .poison => { bits := f.canonNaN }
  | .invalid => { bits := f.canonNaN, fl := { nv := true } }
  | .infinity s => f.write r sat (.inf s false)
  | .overflow s => f.overflow r sat s

/-- R125: vx.wrd on elements lo to hi − 1: hi part in vd, and for FP32 the low part in vl. -/
def Core.vWrd (k : Core) (f : VF) (x : ExtM) (hem lo hi a : Nat) (gB : Int) : Core :=
  let both := x.fmt == 0
  let g := if both then fp32 else fp64
  let r := (span lo hi).foldl (fun (acc : Nat × Nat × NF × Bool) i =>
    if k.active f i then
      let (w, tags) := k.weltRead (a + 80 * i)
      let rn := k.vRound x.rnd hem i
      match specialOf tags with
      | some t =>
        let e := writeSpecial g rn k.vSat t
        let p := t == .poison
        (setElem g.width acc.1 i e.bits, if both then setElem 32 acc.2.1 i fp32.canonNaN else acc.2.1, acc.2.2.1.or e.fl, acc.2.2.2 || p)
      | none =>
        let v : XRes := .num (decide (w < 0)) w.natAbs (gB - 288) false
        let e := g.write rn k.vSat v
        let l := match g.decode e.bits with
          | .fin s m h => fp32.write .rne k.vSat (v.minus (.fin s m h))
          | _ => { bits := fp32.canonNaN }
        (setElem g.width acc.1 i e.bits, if both then setElem 32 acc.2.1 i l.bits else acc.2.1, acc.2.2.1.or (if both then e.fl.or l.fl else e.fl), acc.2.2.2)
    else if f.z then
      (setElem g.width acc.1 i 0, if both then setElem 32 acc.2.1 i 0 else acc.2.1, acc.2.2.1, acc.2.2.2)
    else acc) (k.vreg f.vd, k.vreg f.va, {}, false)
  let k1 := if both then k.setV f.va r.2.1 else k
  ((k1.setV f.vd r.1).raiseFlags 4 r.2.2.1).countPoison r.2.2.2

end Sys2Proof.Machine
end

