-- ==== Sys2Proof/Machine/Vector.lean ====
section
/-! DEFINITION. The vector instructions (R106 to R126): what each checks at issue (R127) and what it puts into the vector
queue, one meaning for each; and what each computes when it runs. -/

namespace Sys2Proof.Machine

/-! ## Issue -/

/-- R48: draws of n elements. -/
def ceilDiv (a b : Nat) : Nat := (a + b - 1) / b

/-- R108, R112, R127: issue a vector instruction: the first fault present, else a place in the queue. stream: the hem stream it
draws from and how many draws it takes; gD: a general register that it writes late. -/
def vIssue (c : CoreId) (i : Instr) (faults : List (Bool × BitVec 16)) (x y : W64) (stream : Option (Nat × Nat)) (gD : GReg)
    (s : State) : Issue :=
  let k := s.core c
  Issue.orElse (decide (8 ≤ k.vq.length)) .queueFull (firstFault faults)
    (goCore c (fun k =>
      let st := (stream.getD (0, 0)).1
      let e : VEntry := { instr := i, vl := k.vl.toNat, hem := match stream with | some t => k.reg (rHEM t.1 2) | none => 0,
                          x := x, y := y, beats := 0, drew := stream.isSome, done := false, gval := 0 }
      (({ k with vq := k.vq ++ [e] }).advanceHem st (stream.getD (0, 0)).2).markG gD))

/-- R108: VL exceeds VLMAX for a width. -/
def vlBad (k : Core) (w : Nat) : Bool := decide (vlmax w < k.vl.toNat)

/-- The use of stream 0 that a rounding field makes (R48): uses take their counters in issue order, so a default rounding counts
here by the VRND last written (DESIGN CHOICE, log 89). -/
def srUse (k : Core) (rnd : BitVec 2) : Option (Nat × Nat) :=
  if rnd == 2 || (rnd == 3 && k.fld rNUMCTL 1 0 == 2) then some (0, ceilDiv k.vl.toNat 8) else none

/-- An arithmetic instruction of format F1: FP32, FP16 or BF16, and FP64 where fp64 is set (R114). -/
def vArithIssue (c : CoreId) (i : Instr) (x : ExtA) (fp64 : Bool) (rounds : Bool) (s : State) : Issue :=
  let k := s.core c
  vIssue c i [(!(isArith x.f1 || (fp64 && isFp64 x.f1)), 0x2010), (vlBad k (fmtWidth x.f1), 0x2012)] 0 0
    (if rounds then srUse k x.rnd else none) 0 s

/-- An integer instruction of a width code (R114). -/
def vIntIssue (c : CoreId) (i : Instr) (x : ExtA) (s : State) : Issue :=
  let k := s.core c
  vIssue c i [((intWidth x.f1).isNone, 0x2010), (vlBad k ((intWidth x.f1).getD 8), 0x2012)] 0 0 none 0 s

/-- An instruction of the permute group: overlap of its destination with a source is refused (R118). -/
def vPermIssue (c : CoreId) (i : Instr) (code : BitVec 4) (overlap : Bool) (s : State) : Issue :=
  let k := s.core c
  vIssue c i [((fmtOf code).isNone, 0x2010), (overlap, 0x2011), (vlBad k (fmtWidth code), 0x2012)] 0 0 none 0 s

/-- R117, R160: the bytes lo to hi − 1 are allowed by cM in tile memory; and they lie in tile memory. -/
def vSpanFaults (m : Cap) (p : Nat) (lo hi : Int) : List (Bool × BitVec 16) :=
  if hi ≤ lo then []
  else [(!(m.tile && decide (0 ≤ lo) && m.allows [p] lo.toNat (hi - lo).toNat), 0x2013), (decide ((Config.tileBytes : Int) < hi), 0x2015)]

/-- Earlier queued instructions still write a register that the checks of an indexed form read. -/
def vWritesPending (k : Core) (dep : VEntry → Bool) : Bool := k.vq.any dep

/-- A contiguous load or store of format code at gX (R117). -/
def vRunIssue (c : CoreId) (i : Instr) (x : ExtM) (p : Nat) (s : State) : Issue :=
  let k := s.core c
  let a := k.getG x.gX
  let n := ceilDiv (k.vl.toNat * fmtWidth x.fmt) 8
  vIssue c i ([((fmtOf x.fmt).isNone, 0x2010), (vlBad k (fmtWidth x.fmt), 0x2012)] ++
    vSpanFaults (k.getC x.cM) p a.toNat (a.toNat + n)) a 0 none 0 s

/-- A strided load or store (R117). -/
def vStrideIssue (c : CoreId) (i : Instr) (x : ExtM) (p : Nat) (s : State) : Issue :=
  let k := s.core c
  let a := k.getG x.gX
  let st := k.getG x.gY
  let w := fmtWidth x.fmt
  let last : Int := a.toNat + (k.vl.toNat - 1 : Nat) * st.toInt
  vIssue c i ([((fmtOf x.fmt).isNone, 0x2010), (decide (w < 8), 0x2014), (vlBad k w, 0x2012)] ++
    (if k.vl = 0 then [] else vSpanFaults (k.getC x.cM) p (min (a.toNat : Int) last) (max (a.toNat : Int) last + w / 8))) a st none 0 s

/-- R117: the byte offset of an indexed element. -/
def vIndex (k : Core) (vb : BitVec 5) (i : Nat) : Nat := elem 32 (k.vreg vb) i

/-- An indexed load or store (R117): every indexed byte is checked, an inactive element's too. -/
def vIndexIssue (c : CoreId) (i : Instr) (f : VF) (x : ExtM) (p : Nat) (busy : Bool) (s : State) : Issue :=
  let k := s.core c
  let a := k.getG x.gX
  let w := fmtWidth x.fmt
  let at_ (j : Nat) : Int := (a.toNat + vIndex k f.vb j : Nat)
  let fs := (List.range k.vl.toNat).map (fun j => vSpanFaults (k.getC x.cM) p (at_ j) (at_ j + w / 8))
  let capBad := fs.any (fun l => l.any (fun q => q.1 && q.2 == 0x2013))
  let outBad := fs.any (fun l => l.any (fun q => q.1 && q.2 == 0x2015))
  if busy then .hold .vxSync
  else vIssue c i [((fmtOf x.fmt).isNone, 0x2010), (decide (w < 8), 0x2014), (vlBad k (max w 32), 0x2012), (capBad, 0x2013), (outBad, 0x2015)]
    a 0 none 0 s

/-! ## What an instruction reads and writes (R110, R113, R180) -/

/-- Vector registers read and written, mask registers read and written (as bit masks), tile memory, and the unit. -/
structure VDep where
  rd  : Nat := 0
  wr  : Nat := 0
  mrd : Nat := 0
  mwr : Nat := 0
  mem : Bool := false
  unit : Nat := 5

def bitOf (r : BitVec 5) : Nat := 2 ^ r.toNat
def mbit (r : BitVec 3) : Nat := 2 ^ r.toNat
/-- The governing mask is read. -/
def govern (f : VF) : Nat := if f.mkd then mbit f.vm else 0

/-- The registers, masks and memory that an instruction uses. -/
def vDep : Instr → VDep
  | .vxAdd _ f x => { rd := bitOf f.va ||| bitOf f.vb, wr := bitOf f.vd, mrd := govern f, mwr := 0, mem := false, unit := 5 }
  | .vxSub _ f x => { rd := bitOf f.va ||| bitOf f.vb, wr := bitOf f.vd, mrd := govern f, mwr := 0, mem := false, unit := 5 }
  | .vxMul _ f x => { rd := bitOf f.va ||| bitOf f.vb, wr := bitOf f.vd, mrd := govern f, mwr := 0, mem := false, unit := 5 }
  | .vxDiv _ f x => { rd := bitOf f.va ||| bitOf f.vb, wr := bitOf f.vd, mrd := govern f, mwr := 0, mem := false, unit := 5 }
  | .vxFma _ f x => { rd := bitOf f.va ||| bitOf f.vb ||| bitOf x.aux, wr := bitOf f.vd, mrd := govern f, mwr := 0, mem := false, unit := 5 }
  | .vxFms _ f x => { rd := bitOf f.va ||| bitOf f.vb ||| bitOf x.aux, wr := bitOf f.vd, mrd := govern f, mwr := 0, mem := false, unit := 5 }
  | .vxSqrt _ f x => { rd := bitOf f.va, wr := bitOf f.vd, mrd := govern f, mwr := 0, mem := false, unit := 5 }
  | .vxMax _ f x => { rd := bitOf f.va ||| bitOf f.vb, wr := bitOf f.vd, mrd := govern f, mwr := 0, mem := false, unit := 5 }
  | .vxMin _ f x => { rd := bitOf f.va ||| bitOf f.vb, wr := bitOf f.vd, mrd := govern f, mwr := 0, mem := false, unit := 5 }
  | .vxAbs _ f x => { rd := bitOf f.va, wr := bitOf f.vd, mrd := govern f, mwr := 0, mem := false, unit := 5 }
  | .vxNeg _ f x => { rd := bitOf f.va, wr := bitOf f.vd, mrd := govern f, mwr := 0, mem := false, unit := 5 }
  | .vxCpsgn _ f x => { rd := bitOf f.va ||| bitOf f.vb, wr := bitOf f.vd, mrd := govern f, mwr := 0, mem := false, unit := 5 }
  | .vxRndi _ f x => { rd := bitOf f.va, wr := bitOf f.vd, mrd := govern f, mwr := 0, mem := false, unit := 5 }
  | .vxLdexp _ f x => { rd := bitOf f.va ||| bitOf f.vb, wr := bitOf f.vd, mrd := govern f, mwr := 0, mem := false, unit := 5 }
  | .vxGetexp _ f x => { rd := bitOf f.va, wr := bitOf f.vd, mrd := govern f, mwr := 0, mem := false, unit := 5 }
  | .vxCmp _ f x => { rd := bitOf f.va ||| bitOf f.vb, wr := 0, mrd := govern f, mwr := mbit (mreg f.vd), mem := false, unit := 5 }
  | .vxTwosum _ f x => { rd := bitOf f.va ||| bitOf f.vb, wr := bitOf f.vd ||| bitOf x.aux, mrd := govern f, mwr := 0, mem := false, unit := 5 }
  | .vxMullo _ f x => { rd := bitOf f.va ||| bitOf f.vb, wr := bitOf f.vd, mrd := govern f, mwr := 0, mem := false, unit := 5 }
  | .vxIadd _ f x => { rd := bitOf f.va ||| bitOf f.vb, wr := bitOf f.vd, mrd := govern f, mwr := 0, mem := false, unit := 5 }
  | .vxIsub _ f x => { rd := bitOf f.va ||| bitOf f.vb, wr := bitOf f.vd, mrd := govern f, mwr := 0, mem := false, unit := 5 }
  | .vxAnd _ f x => { rd := bitOf f.va ||| bitOf f.vb, wr := bitOf f.vd, mrd := govern f, mwr := 0, mem := false, unit := 5 }
  | .vxOr _ f x => { rd := bitOf f.va ||| bitOf f.vb, wr := bitOf f.vd, mrd := govern f, mwr := 0, mem := false, unit := 5 }
  | .vxXor _ f x => { rd := bitOf f.va ||| bitOf f.vb, wr := bitOf f.vd, mrd := govern f, mwr := 0, mem := false, unit := 5 }
  | .vxShl _ f x => { rd := bitOf f.va ||| bitOf f.vb, wr := bitOf f.vd, mrd := govern f, mwr := 0, mem := false, unit := 5 }
  | .vxShr _ f x => { rd := bitOf f.va ||| bitOf f.vb, wr := bitOf f.vd, mrd := govern f, mwr := 0, mem := false, unit := 5 }
  | .vxSra _ f x => { rd := bitOf f.va ||| bitOf f.vb, wr := bitOf f.vd, mrd := govern f, mwr := 0, mem := false, unit := 5 }
  | .vxImin _ f x => { rd := bitOf f.va ||| bitOf f.vb, wr := bitOf f.vd, mrd := govern f, mwr := 0, mem := false, unit := 5 }
  | .vxImax _ f x => { rd := bitOf f.va ||| bitOf f.vb, wr := bitOf f.vd, mrd := govern f, mwr := 0, mem := false, unit := 5 }
  | .vxImul _ f x => { rd := bitOf f.va ||| bitOf f.vb, wr := bitOf f.vd, mrd := govern f, mwr := 0, mem := false, unit := 5 }
  | .vxLd _ f x => { rd := 0, wr := bitOf f.vd, mrd := govern f, mwr := 0, mem := true, unit := 4 }
  | .vxSt _ f x => { rd := bitOf f.vd, wr := 0, mrd := govern f, mwr := 0, mem := true, unit := 4 }
  | .vxLds _ f x => { rd := 0, wr := bitOf f.vd, mrd := govern f, mwr := 0, mem := true, unit := 4 }
  | .vxSts _ f x => { rd := bitOf f.vd, wr := 0, mrd := govern f, mwr := 0, mem := true, unit := 4 }
  | .vxLdx _ f x => { rd := bitOf f.vb, wr := bitOf f.vd, mrd := govern f, mwr := 0, mem := true, unit := 4 }
  | .vxStx _ f x => { rd := bitOf f.vd ||| bitOf f.vb, wr := 0, mrd := govern f, mwr := 0, mem := true, unit := 4 }
  | .vxPackPnl _ f x => { rd := bitOf f.vd, wr := 0, mrd := govern f, mwr := 0, mem := true, unit := 4 }
  | .vxTqrd _ f x => { rd := 0, wr := bitOf f.vd, mrd := 0, mwr := 0, mem := true, unit := 4 }
  | .vxTqpop _ f => { rd := 0, wr := 0, mrd := 0, mwr := 0, mem := true, unit := 4 }
  | .vxTqhdr _ f x => { rd := 0, wr := 0, mrd := 0, mwr := 0, mem := true, unit := 4 }
  | .vxMv _ f => { rd := bitOf f.va, wr := bitOf f.vd, mrd := 0, mwr := 0, mem := false, unit := 7 }
  | .vxBcst _ f x => { rd := 0, wr := bitOf f.vd, mrd := govern f, mwr := 0, mem := false, unit := 7 }
  | .vxExt _ f x => { rd := bitOf f.va, wr := 0, mrd := 0, mwr := 0, mem := false, unit := 7 }
  | .vxIns _ f x => { rd := 0, wr := bitOf f.vd, mrd := govern f, mwr := 0, mem := false, unit := 7 }
  | .vxPerm _ f x => { rd := bitOf f.va ||| bitOf f.vb, wr := bitOf f.vd, mrd := govern f, mwr := 0, mem := false, unit := 7 }
  | .vxShuf _ f x => { rd := bitOf f.va ||| bitOf f.vb, wr := bitOf f.vd, mrd := govern f, mwr := 0, mem := false, unit := 7 }
  | .vxPack _ f x => { rd := bitOf f.va ||| bitOf f.vb, wr := bitOf f.vd, mrd := govern f, mwr := 0, mem := false, unit := 7 }
  | .vxUnpack _ f x => { rd := bitOf f.va, wr := bitOf f.vd, mrd := govern f, mwr := 0, mem := false, unit := 7 }
  | .vxCompress _ f x => { rd := bitOf f.va, wr := bitOf f.vd, mrd := mbit f.vm, mwr := 0, mem := false, unit := 7 }
  | .vxExpand _ f x => { rd := bitOf f.va, wr := bitOf f.vd, mrd := mbit f.vm, mwr := 0, mem := false, unit := 7 }
  | .vxMand _ f => { rd := 0, wr := 0, mrd := mbit (mreg f.va) ||| mbit (mreg f.vb), mwr := mbit (mreg f.vd), mem := false, unit := 7 }
  | .vxMor _ f => { rd := 0, wr := 0, mrd := mbit (mreg f.va) ||| mbit (mreg f.vb), mwr := mbit (mreg f.vd), mem := false, unit := 7 }
  | .vxMxor _ f => { rd := 0, wr := 0, mrd := mbit (mreg f.va) ||| mbit (mreg f.vb), mwr := mbit (mreg f.vd), mem := false, unit := 7 }
  | .vxMnot _ f => { rd := 0, wr := 0, mrd := mbit (mreg f.va), mwr := mbit (mreg f.vd), mem := false, unit := 7 }
  | .vxMpop _ f x => { rd := 0, wr := 0, mrd := mbit f.vm, mwr := 0, mem := false, unit := 7 }
  | .vxMfirst _ f x => { rd := 0, wr := 0, mrd := mbit f.vm, mwr := 0, mem := false, unit := 7 }
  | .vxCvt _ f x => { rd := bitOf f.va ||| bitOf f.vb, wr := bitOf f.vd ||| bitOf f.vb, mrd := govern f, mwr := 0, mem := false, unit := 6 }
  | .vxSlc _ f x => { rd := bitOf f.va, wr := bitOf f.vd ||| bitOf f.vb, mrd := govern f, mwr := 0, mem := false, unit := 6 }
  | .vxWrd _ f x => { rd := 0, wr := bitOf f.vd ||| (if x.fmt == 0 then bitOf f.va else 0), mrd := govern f, mwr := 0, mem := true, unit := 6 }
  | .vxDraw _ f x => { rd := 0, wr := bitOf f.vd, mrd := govern f, mwr := 0, mem := false, unit := 6 }
  | .vxDrawu _ f x => { rd := 0, wr := bitOf f.vd, mrd := govern f, mwr := 0, mem := false, unit := 6 }
  | .vxRsum _ f x => { rd := bitOf f.va, wr := 0, mrd := govern f, mwr := 0, mem := false, unit := 8 }
  | .vxRsumB _ f x => { rd := bitOf f.va, wr := bitOf f.vd, mrd := govern f, mwr := 0, mem := false, unit := 8 }
  | .vxRmax _ f x => { rd := bitOf f.va, wr := 0, mrd := govern f, mwr := 0, mem := false, unit := 8 }
  | .vxRmaxB _ f x => { rd := bitOf f.va, wr := bitOf f.vd, mrd := govern f, mwr := 0, mem := false, unit := 8 }
  | .vxRmin _ f x => { rd := bitOf f.va, wr := 0, mrd := govern f, mwr := 0, mem := false, unit := 8 }
  | .vxRminB _ f x => { rd := bitOf f.va, wr := bitOf f.vd, mrd := govern f, mwr := 0, mem := false, unit := 8 }
  | .vxRsumi _ f x => { rd := bitOf f.va, wr := 0, mrd := govern f, mwr := 0, mem := false, unit := 8 }
  | .vxRsumiB _ f x => { rd := bitOf f.va, wr := bitOf f.vd, mrd := govern f, mwr := 0, mem := false, unit := 8 }
  | .vxRmaxBlk _ f x => { rd := bitOf f.va, wr := bitOf f.vd, mrd := govern f, mwr := 0, mem := false, unit := 8 }
  | .vxRsumBlk _ f x => { rd := bitOf f.va, wr := bitOf f.vd, mrd := govern f, mwr := 0, mem := false, unit := 8 }
  | _ => {}

/-- The vx.tqpop instructions in the vector queue. -/
def tqPops (k : Core) : Nat := (k.vq.filter (fun e => match e.instr with | .vxTqpop _ _ => true | _ => false)).length

/-- R123: tile-queue entries that no earlier queued vx.tqpop takes. -/
def tqLeft (k : Core) : Nat := k.tileQueue.length - tqPops k

/-- R108: VL and VXVL. R112: a full vector queue holds its bundle too. -/
def mVxSetvl (c : CoreId) (f : VF) (x : ExtM) (s : State) : Issue :=
  let k := s.core c
  let w := match x.aux.toNat with | 0 => 8 | 1 => 16 | 2 => 32 | 3 => 64 | 4 => 4 | _ => 6
  let n := min (k.getG x.gY).toNat (vlmax w)
  Issue.orElse (decide (8 ≤ k.vq.length)) .queueFull none
    (goCore c (fun k => ({ k with vl := BitVec.ofNat 13 n }).setG x.gX (BitVec.ofNat 64 n)))

/-- R113: hold until every earlier vector instruction has retired. -/
def mVxSync (c : CoreId) (f : VF) (s : State) : Issue :=
  if (s.core c).vq.isEmpty then .go id else .hold .vxSync

/-- R114, R115: add of FP32, FP16 or BF16 elements. -/
def mVxAdd (c : CoreId) (f : VF) (x : ExtA) (s : State) : Issue :=
  vArithIssue c (.vxAdd c f x) x false true s

/-- R114, R115: sub of FP32, FP16 or BF16 elements. -/
def mVxSub (c : CoreId) (f : VF) (x : ExtA) (s : State) : Issue :=
  vArithIssue c (.vxSub c f x) x false true s

/-- R114, R115: mul of FP32, FP16 or BF16 elements. -/
def mVxMul (c : CoreId) (f : VF) (x : ExtA) (s : State) : Issue :=
  vArithIssue c (.vxMul c f x) x false true s

/-- R114, R115: div of FP32, FP16 or BF16 elements. -/
def mVxDiv (c : CoreId) (f : VF) (x : ExtA) (s : State) : Issue :=
  vArithIssue c (.vxDiv c f x) x false true s

/-- R115: a fused multiply and add or subtract; AUX names vc. -/
def mVxFma (c : CoreId) (f : VF) (x : ExtA) (s : State) : Issue :=
  vArithIssue c (.vxFma c f x) x false true s

/-- R115: a fused multiply and add or subtract; AUX names vc. -/
def mVxFms (c : CoreId) (f : VF) (x : ExtA) (s : State) : Issue :=
  vArithIssue c (.vxFms c f x) x false true s

/-- R115: the correctly rounded square root. -/
def mVxSqrt (c : CoreId) (f : VF) (x : ExtA) (s : State) : Issue :=
  vArithIssue c (.vxSqrt c f x) x false true s

/-- R39, R114: FP64 is accepted too. -/
def mVxMax (c : CoreId) (f : VF) (x : ExtA) (s : State) : Issue :=
  vArithIssue c (.vxMax c f x) x true false s

/-- R39, R114: FP64 is accepted too. -/
def mVxMin (c : CoreId) (f : VF) (x : ExtA) (s : State) : Issue :=
  vArithIssue c (.vxMin c f x) x true false s

/-- R38, R114: a sign operation on the bits; FP64 is accepted too. -/
def mVxAbs (c : CoreId) (f : VF) (x : ExtA) (s : State) : Issue :=
  vArithIssue c (.vxAbs c f x) x true false s

/-- R38, R114: a sign operation on the bits; FP64 is accepted too. -/
def mVxNeg (c : CoreId) (f : VF) (x : ExtA) (s : State) : Issue :=
  vArithIssue c (.vxNeg c f x) x true false s

/-- R38, R114: a sign operation on the bits; the list of R114 leaves FP64 out. -/
def mVxCpsgn (c : CoreId) (f : VF) (x : ExtA) (s : State) : Issue :=
  vArithIssue c (.vxCpsgn c f x) x false false s

/-- R115: round to an integral value. -/
def mVxRndi (c : CoreId) (f : VF) (x : ExtA) (s : State) : Issue :=
  vArithIssue c (.vxRndi c f x) x false true s

/-- R115: a × 2^b. -/
def mVxLdexp (c : CoreId) (f : VF) (x : ExtA) (s : State) : Issue :=
  vArithIssue c (.vxLdexp c f x) x false true s

/-- R115: ilogb as an integral FP32 value, so vd holds 32-bit elements. -/
def mVxGetexp (c : CoreId) (f : VF) (x : ExtA) (s : State) : Issue :=
  let k := s.core c
  vIssue c (.vxGetexp c f x) [(!(isArith x.f1), 0x2010), (vlBad k 32, 0x2012)] 0 0 none 0 s

/-- R114, R115: a compare into a mask register; FP64 is accepted too. -/
def mVxCmp (c : CoreId) (f : VF) (x : ExtA) (s : State) : Issue :=
  vArithIssue c (.vxCmp c f x) x true false s

/-- R116, R118: FP32 only; vd and vl differ. -/
def mVxTwosum (c : CoreId) (f : VF) (x : ExtA) (s : State) : Issue :=
  let k := s.core c
  vIssue c (.vxTwosum c f x) [(x.f1 != 0, 0x2010), (f.vd == x.aux, 0x2011), (vlBad k 32, 0x2012)] 0 0 none 0 s

/-- R116: FP32 only. -/
def mVxMullo (c : CoreId) (f : VF) (x : ExtA) (s : State) : Issue :=
  let k := s.core c
  vIssue c (.vxMullo c f x) [(x.f1 != 0, 0x2010), (vlBad k 32, 0x2012)] 0 0 none 0 s

/-- R114, R115: an integer operation of 8, 16, 32 or 64 bits; it wraps and sets no flag. -/
def mVxIadd (c : CoreId) (f : VF) (x : ExtA) (s : State) : Issue :=
  vIntIssue c (.vxIadd c f x) x s

/-- R114, R115: an integer operation of 8, 16, 32 or 64 bits; it wraps and sets no flag. -/
def mVxIsub (c : CoreId) (f : VF) (x : ExtA) (s : State) : Issue :=
  vIntIssue c (.vxIsub c f x) x s

/-- R114, R115: an integer operation of 8, 16, 32 or 64 bits; it wraps and sets no flag. -/
def mVxAnd (c : CoreId) (f : VF) (x : ExtA) (s : State) : Issue :=
  vIntIssue c (.vxAnd c f x) x s

/-- R114, R115: an integer operation of 8, 16, 32 or 64 bits; it wraps and sets no flag. -/
def mVxOr (c : CoreId) (f : VF) (x : ExtA) (s : State) : Issue :=
  vIntIssue c (.vxOr c f x) x s

/-- R114, R115: an integer operation of 8, 16, 32 or 64 bits; it wraps and sets no flag. -/
def mVxXor (c : CoreId) (f : VF) (x : ExtA) (s : State) : Issue :=
  vIntIssue c (.vxXor c f x) x s

/-- R114, R115: an integer operation of 8, 16, 32 or 64 bits; it wraps and sets no flag. -/
def mVxShl (c : CoreId) (f : VF) (x : ExtA) (s : State) : Issue :=
  vIntIssue c (.vxShl c f x) x s

/-- R114, R115: an integer operation of 8, 16, 32 or 64 bits; it wraps and sets no flag. -/
def mVxShr (c : CoreId) (f : VF) (x : ExtA) (s : State) : Issue :=
  vIntIssue c (.vxShr c f x) x s

/-- R114, R115: an integer operation of 8, 16, 32 or 64 bits; it wraps and sets no flag. -/
def mVxSra (c : CoreId) (f : VF) (x : ExtA) (s : State) : Issue :=
  vIntIssue c (.vxSra c f x) x s

/-- R114, R115: an integer operation of 8, 16, 32 or 64 bits; it wraps and sets no flag. -/
def mVxImin (c : CoreId) (f : VF) (x : ExtA) (s : State) : Issue :=
  vIntIssue c (.vxImin c f x) x s

/-- R114, R115: an integer operation of 8, 16, 32 or 64 bits; it wraps and sets no flag. -/
def mVxImax (c : CoreId) (f : VF) (x : ExtA) (s : State) : Issue :=
  vIntIssue c (.vxImax c f x) x s

/-- R114, R115: an integer operation of 8, 16, 32 or 64 bits; it wraps and sets no flag. -/
def mVxImul (c : CoreId) (f : VF) (x : ExtA) (s : State) : Issue :=
  vIntIssue c (.vxImul c f x) x s

/-- R117: a contiguous load. -/
def mVxLd (c : CoreId) (f : VF) (x : ExtM) (s : State) : Issue :=
  vRunIssue c (.vxLd c f x) x pLD s

/-- R117: a contiguous store. -/
def mVxSt (c : CoreId) (f : VF) (x : ExtM) (s : State) : Issue :=
  vRunIssue c (.vxSt c f x) x pST s

/-- R117: a strided load. -/
def mVxLds (c : CoreId) (f : VF) (x : ExtM) (s : State) : Issue :=
  vStrideIssue c (.vxLds c f x) x pLD s

/-- R117: a strided store. -/
def mVxSts (c : CoreId) (f : VF) (x : ExtM) (s : State) : Issue :=
  vStrideIssue c (.vxSts c f x) x pST s

/-- R117: an indexed form; it is held while an earlier instruction still writes its indices or its mask. -/
def mVxLdx (c : CoreId) (f : VF) (x : ExtM) (s : State) : Issue :=
  let k := s.core c
  let busy := k.vq.any (fun e => ((vDep e.instr).wr &&& bitOf f.vb) != 0 || ((vDep e.instr).mwr &&& govern f) != 0)
  vIndexIssue c (.vxLdx c f x) f x pLD busy s

/-- R117: an indexed form; it is held while an earlier instruction still writes its indices or its mask. -/
def mVxStx (c : CoreId) (f : VF) (x : ExtM) (s : State) : Issue :=
  let k := s.core c
  let busy := k.vq.any (fun e => ((vDep e.instr).wr &&& bitOf f.vb) != 0 || ((vDep e.instr).mwr &&& govern f) != 0)
  vIndexIssue c (.vxStx c f x) f x pST busy s

/-- R59, R117: line gL of the panel at gP; VL is a multiple of 32. -/
def mVxPackPnl (c : CoreId) (f : VF) (x : ExtM) (s : State) : Issue :=
  let k := s.core c
  let a := k.getG x.gX
  let l := k.getG x.gY
  let w := fmtWidth x.fmt
  let n := k.vl.toNat
  let first := (panelPlace w l.toNat 0).1
  let last := (panelPlace w l.toNat (n - 1)).1 + (if w = 6 then 3 else 4)
  vIssue c (.vxPackPnl c f x) ([(!(isMx x.fmt), 0x2010), (decide (32 ≤ l.toNat) || a.toNat % 16 != 0, 0x2014),
    (vlBad k w || n % 32 != 0, 0x2012)] ++ (if n = 0 then [] else vSpanFaults (k.getC x.cM) pST (a.toNat + first) (a.toNat + last))) a l none 0 s

/-- R122, R123: 2,048 bytes of the head tile from row gR; held while the queue is empty. gR is held to the format of the entry it
will read, which stands behind those that earlier queued vx.tqpop take. -/
def mVxTqrd (c : CoreId) (f : VF) (x : ExtM) (s : State) : Issue :=
  let k := s.core c
  let fmt := (((k.tileQueue.drop (tqPops k)).headD ⟨[], []⟩).hdr.getD 9 0).toNat % 16
  let r := (k.getG x.gX).toNat
  if tqLeft k = 0 then .hold .tqEmpty
  else vIssue c (.vxTqrd c f x) [(!(r == 0 || (fmt == 0 && r == 16)), 0x2014)] (k.getG x.gX) 0 none 0 s

/-- R122, R123: header word gW of the head tile. -/
def mVxTqhdr (c : CoreId) (f : VF) (x : ExtM) (s : State) : Issue :=
  let k := s.core c
  if tqLeft k = 0 then .hold .tqEmpty
  else vIssue c (.vxTqhdr c f x) [(decide (8 ≤ (k.getG x.gY).toNat), 0x2014)] 0 (k.getG x.gY) none x.gX s

/-- R122, R123: remove the head tile when it retires. -/
def mVxTqpop (c : CoreId) (f : VF) (s : State) : Issue :=
  let k := s.core c
  if tqLeft k = 0 then .hold .tqEmpty
  else vIssue c (.vxTqpop c f) [] 0 0 none 0 s

/-- R118: copy the whole register, whatever VL is. -/
def mVxMv (c : CoreId) (f : VF) (s : State) : Issue :=
  vIssue c (.vxMv c f) [] 0 0 none 0 s

/-- R118: gS to every element below VL. -/
def mVxBcst (c : CoreId) (f : VF) (x : ExtM) (s : State) : Issue :=
  let k := s.core c
  vIssue c (.vxBcst c f x) [((fmtOf x.fmt).isNone, 0x2010), (vlBad k (fmtWidth x.fmt), 0x2012)] (k.getG x.gX) 0 none 0 s

/-- R118: element gI into gD; the index is checked against VLMAX. R108: with VL = 0 it writes nothing. -/
def mVxExt (c : CoreId) (f : VF) (x : ExtM) (s : State) : Issue :=
  let k := s.core c
  vIssue c (.vxExt c f x) [((fmtOf x.fmt).isNone, 0x2010), (decide (vlmax (fmtWidth x.fmt) ≤ (k.getG x.gY).toNat), 0x2014),
    (vlBad k (fmtWidth x.fmt), 0x2012)] 0 (k.getG x.gY) none (if k.vl = 0 then 0 else x.gX) s

/-- R118: gS into element gI; no other element is written. -/
def mVxIns (c : CoreId) (f : VF) (x : ExtM) (s : State) : Issue :=
  let k := s.core c
  vIssue c (.vxIns c f x) [((fmtOf x.fmt).isNone, 0x2010), (decide (vlmax (fmtWidth x.fmt) ≤ (k.getG x.gY).toNat), 0x2014),
    (vlBad k (fmtWidth x.fmt), 0x2012)] (k.getG x.gX) (k.getG x.gY) none 0 s

/-- R118: vd[i] = va[vi[i]]. -/
def mVxPerm (c : CoreId) (f : VF) (x : ExtA) (s : State) : Issue :=
  vPermIssue c (.vxPerm c f x) x.f1 (f.vd == f.va || f.vd == f.vb) s

/-- R118: shuffle p, which AUX carries. -/
def mVxShuf (c : CoreId) (f : VF) (x : ExtA) (s : State) : Issue :=
  vPermIssue c (.vxShuf c f x) x.f1 (f.vd == f.va || f.vd == f.vb) s

/-- R118: narrow integers from two sources; wfrom in F1, wto in F2. -/
def mVxPack (c : CoreId) (f : VF) (x : ExtA) (s : State) : Issue :=
  let k := s.core c
  let a := (intWidth x.f1).getD 0
  let b := (intWidth x.f2).getD 0
  vIssue c (.vxPack c f x) [(a == 0 || b == 0 || decide (a ≤ b), 0x2010), (f.vd == f.va || f.vd == f.vb, 0x2011), (vlBad k a, 0x2012)] 0 0 none 0 s

/-- R118: widen integers; wfrom in F1, wto in F2. -/
def mVxUnpack (c : CoreId) (f : VF) (x : ExtA) (s : State) : Issue :=
  let k := s.core c
  let a := (intWidth x.f1).getD 0
  let b := (intWidth x.f2).getD 0
  vIssue c (.vxUnpack c f x) [(a == 0 || b == 0 || decide (b ≤ a), 0x2010), (f.vd == f.va, 0x2011), (vlBad k b, 0x2012)] 0 0 none 0 s

/-- R118: the selected elements, packed. -/
def mVxCompress (c : CoreId) (f : VF) (x : ExtA) (s : State) : Issue :=
  vPermIssue c (.vxCompress c f x) x.f1 (f.vd == f.va) s

/-- R118: elements from 0 upward to the selected positions. -/
def mVxExpand (c : CoreId) (f : VF) (x : ExtA) (s : State) : Issue :=
  vPermIssue c (.vxExpand c f x) x.f1 (f.vd == f.va) s

/-- R118: mask logic over 4,096 bits; a destination that is also a source is refused. -/
def mVxMand (c : CoreId) (f : VF) (s : State) : Issue :=
  vIssue c (.vxMand c f) [(f.vd == f.va || f.vd == f.vb, 0x2011)] 0 0 none 0 s

/-- R118: mask logic over 4,096 bits; a destination that is also a source is refused. -/
def mVxMor (c : CoreId) (f : VF) (s : State) : Issue :=
  vIssue c (.vxMor c f) [(f.vd == f.va || f.vd == f.vb, 0x2011)] 0 0 none 0 s

/-- R118: mask logic over 4,096 bits; a destination that is also a source is refused. -/
def mVxMxor (c : CoreId) (f : VF) (s : State) : Issue :=
  vIssue c (.vxMxor c f) [(f.vd == f.va || f.vd == f.vb, 0x2011)] 0 0 none 0 s

/-- R118: mask logic over 4,096 bits; a destination that is also a source is refused. -/
def mVxMnot (c : CoreId) (f : VF) (s : State) : Issue :=
  vIssue c (.vxMnot c f) [(f.vd == f.va, 0x2011)] 0 0 none 0 s

/-- R118: a count or an index of vm's bits below VL, into gD. -/
def mVxMpop (c : CoreId) (f : VF) (x : ExtM) (s : State) : Issue :=
  vIssue c (.vxMpop c f x) [] 0 0 none x.gX s

/-- R118: a count or an index of vm's bits below VL, into gD. -/
def mVxMfirst (c : CoreId) (f : VF) (x : ExtM) (s : State) : Issue :=
  vIssue c (.vxMfirst c f x) [] 0 0 none x.gX s

/-- R118, R119: F1 to F2, with block scales in vs for a block format. vs counts as a source and a destination, whatever the
formats. -/
def mVxCvt (c : CoreId) (f : VF) (x : ExtA) (s : State) : Issue :=
  let k := s.core c
  let bad (q : BitVec 4) : Bool := (fmtOf q).isNone || q == 0xA
  let wf := fmtWidth x.f1
  let wt := fmtWidth x.f2
  vIssue c (.vxCvt c f x) [(bad x.f1 || bad x.f2, 0x2010),
    ((wf != wt && f.vd == f.va) || f.vb == f.vd || f.vb == f.va, 0x2011), (vlBad k wf || vlBad k wt, 0x2012)] 0 0
    (srUse k x.rnd) 0 s

/-- R118, R124: digit i of each element; E from gE. -/
def mVxSlc (c : CoreId) (f : VF) (x : ExtM) (s : State) : Issue :=
  let k := s.core c
  let w := fmtWidth x.fmt
  vIssue c (.vxSlc c f x) [(!(isArith x.fmt || isFp64 x.fmt), 0x2010), (decide (k.fld 0x1300 3 0 ≤ x.aux.toNat), 0x2014),
    ((w != 8 && f.vd == f.va) || f.vb == f.vd || f.vb == f.va, 0x2011), (vlBad k w, 0x2012)] (k.getG x.gX) 0 none 0 s

/-- R117, R125: VL welt elements from gW, read through the fold engine's queue. -/
def mVxWrd (c : CoreId) (f : VF) (x : ExtM) (s : State) : Issue :=
  let k := s.core c
  let a := k.getG x.gX
  Issue.andThen (vIssue c (.vxWrd c f x) ([(!(x.fmt == 0 || x.fmt == 0xB), 0x2010), (vlBad k (fmtWidth x.fmt), 0x2012)] ++
    vSpanFaults (k.getC x.cM) pLD a.toNat (a.toNat + 80 * k.vl.toNat)) a (k.getG x.gY) (srUse k x.rnd) 0 s)
    (fun s => s.updCore c (fun k => { k with feq := k.feq ++ [.welt] }))

/-- R120: draws of stream 2 or 3. -/
def mVxDraw (c : CoreId) (f : VF) (x : ExtA) (s : State) : Issue :=
  let k := s.core c
  let st := x.aux.toNat
  vIssue c (.vxDraw c f x) [(!(st == 2 || st == 3), 0x2014), (vlBad k 32, 0x2012)] 0 0 (if st = 2 ∨ st = 3 then some (st, ceilDiv k.vl.toNat 4) else none) 0 s

/-- R120: draws of stream 2 or 3. -/
def mVxDrawu (c : CoreId) (f : VF) (x : ExtA) (s : State) : Issue :=
  let k := s.core c
  let st := x.aux.toNat
  vIssue c (.vxDrawu c f x) [(!(st == 2 || st == 3), 0x2014), (vlBad k 32, 0x2012)] 0 0 (if st = 2 ∨ st = 3 then some (st, ceilDiv k.vl.toNat 4) else none) 0 s

/-- R121: an FP32 sum into gD. -/
def mVxRsum (c : CoreId) (f : VF) (x : ExtM) (s : State) : Issue :=
  let k := s.core c
  vIssue c (.vxRsum c f x) [(!(isArith x.fmt), 0x2010), (vlBad k (fmtWidth x.fmt), 0x2012)] 0 0 none x.gX s

/-- R121: an FP32 sum into every element of vd below VL. -/
def mVxRsumB (c : CoreId) (f : VF) (x : ExtA) (s : State) : Issue :=
  let k := s.core c
  vIssue c (.vxRsumB c f x) [(!(isArith x.f1), 0x2010), (vlBad k 32, 0x2012)] 0 0 none 0 s

/-- R39, R121: into gD; FP64 is accepted (R114). -/
def mVxRmax (c : CoreId) (f : VF) (x : ExtM) (s : State) : Issue :=
  let k := s.core c
  vIssue c (.vxRmax c f x) [(!(isArith x.fmt || isFp64 x.fmt), 0x2010), (vlBad k (fmtWidth x.fmt), 0x2012)] 0 0 none x.gX s

/-- R39, R121: into every element of vd below VL. -/
def mVxRmaxB (c : CoreId) (f : VF) (x : ExtA) (s : State) : Issue :=
  vArithIssue c (.vxRmaxB c f x) x true false s

/-- R39, R121: into gD; FP64 is accepted (R114). -/
def mVxRmin (c : CoreId) (f : VF) (x : ExtM) (s : State) : Issue :=
  let k := s.core c
  vIssue c (.vxRmin c f x) [(!(isArith x.fmt || isFp64 x.fmt), 0x2010), (vlBad k (fmtWidth x.fmt), 0x2012)] 0 0 none x.gX s

/-- R39, R121: into every element of vd below VL. -/
def mVxRminB (c : CoreId) (f : VF) (x : ExtA) (s : State) : Issue :=
  vArithIssue c (.vxRminB c f x) x true false s

/-- R121: a 64-bit integer sum into gD. -/
def mVxRsumi (c : CoreId) (f : VF) (x : ExtM) (s : State) : Issue :=
  let k := s.core c
  vIssue c (.vxRsumi c f x) [((intWidth x.fmt).isNone, 0x2010), (vlBad k ((intWidth x.fmt).getD 8), 0x2012)] 0 0 none x.gX s

/-- R121: a 64-bit integer sum into every element of vd below VL. -/
def mVxRsumiB (c : CoreId) (f : VF) (x : ExtA) (s : State) : Issue :=
  let k := s.core c
  vIssue c (.vxRsumiB c f x) [((intWidth x.f1).isNone, 0x2010), (vlBad k 64, 0x2012)] 0 0 none 0 s

/-- R121: one FP32 element for each block of 32. -/
def mVxRmaxBlk (c : CoreId) (f : VF) (x : ExtA) (s : State) : Issue :=
  vArithIssue c (.vxRmaxBlk c f x) x false false s

/-- R121: one FP32 element for each block of 32. -/
def mVxRsumBlk (c : CoreId) (f : VF) (x : ExtA) (s : State) : Issue :=
  vArithIssue c (.vxRsumBlk c f x) x false false s

/-! ## Running -/

/-- R37: rounded once. -/
def runVxAdd (k : Core) (e : VEntry) (f : VF) (x : ExtA) (lo hi fr : Nat) : Core :=
  k.vBin f x e.hem.toNat lo hi addX

/-- R37: rounded once. -/
def runVxSub (k : Core) (e : VEntry) (f : VF) (x : ExtA) (lo hi fr : Nat) : Core :=
  k.vBin f x e.hem.toNat lo hi subX

/-- R37: rounded once. -/
def runVxMul (k : Core) (e : VEntry) (f : VF) (x : ExtA) (lo hi fr : Nat) : Core :=
  k.vBin f x e.hem.toNat lo hi mulX

/-- R115: rounded once. -/
def runVxDiv (k : Core) (e : VEntry) (f : VF) (x : ExtA) (lo hi fr : Nat) : Core :=
  k.vBin f x e.hem.toNat lo hi divX

/-- R115: rounded once. -/
def runVxFma (k : Core) (e : VEntry) (f : VF) (x : ExtA) (lo hi fr : Nat) : Core :=
  k.vTern f x e.hem.toNat lo hi fmaX

/-- R115: rounded once. -/
def runVxFms (k : Core) (e : VEntry) (f : VF) (x : ExtA) (lo hi fr : Nat) : Core :=
  k.vTern f x e.hem.toNat lo hi (fun a b d => fmaX a b d.neg)

/-- R115: rounded once. -/
def runVxSqrt (k : Core) (e : VEntry) (f : VF) (x : ExtA) (lo hi fr : Nat) : Core :=
  k.vUn f x e.hem.toNat lo hi sqrtX

/-- R39. -/
def runVxMax (k : Core) (e : VEntry) (f : VF) (x : ExtA) (lo hi fr : Nat) : Core :=
  match ffmtOf x.f1 with | some g => k.vBits f g.width lo hi (g.maxMin true) | none => k

/-- R39. -/
def runVxMin (k : Core) (e : VEntry) (f : VF) (x : ExtA) (lo hi fr : Nat) : Core :=
  match ffmtOf x.f1 with | some g => k.vBits f g.width lo hi (g.maxMin false) | none => k

/-- R38, R115: never signals. -/
def runVxAbs (k : Core) (e : VEntry) (f : VF) (x : ExtA) (lo hi fr : Nat) : Core :=
  let w := fmtWidth x.f1
  k.vBits f w lo hi (fun a _ => (a % 2 ^ (w - 1), false))

/-- R38, R115: never signals. -/
def runVxNeg (k : Core) (e : VEntry) (f : VF) (x : ExtA) (lo hi fr : Nat) : Core :=
  let w := fmtWidth x.f1
  k.vBits f w lo hi (fun a _ => (a ^^^ 2 ^ (w - 1), false))

/-- R38, R115: never signals. -/
def runVxCpsgn (k : Core) (e : VEntry) (f : VF) (x : ExtA) (lo hi fr : Nat) : Core :=
  let w := fmtWidth x.f1
  k.vBits f w lo hi (fun a b => (a % 2 ^ (w - 1) + b / 2 ^ (w - 1) * 2 ^ (w - 1), false))

/-- R115: roundToIntegralExact. -/
def runVxRndi (k : Core) (e : VEntry) (f : VF) (x : ExtA) (lo hi fr : Nat) : Core :=
  match ffmtOf x.f1 with
  | some g => k.vPut f g.width lo hi (fun i => (rndiX g (k.vRound x.rnd e.hem.toNat i) (g.decode (elem g.width (k.vreg f.va) i))).pair)
  | none => k

/-- R115: rounded once. -/
def runVxLdexp (k : Core) (e : VEntry) (f : VF) (x : ExtA) (lo hi fr : Nat) : Core :=
  match ffmtOf x.f1 with
  | some g => k.vPut f g.width lo hi (fun i =>
      let r := ldexpX (g.decode (elem g.width (k.vreg f.va) i)) (g.decode (elem g.width (k.vreg f.vb) i))
      let q := g.write (k.vRound x.rnd e.hem.toNat i) k.vSat r.1
      (q.bits, q.fl.or r.2))
  | none => k

/-- R115. -/
def runVxGetexp (k : Core) (e : VEntry) (f : VF) (x : ExtA) (lo hi fr : Nat) : Core :=
  match ffmtOf x.f1 with
  | some g => k.vPut f 32 lo hi (fun i => (getexpX (g.decode (elem g.width (k.vreg f.va) i))).pair)
  | none => k

/-- R115: the mask bit of each active element; a signalling NaN is invalid (R37). -/
def runVxCmp (k : Core) (e : VEntry) (f : VF) (x : ExtA) (lo hi fr : Nat) : Core :=
  match ffmtOf x.f1 with
  | some g =>
    let r := vMap k f 1 lo hi (k.vmask (mreg f.vd)) (fun i =>
      let a := g.decode (elem g.width (k.vreg f.va) i)
      let b := g.decode (elem g.width (k.vreg f.vb) i)
      ((cmpCond x.aux.toNat a b).toNat, { nv := a.isSNaN || b.isSNaN }))
    (k.setVm (mreg f.vd) r.1).raiseFlags 4 r.2
  | none => k

/-- R116: the rounded sum in vd and its error in vl, which AUX names. -/
def runVxTwosum (k : Core) (e : VEntry) (f : VF) (x : ExtA) (lo hi fr : Nat) : Core :=
  let hiR := vMap k f 32 lo hi (k.vreg f.vd) (fun i => (twosum (elem 32 (k.vreg f.va) i) (elem 32 (k.vreg f.vb) i)).1.pair)
  let loR := vMap k f 32 lo hi (k.vreg x.aux) (fun i => (twosum (elem 32 (k.vreg f.va) i) (elem 32 (k.vreg f.vb) i)).2.pair)
  ((k.setV f.vd hiR.1).setV x.aux loR.1).raiseFlags 4 (hiR.2.or loR.2)

/-- R116: the low part of the product. -/
def runVxMullo (k : Core) (e : VEntry) (f : VF) (x : ExtA) (lo hi fr : Nat) : Core :=
  k.vPut f 32 lo hi (fun i => (mullo (elem 32 (k.vreg f.va) i) (elem 32 (k.vreg f.vb) i)).pair)

/-- R115. -/
def runVxIadd (k : Core) (e : VEntry) (f : VF) (x : ExtA) (lo hi fr : Nat) : Core :=
  k.vInt f x lo hi (fun _ a b => a + b)

/-- R115. -/
def runVxIsub (k : Core) (e : VEntry) (f : VF) (x : ExtA) (lo hi fr : Nat) : Core :=
  k.vInt f x lo hi (fun w a b => a + 2 ^ w - b)

/-- R115. -/
def runVxAnd (k : Core) (e : VEntry) (f : VF) (x : ExtA) (lo hi fr : Nat) : Core :=
  k.vInt f x lo hi (fun _ a b => a &&& b)

/-- R115. -/
def runVxOr (k : Core) (e : VEntry) (f : VF) (x : ExtA) (lo hi fr : Nat) : Core :=
  k.vInt f x lo hi (fun _ a b => a ||| b)

/-- R115. -/
def runVxXor (k : Core) (e : VEntry) (f : VF) (x : ExtA) (lo hi fr : Nat) : Core :=
  k.vInt f x lo hi (fun _ a b => a ^^^ b)

/-- R115. -/
def runVxShl (k : Core) (e : VEntry) (f : VF) (x : ExtA) (lo hi fr : Nat) : Core :=
  k.vInt f x lo hi (fun w a b => shiftElem w true false a b)

/-- R115. -/
def runVxShr (k : Core) (e : VEntry) (f : VF) (x : ExtA) (lo hi fr : Nat) : Core :=
  k.vInt f x lo hi (fun w a b => shiftElem w false false a b)

/-- R115. -/
def runVxSra (k : Core) (e : VEntry) (f : VF) (x : ExtA) (lo hi fr : Nat) : Core :=
  k.vInt f x lo hi (fun w a b => shiftElem w false true a b)

/-- R115: the smaller; elements compare as signed (DESIGN CHOICE, log 93). -/
def runVxImin (k : Core) (e : VEntry) (f : VF) (x : ExtA) (lo hi fr : Nat) : Core :=
  k.vInt f x lo hi (fun w a b => if intElem w a < intElem w b then a else b)

/-- R115: the larger; elements compare as signed (DESIGN CHOICE, log 93). -/
def runVxImax (k : Core) (e : VEntry) (f : VF) (x : ExtA) (lo hi fr : Nat) : Core :=
  k.vInt f x lo hi (fun w a b => if intElem w a < intElem w b then b else a)

/-- R115. -/
def runVxImul (k : Core) (e : VEntry) (f : VF) (x : ExtA) (lo hi fr : Nat) : Core :=
  k.vInt f x lo hi (fun _ a b => a * b)

/-- R117: where a load finds element i: the byte and the bits above it. -/
def vLoadAt (k : Core) (e : VEntry) (w i : Nat) : Nat × Nat :=
  match e.instr with
  | .vxLd _ _ _ => (e.x.toNat, w * i)
  | .vxLds _ _ _ => ((e.x.toNat + i * e.y.toInt).toNat, 0)
  | .vxLdx _ f _ => (e.x.toNat + vIndex k f.vb i, 0)
  | _ => (0, 0)

/-- R126: elements lo to hi − 1 of a load meet a poisoned word. -/
def vMeetsPoison (k : Core) (e : VEntry) (lo hi : Nat) : Bool :=
  match e.instr with
  | .vxLd _ f x | .vxLds _ f x | .vxLdx _ f x => match fmtOf x.fmt with
    | some g => (k.vLoadVals f g lo hi (vLoadAt k e g.width)).2
    | none => false
  | _ => false

/-- R117, R126: elements of a load; an instruction counts the poison it meets once. -/
def vLoadRun (k : Core) (e : VEntry) (f : VF) (x : ExtM) (lo hi : Nat) : Core :=
  match fmtOf x.fmt with
  | some g => (k.setV f.vd (k.vLoadVals f g lo hi (vLoadAt k e g.width)).1).countPoison (!e.pois && vMeetsPoison k e lo hi)
  | none => k

/-- R117, R126. -/
def runVxLd (k : Core) (e : VEntry) (f : VF) (x : ExtM) (lo hi fr : Nat) : Core := vLoadRun k e f x lo hi

/-- R109, R117. -/
def runVxSt (k : Core) (e : VEntry) (f : VF) (x : ExtM) (lo hi fr : Nat) : Core :=
  k.vStoreRun f (fmtWidth x.fmt) lo hi e.x.toNat

/-- R117, R126. -/
def runVxLds (k : Core) (e : VEntry) (f : VF) (x : ExtM) (lo hi fr : Nat) : Core := vLoadRun k e f x lo hi

/-- R117. -/
def runVxSts (k : Core) (e : VEntry) (f : VF) (x : ExtM) (lo hi fr : Nat) : Core :=
  k.vStoreEach f (fmtWidth x.fmt) lo hi (fun i => (e.x.toNat + i * e.y.toInt).toNat)

/-- R117, R126. -/
def runVxLdx (k : Core) (e : VEntry) (f : VF) (x : ExtM) (lo hi fr : Nat) : Core := vLoadRun k e f x lo hi

/-- R117. -/
def runVxStx (k : Core) (e : VEntry) (f : VF) (x : ExtM) (lo hi fr : Nat) : Core :=
  k.vStoreEach f (fmtWidth x.fmt) lo hi (fun i => e.x.toNat + vIndex k f.vb i)

/-- R59. -/
def runVxPackPnl (k : Core) (e : VEntry) (f : VF) (x : ExtM) (lo hi fr : Nat) : Core :=
  k.vPackPnl f (fmtWidth x.fmt) lo hi e.x.toNat e.y.toNat

/-- R122: an FP8 tile fills the lower half of vd. -/
def runVxTqrd (k : Core) (e : VEntry) (f : VF) (x : ExtM) (lo hi fr : Nat) : Core :=
  match k.tileQueue with
  | [] => k
  | t :: _ =>
    let fmt := (t.hdr.getD 9 0).toNat % 16
    let rowBytes := if fmt = 0 then 128 else if fmt = 2 then 64 else 32
    let n := if fmt = 3 ∨ fmt = 4 then 1024 else 2048
    let x := leNat ((t.data.drop (rowBytes * e.x.toNat)).take n)
    k.setV f.vd (if n = 1024 then setBits (k.vreg f.vd) 8191 0 x else x)

/-- R122. -/
def runVxTqpop (k : Core) (e : VEntry) (f : VF) (lo hi fr : Nat) : Core :=
  { k with tileQueue := k.tileQueue.drop 1 }

/-- R118, R128: the whole register, beat by beat; its elements are of 64 bits. -/
def runVxMv (k : Core) (e : VEntry) (f : VF) (lo hi fr : Nat) : Core :=
  k.setV f.vd ((span lo hi).foldl (fun acc i => setElem 64 acc i (elem 64 (k.vreg f.va) i)) (k.vreg f.vd))

/-- R118. -/
def runVxBcst (k : Core) (e : VEntry) (f : VF) (x : ExtM) (lo hi fr : Nat) : Core :=
  k.vPerm f (fmtWidth x.fmt) lo hi (fun _ => e.x.toNat % 2 ^ fmtWidth x.fmt)

/-- R118: under the governing mask. -/
def runVxIns (k : Core) (e : VEntry) (f : VF) (x : ExtM) (lo hi fr : Nat) : Core :=
  k.vPerm f (fmtWidth x.fmt) e.y.toNat (e.y.toNat + 1) (fun _ => e.x.toNat % 2 ^ fmtWidth x.fmt)

/-- R118: an index at or beyond VL gives 0. -/
def runVxPerm (k : Core) (e : VEntry) (f : VF) (x : ExtA) (lo hi fr : Nat) : Core :=
  let w := fmtWidth x.f1
  k.vPerm f w lo hi (fun i =>
    let j := elem w (k.vreg f.vb) i
    if j < e.vl then elem w (k.vreg f.va) j else 0)

/-- R118. -/
def runVxShuf (k : Core) (e : VEntry) (f : VF) (x : ExtA) (lo hi fr : Nat) : Core :=
  k.vPerm f (fmtWidth x.f1) lo hi (shufElem x.aux.toNat (fmtWidth x.f1) e.vl (k.vreg f.va) (k.vreg f.vb))

/-- R118: the low half of the positions comes from va, the rest from vb (log 31). -/
def runVxPack (k : Core) (e : VEntry) (f : VF) (x : ExtA) (lo hi fr : Nat) : Core :=
  let a := (intWidth x.f1).getD 8
  let b := (intWidth x.f2).getD 8
  let half := (e.vl + 1) / 2
  k.vPerm f b lo hi (fun i => (if i < half then elem a (k.vreg f.va) i else elem a (k.vreg f.vb) (i - half)) % 2 ^ b)

/-- R118: sign or zero extension; no field chooses between them, so the choice is a free value (log 31). -/
def runVxUnpack (k : Core) (e : VEntry) (f : VF) (x : ExtA) (lo hi fr : Nat) : Core :=
  let a := (intWidth x.f1).getD 8
  let b := (intWidth x.f2).getD 8
  k.vPerm f b lo hi (fun i =>
    let v := elem a (k.vreg f.va) i
    if fr % 2 = 1 then (intElem a v % (2 ^ b : Nat)).toNat else v)

/-- R118: the rest below VL stays, or is 0 under Z. -/
def runVxCompress (k : Core) (e : VEntry) (f : VF) (x : ExtA) (lo hi fr : Nat) : Core :=
  let w := fmtWidth x.f1
  let l := maskList (k.vmask f.vm) e.vl
  k.setV f.vd ((span lo hi).foldl (fun acc i =>
    match l[i]? with
    | some j => setElem w acc i (elem w (k.vreg f.va) j)
    | none => if f.z then setElem w acc i 0 else acc) (k.vreg f.vd))

/-- R118: the other positions below VL stay, or are 0 under Z. -/
def runVxExpand (k : Core) (e : VEntry) (f : VF) (x : ExtA) (lo hi fr : Nat) : Core :=
  let w := fmtWidth x.f1
  let m := k.vmask f.vm
  k.setV f.vd ((span lo hi).foldl (fun acc i =>
    if m.testBit i then setElem w acc i (elem w (k.vreg f.va) (maskList m i).length)
    else if f.z then setElem w acc i 0 else acc) (k.vreg f.vd))

/-- R118. -/
def runVxMand (k : Core) (e : VEntry) (f : VF) (lo hi fr : Nat) : Core :=
  k.setVm (mreg f.vd) (k.vmask (mreg f.va) &&& k.vmask (mreg f.vb))

/-- R118. -/
def runVxMor (k : Core) (e : VEntry) (f : VF) (lo hi fr : Nat) : Core :=
  k.setVm (mreg f.vd) (k.vmask (mreg f.va) ||| k.vmask (mreg f.vb))

/-- R118. -/
def runVxMxor (k : Core) (e : VEntry) (f : VF) (lo hi fr : Nat) : Core :=
  k.setVm (mreg f.vd) (k.vmask (mreg f.va) ^^^ k.vmask (mreg f.vb))

/-- R118. -/
def runVxMnot (k : Core) (e : VEntry) (f : VF) (lo hi fr : Nat) : Core :=
  k.setVm (mreg f.vd) ((2 ^ 4096 - 1) ^^^ k.vmask (mreg f.va))

/-- R45, R46, R119. -/
def runVxCvt (k : Core) (e : VEntry) (f : VF) (x : ExtA) (lo hi fr : Nat) : Core :=
  k.vCvt f x e.hem.toNat e.vl lo hi fr

/-- R100, R124. -/
def runVxSlc (k : Core) (e : VEntry) (f : VF) (x : ExtM) (lo hi fr : Nat) : Core :=
  (span (lo / 32) ((hi + 31) / 32)).foldl (k.slcBlock f x e.vl (e.ctl.getD k.vCtl).slices e.x.toInt) k

/-- R125. -/
def runVxWrd (k : Core) (e : VEntry) (f : VF) (x : ExtM) (lo hi fr : Nat) : Core :=
  k.vWrd f x e.hem.toNat lo hi e.x.toNat e.y.toInt

/-- R120. -/
def runVxDraw (k : Core) (e : VEntry) (f : VF) (x : ExtA) (lo hi fr : Nat) : Core :=
  k.vPut f 32 lo hi (fun i => (bitsOf (hemDraw (k.hemKey x.aux.toNat) ((e.hem.toNat + i / 4) % 2 ^ 64)) (32 * (i % 4) + 31) (32 * (i % 4)), {}))

/-- R120. -/
def runVxDrawu (k : Core) (e : VEntry) (f : VF) (x : ExtA) (lo hi fr : Nat) : Core :=
  k.vPut f 32 lo hi (fun i => ((fp32.write .rne true (.num false (bitsOf (hemDraw (k.hemKey x.aux.toNat) ((e.hem.toNat + i / 4) % 2 ^ 64)) (32 * (i % 4) + 31) (32 * (i % 4)) / 256) (-24) false)).bits, {}))

/-- R121. -/
def runVxRsumB (k : Core) (e : VEntry) (f : VF) (x : ExtA) (lo hi fr : Nat) : Core :=
  match ffmtOf x.f1 with
  | some g =>
    let r := k.vSum f g e.vl 0 (clog2 e.vl)
    (k.vFill f.vd 32 lo hi r.1).raiseFlags 4 r.2
  | none => k

/-- R121. -/
def runVxRmaxB (k : Core) (e : VEntry) (f : VF) (x : ExtA) (lo hi fr : Nat) : Core :=
  match ffmtOf x.f1 with
  | some g =>
    let r := k.vMaxMin f g true e.vl
    (k.vFill f.vd g.width lo hi r.1).raiseFlags 4 r.2
  | none => k

/-- R121. -/
def runVxRminB (k : Core) (e : VEntry) (f : VF) (x : ExtA) (lo hi fr : Nat) : Core :=
  match ffmtOf x.f1 with
  | some g =>
    let r := k.vMaxMin f g false e.vl
    (k.vFill f.vd g.width lo hi r.1).raiseFlags 4 r.2
  | none => k

/-- R121. -/
def runVxRsumiB (k : Core) (e : VEntry) (f : VF) (x : ExtA) (lo hi fr : Nat) : Core :=
  k.vFill f.vd 64 lo hi (k.vSumInt f ((intWidth x.f1).getD 8) e.vl)

/-- R121: element b of vd for block b. -/
def runVxRmaxBlk (k : Core) (e : VEntry) (f : VF) (x : ExtA) (lo hi fr : Nat) : Core :=
  match ffmtOf x.f1 with
  | some g => (List.range (ceilDiv e.vl 32)).foldl (fun q b =>
      let r := k.vBlkMax f g e.vl b
      (q.setV f.vd (setElem 32 (q.vreg f.vd) b r.1)).raiseFlags 4 r.2) k
  | none => k

/-- R121: element b of vd for block b. -/
def runVxRsumBlk (k : Core) (e : VEntry) (f : VF) (x : ExtA) (lo hi fr : Nat) : Core :=
  match ffmtOf x.f1 with
  | some g => (List.range (ceilDiv e.vl 32)).foldl (fun q b =>
      let r := k.vSum f g e.vl (32 * b) 5
      (q.setV f.vd (setElem 32 (q.vreg f.vd) b r.1)).raiseFlags 4 r.2) k
  | none => k

/-- What a vector instruction computes on elements lo to hi − 1; fr is a free value (log 23). An instruction whose result is a
general register computes it in vGreg. -/
def vRun (k : Core) (e : VEntry) (lo hi fr : Nat) : Core :=
  match e.instr with
  | .vxAdd _ f x => runVxAdd k e f x lo hi fr
  | .vxSub _ f x => runVxSub k e f x lo hi fr
  | .vxMul _ f x => runVxMul k e f x lo hi fr
  | .vxDiv _ f x => runVxDiv k e f x lo hi fr
  | .vxFma _ f x => runVxFma k e f x lo hi fr
  | .vxFms _ f x => runVxFms k e f x lo hi fr
  | .vxSqrt _ f x => runVxSqrt k e f x lo hi fr
  | .vxMax _ f x => runVxMax k e f x lo hi fr
  | .vxMin _ f x => runVxMin k e f x lo hi fr
  | .vxAbs _ f x => runVxAbs k e f x lo hi fr
  | .vxNeg _ f x => runVxNeg k e f x lo hi fr
  | .vxCpsgn _ f x => runVxCpsgn k e f x lo hi fr
  | .vxRndi _ f x => runVxRndi k e f x lo hi fr
  | .vxLdexp _ f x => runVxLdexp k e f x lo hi fr
  | .vxGetexp _ f x => runVxGetexp k e f x lo hi fr
  | .vxCmp _ f x => runVxCmp k e f x lo hi fr
  | .vxTwosum _ f x => runVxTwosum k e f x lo hi fr
  | .vxMullo _ f x => runVxMullo k e f x lo hi fr
  | .vxIadd _ f x => runVxIadd k e f x lo hi fr
  | .vxIsub _ f x => runVxIsub k e f x lo hi fr
  | .vxAnd _ f x => runVxAnd k e f x lo hi fr
  | .vxOr _ f x => runVxOr k e f x lo hi fr
  | .vxXor _ f x => runVxXor k e f x lo hi fr
  | .vxShl _ f x => runVxShl k e f x lo hi fr
  | .vxShr _ f x => runVxShr k e f x lo hi fr
  | .vxSra _ f x => runVxSra k e f x lo hi fr
  | .vxImin _ f x => runVxImin k e f x lo hi fr
  | .vxImax _ f x => runVxImax k e f x lo hi fr
  | .vxImul _ f x => runVxImul k e f x lo hi fr
  | .vxLd _ f x => runVxLd k e f x lo hi fr
  | .vxSt _ f x => runVxSt k e f x lo hi fr
  | .vxLds _ f x => runVxLds k e f x lo hi fr
  | .vxSts _ f x => runVxSts k e f x lo hi fr
  | .vxLdx _ f x => runVxLdx k e f x lo hi fr
  | .vxStx _ f x => runVxStx k e f x lo hi fr
  | .vxPackPnl _ f x => runVxPackPnl k e f x lo hi fr
  | .vxTqrd _ f x => runVxTqrd k e f x lo hi fr
  | .vxTqpop _ f => runVxTqpop k e f lo hi fr
  | .vxMv _ f => runVxMv k e f lo hi fr
  | .vxBcst _ f x => runVxBcst k e f x lo hi fr
  | .vxIns _ f x => runVxIns k e f x lo hi fr
  | .vxPerm _ f x => runVxPerm k e f x lo hi fr
  | .vxShuf _ f x => runVxShuf k e f x lo hi fr
  | .vxPack _ f x => runVxPack k e f x lo hi fr
  | .vxUnpack _ f x => runVxUnpack k e f x lo hi fr
  | .vxCompress _ f x => runVxCompress k e f x lo hi fr
  | .vxExpand _ f x => runVxExpand k e f x lo hi fr
  | .vxMand _ f => runVxMand k e f lo hi fr
  | .vxMor _ f => runVxMor k e f lo hi fr
  | .vxMxor _ f => runVxMxor k e f lo hi fr
  | .vxMnot _ f => runVxMnot k e f lo hi fr
  | .vxCvt _ f x => runVxCvt k e f x lo hi fr
  | .vxSlc _ f x => runVxSlc k e f x lo hi fr
  | .vxWrd _ f x => runVxWrd k e f x lo hi fr
  | .vxDraw _ f x => runVxDraw k e f x lo hi fr
  | .vxDrawu _ f x => runVxDrawu k e f x lo hi fr
  | .vxRsumB _ f x => runVxRsumB k e f x lo hi fr
  | .vxRmaxB _ f x => runVxRmaxB k e f x lo hi fr
  | .vxRminB _ f x => runVxRminB k e f x lo hi fr
  | .vxRsumiB _ f x => runVxRsumiB k e f x lo hi fr
  | .vxRmaxBlk _ f x => runVxRmaxBlk k e f x lo hi fr
  | .vxRsumBlk _ f x => runVxRsumBlk k e f x lo hi fr
  | _ => k

/-- The width of an instruction's widest register operand (R110). -/
def vWidth : Instr → Nat
  | .vxAdd _ f x => fmtWidth x.f1
  | .vxSub _ f x => fmtWidth x.f1
  | .vxMul _ f x => fmtWidth x.f1
  | .vxDiv _ f x => fmtWidth x.f1
  | .vxFma _ f x => fmtWidth x.f1
  | .vxFms _ f x => fmtWidth x.f1
  | .vxSqrt _ f x => fmtWidth x.f1
  | .vxMax _ f x => fmtWidth x.f1
  | .vxMin _ f x => fmtWidth x.f1
  | .vxAbs _ f x => fmtWidth x.f1
  | .vxNeg _ f x => fmtWidth x.f1
  | .vxCpsgn _ f x => fmtWidth x.f1
  | .vxRndi _ f x => fmtWidth x.f1
  | .vxLdexp _ f x => fmtWidth x.f1
  | .vxGetexp _ f x => 32
  | .vxCmp _ f x => fmtWidth x.f1
  | .vxTwosum _ f x => 32
  | .vxMullo _ f x => 32
  | .vxIadd _ f x => (intWidth x.f1).getD 8
  | .vxIsub _ f x => (intWidth x.f1).getD 8
  | .vxAnd _ f x => (intWidth x.f1).getD 8
  | .vxOr _ f x => (intWidth x.f1).getD 8
  | .vxXor _ f x => (intWidth x.f1).getD 8
  | .vxShl _ f x => (intWidth x.f1).getD 8
  | .vxShr _ f x => (intWidth x.f1).getD 8
  | .vxSra _ f x => (intWidth x.f1).getD 8
  | .vxImin _ f x => (intWidth x.f1).getD 8
  | .vxImax _ f x => (intWidth x.f1).getD 8
  | .vxImul _ f x => (intWidth x.f1).getD 8
  | .vxLd _ f x => fmtWidth x.fmt
  | .vxSt _ f x => fmtWidth x.fmt
  | .vxLds _ f x => fmtWidth x.fmt
  | .vxSts _ f x => fmtWidth x.fmt
  | .vxLdx _ f x => max 32 (fmtWidth x.fmt)
  | .vxStx _ f x => max 32 (fmtWidth x.fmt)
  | .vxPackPnl _ f x => fmtWidth x.fmt
  | .vxTqrd _ f x => 8
  | .vxTqpop _ f => 8
  | .vxTqhdr _ f x => 64
  | .vxMv _ f => 64
  | .vxBcst _ f x => fmtWidth x.fmt
  | .vxExt _ f x => 64
  | .vxIns _ f x => 64
  | .vxPerm _ f x => fmtWidth x.f1
  | .vxShuf _ f x => fmtWidth x.f1
  | .vxPack _ f x => (intWidth x.f1).getD 8
  | .vxUnpack _ f x => (intWidth x.f2).getD 8
  | .vxCompress _ f x => fmtWidth x.f1
  | .vxExpand _ f x => fmtWidth x.f1
  | .vxMand _ f => 4
  | .vxMor _ f => 4
  | .vxMxor _ f => 4
  | .vxMnot _ f => 4
  | .vxMpop _ f x => 4
  | .vxMfirst _ f x => 4
  | .vxCvt _ f x => max (fmtWidth x.f1) (fmtWidth x.f2)
  | .vxSlc _ f x => fmtWidth x.fmt
  | .vxWrd _ f x => fmtWidth x.fmt
  | .vxDraw _ f x => 32
  | .vxDrawu _ f x => 32
  | .vxRsum _ f x => fmtWidth x.fmt
  | .vxRsumB _ f x => 32
  | .vxRmax _ f x => fmtWidth x.fmt
  | .vxRmaxB _ f x => fmtWidth x.f1
  | .vxRmin _ f x => fmtWidth x.fmt
  | .vxRminB _ f x => fmtWidth x.f1
  | .vxRsumi _ f x => (intWidth x.fmt).getD 8
  | .vxRsumiB _ f x => 64
  | .vxRmaxBlk _ f x => fmtWidth x.f1
  | .vxRsumBlk _ f x => fmtWidth x.f1
  | _ => 64

/-- The elements an instruction has: those below VL, and for vx.mv all of the register (R108, R118). -/
def vElems (i : Instr) (vl : Nat) : Nat := match i with | .vxMv _ _ => Config.vlen / 64 | _ => vl

/-- R110: how many elements a number of finished beats covers; a block conversion and 6-bit elements finish whole blocks. -/
def vBeatElems (i : Instr) (vl beats : Nat) : Nat :=
  let vl := vElems i vl
  let w := vWidth i
  let n := beats * 1024 / w
  let blocks := match i with
    | .vxCvt _ _ x => isMx x.f1 || isMx x.f2
    | .vxSlc _ _ _ => true
    | _ => w == 6
  min vl (if blocks then n / 32 * 32 else n)

/-- R128: instructions that restart from beat 0: reductions, the permute group but vx.mv and vx.bcst, vx.tqrd, vx.wrd, and those
that write a general register. -/
def vRestarts : Instr → Bool
  | .vxTqrd _ _ _ | .vxTqhdr _ _ _ | .vxTqpop _ _ | .vxWrd _ _ _ => true
  | .vxExt _ _ _ | .vxIns _ _ _ | .vxPerm _ _ _ | .vxShuf _ _ _ | .vxPack _ _ _ | .vxUnpack _ _ _ | .vxCompress _ _ _
  | .vxExpand _ _ _ | .vxMand _ _ | .vxMor _ _ | .vxMxor _ _ | .vxMnot _ _ | .vxMpop _ _ _ | .vxMfirst _ _ _ => true
  | .vxRsum _ _ _ | .vxRsumB _ _ _ | .vxRmax _ _ _ | .vxRmaxB _ _ _ | .vxRmin _ _ _ | .vxRminB _ _ _ | .vxRsumi _ _ _
  | .vxRsumiB _ _ _ | .vxRmaxBlk _ _ _ | .vxRsumBlk _ _ _ => true
  | _ => false

/-- R112, R118, R121, R122: the general register that an instruction writes, its value and its flags. With VL = 0 vx.ext writes
nothing (R108); vx.mpop and vx.mfirst count no bit and give 0, and vx.tqhdr does not use VL (DEDUCED, log 91). -/
def vGreg (k : Core) (e : VEntry) : Option (GReg × Nat × NF) :=
  match e.instr with
  | .vxTqhdr _ _ x => some (x.gX, leNat (((k.tileQueue.headD ⟨[], []⟩).hdr.drop (8 * e.y.toNat)).take 8), {})
  | .vxExt _ f x => if e.vl = 0 then none else some (x.gX, elem (fmtWidth x.fmt) (k.vreg f.va) e.y.toNat, {})
  | .vxMpop _ f x => some (x.gX, (maskList (k.vmask f.vm) e.vl).length, {})
  | .vxMfirst _ f x => some (x.gX, (maskList (k.vmask f.vm) e.vl).headD e.vl, {})
  | .vxRsum _ f x =>
    (ffmtOf x.fmt).map (fun g => let r := k.vSum f g e.vl 0 (clog2 e.vl); (x.gX, r.1, r.2))
  | .vxRmax _ f x => (ffmtOf x.fmt).map (fun g => let r := k.vMaxMin f g true e.vl; (x.gX, r.1, r.2))
  | .vxRmin _ f x => (ffmtOf x.fmt).map (fun g => let r := k.vMaxMin f g false e.vl; (x.gX, r.1, r.2))
  | .vxRsumi _ f x => some (x.gX, k.vSumInt f ((intWidth x.fmt).getD 8) e.vl, {})
  | _ => none

/-- What a queue entry uses; a conversion of the stage sequencer works from memory to memory (R195). -/
def VEntry.dep (e : VEntry) : VDep :=
  match e.seq with
  | some _ => { mem := true, unit := (vDep e.instr).unit }
  | none => vDep e.instr

/-- Entry j must come before entry i: a register, a mask or tile memory that both use, or one unit (R110, R113, R180). -/
def vBefore (j i : VEntry) : Bool :=
  let a := j.dep
  let b := i.dep
  (a.wr &&& (b.rd ||| b.wr)) != 0 || (a.rd &&& b.wr) != 0 || (a.mwr &&& (b.mrd ||| b.mwr)) != 0 || (a.mrd &&& b.mwr) != 0 ||
    (a.mem && b.mem) || a.unit == b.unit

/-- Entry i of the vector queue may complete: no earlier entry that is still to compute must come before it. -/
def vReady (k : Core) (i : Nat) : Bool :=
  match k.vq[i]? with
  | none => false
  | some e => !e.done && !(k.vq.take i).any (fun j => !j.done && vBefore j e)

/-- The rounding field of a vector instruction that rounds. -/
def vRndOf : Instr → Option (BitVec 2)
  | .vxAdd _ _ x | .vxSub _ _ x | .vxMul _ _ x | .vxFma _ _ x | .vxFms _ _ x | .vxDiv _ _ x | .vxSqrt _ _ x | .vxRndi _ _ x
  | .vxLdexp _ _ x | .vxCvt _ _ x => some x.rnd
  | .vxWrd _ _ x => some x.rnd
  | _ => none

/-- The narrowest register operand of an instruction whose element i meets element i of every register; 0 where a scale register
goes with whole blocks. -/
def vNarrow : Instr → Nat
  | .vxCvt _ _ x => if isMx x.f1 || isMx x.f2 then 0 else min (fmtWidth x.f1) (fmtWidth x.f2)
  | .vxSlc _ _ _ => 0
  | .vxGetexp _ _ x => fmtWidth x.f1
  | .vxLdx _ _ x | .vxStx _ _ x => min 32 (fmtWidth x.fmt)
  | i => vWidth i

/-- R111: the finished beats of an earlier entry j let entry e finish b beats: j has finished all it writes, or chaining is on and
every element that e's beats use lies in j's finished beats. A unit, and the order of R113, serve one instruction after another. -/
def vChained (k : Core) (j e : VEntry) (b : Nat) : Bool :=
  let nj := vBeatElems j.instr j.vl j.beats
  let ne := vBeatElems e.instr e.vl b
  j.done || !vBefore j e ||
    (!vRestarts j.instr && j.seq.isNone &&
      (decide (vElems j.instr j.vl ≤ nj) ||
        (k.fld 0x1418 1 1 == 1 && j.dep.unit != e.dep.unit && !(j.dep.mem && e.dep.mem) && decide (ne ≤ nj) &&
          decide (ne * vWidth e.instr ≤ nj * vNarrow j.instr))))

/-- R111, R128: entry i may have finished b beats. An instruction that restarts from beat 0 writes none before its end. -/
def vMayBeat (k : Core) (i b : Nat) : Bool :=
  match k.vq[i]? with
  | none => false
  | some e => !e.done && !vRestarts e.instr && (k.vq.take i).all (fun j => vChained k j e b)

/-- R54, R124: an entry that starts takes the controls of the present boundary, and keeps them to its end. A default rounding that is
stochastic now and was not when the entry issued takes its draws here (DESIGN CHOICE, log 89). -/
def Core.vStart (k : Core) (e : VEntry) (draws : Nat) : Core × VEntry :=
  if e.ctl.isSome then (k, e)
  else
    let e := { e with ctl := some k.vCtl }
    if vRndOf e.instr == some 3 && k.vRnd == 2 && !e.drew && e.vl != 0 then
      (k.advanceHem 0 draws, { e with drew := true, hem := k.reg (rHEM 0 2) })
    else (k, e)

/-- A meaning run under the controls that the entry took at its start. -/
def Core.under (k : Core) (e : VEntry) (f : Core → Core) : Core :=
  let t := e.ctl.getD k.vCtl
  let k1 := f { k with vRnd := t.rnd, vSat := t.sat, vFit := t.fit }
  { k1 with vRnd := k.vRnd, vSat := k.vSat, vFit := k.vFit }

/-- Run an entry's elements from its finished beats up to element hi. -/
def vAdvance (k : Core) (e : VEntry) (hi fr : Nat) : Core :=
  k.under e (fun k => vRun k e (if vRestarts e.instr then 0 else vBeatElems e.instr e.vl e.beats) hi fr)

/-- R54: at the boundary between two vector instructions the Staged fields take the values last written. -/
def Core.vBoundary (k : Core) : Core :=
  { k with vRnd := BitVec.ofNat 2 (k.fld rNUMCTL 1 0), vSat := k.fld rNUMCTL 4 4 = 1, vFit := k.fld rNUMCTL 5 5 = 1 }

/-- R108, R118, R122: what VL = 0 does not stop: vx.mv and the tile-queue instructions. -/
def vIgnoresVl : Instr → Bool
  | .vxMv _ _ | .vxTqrd _ _ _ | .vxTqpop _ _ => true
  | _ => false

/-! ## Conversions of the stage sequencer (R190, R195) -/

def seqReg (r : BitVec 5) : VF := { vd := r, va := 0, vb := 2, vm := 0, mkd := false, z := false }
def SeqV.ext (v : SeqV) : ExtA := { f1 := v.f1, f2 := v.f2, rnd := v.rnd, g := v.g, aux := 0 }
/-- Elements of each output item: what the input items hold is dealt evenly (log 46). -/
def SeqV.per (v : SeqV) : Nat := if v.outs.isEmpty then 0 else v.ins.length * v.n / v.outs.length
/-- R48: the draws that the conversion takes from stream 0. -/
def SeqV.draws (v : SeqV) : Nat := v.outs.length * ceilDiv v.per 8

/-- Elements i0 to i0 + m − 1 of output item j, through registers that the program does not see. -/
def Core.seqChunk (k : Core) (v : SeqV) (hem fr j i0 m : Nat) : Core :=
  let w1 := fmtWidth v.f1
  let w2 := fmtWidth v.f2
  let g0 := j * v.per + i0
  let item (i : Nat) : Nat := v.ins.getD ((g0 + i) / max v.n 1) 0
  let pos (i : Nat) : Nat := (g0 + i) % max v.n 1
  let out := v.outs.getD j 0
  let k := match fmtOf v.f1 with
    | some g => k.vLoad (seqReg 0) g 0 m (fun i => (item i, w1 * pos i))
    | none => k
  let k := if isMx v.f1 then k.vLoad (seqReg 2) .e8m0 0 (ceilDiv m 32) (fun b => (item (32 * b) + ceilDiv (v.n * w1) 8, 8 * (pos (32 * b) / 32))) else k
  let k := k.vCvt { seqReg 1 with va := 0 } v.ext (hem + j * ceilDiv v.per 8 + i0 / 8) m 0 m fr
  let k := k.vStoreRun (seqReg 1) w2 0 m (out + i0 * w2 / 8)
  if isMx v.f2 then k.vStoreRun (seqReg 2) 8 0 (ceilDiv m 32) (out + ceilDiv (v.per * w2) 8 + i0 / 32) else k

/-- R194: an output item that lies in the escape slot goes on to the spill ring. -/
def Core.seqStash (k : Core) (v : SeqV) (j : Nat) : Core :=
  match v.esc with
  | some (a, n) =>
    if v.outs.getD j 0 = a then
      k.updFused v.s (fun u => { u with edges := u.edges.map (fun e => if e.prod = v.stage then { e with stash := e.stash ++ [(k.tileRead a n, k.tilePois a n)] } else e) })
    else k
  | none => k

/-- The input items hold a poisoned word. -/
def Core.seqPoison (k : Core) (v : SeqV) : Bool :=
  v.ins.any (fun a => k.tilePois a (ceilDiv (v.n * fmtWidth v.f1) 8 + (if isMx v.f1 then ceilDiv v.n 32 else 0)))

/-- The whole conversion; the program's vector registers keep their values, and the poison it meets counts once (R126). -/
def Core.seqCvt (k : Core) (v : SeqV) (hem fr : Nat) : Core :=
  let k := k.countPoison (k.seqPoison v)
  let step := vlmax (max (fmtWidth v.f1) (fmtWidth v.f2))
  let k1 := (List.range v.outs.length).foldl (fun k j =>
    ((List.range (ceilDiv v.per step)).foldl (fun k i => k.seqChunk v hem fr j (i * step) (min step (v.per - i * step))) k).seqStash v j) k
  ({ k1 with v := k.v }).updStage v.s v.stage (fun g => { g with flight := firstDone g.flight })

/-- R111, R125, R129: entry i finishes its last beat. An instruction that writes a general register keeps its place until that
value is written; vx.wrd waits for the merges captured before it entered the fold engine's queue. -/
def vRetire (k : Core) (i ari fr : Nat) : Core :=
  match k.vq[i]? with
  | none => k
  | some e =>
    let wrd := match e.instr with | .vxWrd _ _ _ => true | _ => false
    let merges := wrd && k.feq.head? != some (.welt)
    if !vReady k i || merges then k
    else
      let k := if e.dep.unit = 5 then k.count 0x1428 63 0 ari else k
      let (k, e) := k.vStart e (match e.seq with | some v => v.draws | none => ceilDiv e.vl 8)
      match e.seq, vGreg k e with
      | some v, _ => (({ k with vq := k.vq.eraseIdx i }).under e (fun k => k.seqCvt v e.hem.toNat fr)).vBoundary
      | none, r =>
      match r with
      | some (_, v, fl) =>
        ({ k with vq := listUpd (fun e => { e with done := true, gval := BitVec.ofNat 64 v }) k.vq i }).raiseFlags 4 fl
      | none =>
        let k := if e.vl = 0 && !vIgnoresVl e.instr then k else vAdvance k e (vElems e.instr e.vl) fr
        ({ k with vq := k.vq.eraseIdx i, feq := if wrd then k.feq.drop 1 else k.feq }).vBoundary

/-- R128: entry i, whose value is ready, writes its general register. -/
def vGregWrite (k : Core) (i : Nat) : Core :=
  match k.vq[i]? with
  | none => k
  | some e =>
    match e.done, vGreg k e with
    | true, some (g, _, _) => (({ k with vq := k.vq.eraseIdx i }).setG g e.gval).vBoundary
    | _, _ => k

end Sys2Proof.Machine
end

