-- ==== Sys2Proof/Machine/Except.lean ====
section
/-! DEFINITION. Taking an exception and returning from one (R166 to R177), with the darn records of stopped vector instructions
(R128, R178, R179): one operation each, shared by every cause. -/

namespace Sys2Proof.Machine

/-! ## Which exception is due (R166, R167) -/

/-- An exception about to be taken. -/
structure Due where
  cls  : Nat
  code : BitVec 16
  addr : W64 := 0
  syl  : W32 := 0
  slot : Nat := 0
  len  : Nat := 0
deriving DecidableEq, Repr

/-- R167: the lowest interrupt source that is pending and enabled, at depth 0 or 1 with IE = 1. -/
def Core.interruptDue (k : Core) : Option Nat :=
  let p := k.fld rEXPEND 7 0 &&& k.fld rEXCTL 15 8
  if k.ie && decide (k.depth ≤ 1) then (List.range 8).find? p.testBit else none

/-- R166: the exception of highest priority that is due at this boundary. -/
def Core.due (k : Core) : Option Due :=
  match k.exc with
  | some e => some { cls := e.cls, code := e.code, addr := e.addr, syl := e.syl, slot := e.slot, len := e.len }
  | none =>
    if k.haltReq then some { cls := 3, code := 0 }
    else match k.interruptDue with
      | some n => some { cls := 2, code := BitVec.ofNat 16 n }
      | none => none

/-- R167: raise an interrupt source. -/
def Core.raiseInt (k : Core) (src : Nat) : Core := k.setFld rEXPEND src src 1

/-! ## Stopping the vector engine (R128) -/

/-- R128, R178, R179: the darn record of a stopped vector instruction. -/
def vDarn (c : CoreId) (e : VEntry) : List Byte :=
  let b := if vRestarts e.instr then 0 else e.beats
  [1, BitVec.ofNat 8 (if b = 0 then 0 else 1), 0, 0] ++ leBytes 4 e.syl.toNat ++ leBytes 4 e.ext.toNat ++
    [0, BitVec.ofNat 8 (coreLocal c), 0, 0] ++ leBytes 8 b ++ leBytes 2 e.vl ++ List.replicate 6 0 ++ leBytes 8 e.hem.toNat ++
    leBytes 8 e.x.toNat ++ leBytes 8 e.y.toNat ++ List.replicate 8 0

/-- The instruction of a vector syllable and its extension word (0: none). -/
def vInstrOf (c : CoreId) (syl ext : Nat) : DecRes :=
  decodeSyl c 5 (syl % 2 ^ 28) (if vNoExt.contains (syl / 2 ^ 20 % 2 ^ 7) then none else some (ext % 2 ^ 28))

/-- R128, R179: the queue entry that a darn record puts back. The record keeps neither the numeric controls nor whether poison was
counted: the controls are taken afresh, and poison under the finished elements counts as counted (DESIGN CHOICE, log 90). -/
def Core.vEntryOf (k : Core) (c : CoreId) (x : Nat) : Option VEntry :=
  if x % 256 ≠ 1 then none
  else match vInstrOf c (bitsOf x 63 32) (bitsOf x 95 64) with
    | .ok i =>
      let drew := match vRndOf i with | some r => r == 2 || (r == 3 && k.fld rNUMCTL 1 0 == 2) | none => false
      let e : VEntry := { instr := i, vl := bitsOf x 207 192, hem := BitVec.ofNat 64 (bitsOf x 319 256),
                          x := BitVec.ofNat 64 (bitsOf x 383 320), y := BitVec.ofNat 64 (bitsOf x 447 384), beats := bitsOf x 191 128,
                          drew := drew, done := false, gval := 0,
                          syl := BitVec.ofNat 32 (bitsOf x 63 32), ext := BitVec.ofNat 32 (bitsOf x 95 64) }
      some { e with pois := vMeetsPoison k e 0 (vBeatElems i e.vl e.beats) }
    | _ => none

/-- R128: entry i has finished a number of beats; their elements are written. An instruction that restarts has written nothing, and a
chained one no more than its sources had ready (R111). -/
def Core.vStopAt (k : Core) (i b fr : Nat) : Core :=
  match k.vq[i]? with
  | none => k
  | some e =>
    if b ≤ e.beats || !vMayBeat k i b || e.seq.isSome || vElems e.instr e.vl = 0 then k
    else
      let (k, e) := k.vStart e (ceilDiv e.vl 8)
      let n := vBeatElems e.instr e.vl b
      let p := vMeetsPoison k e (vBeatElems e.instr e.vl e.beats) n
      let k1 := vAdvance k e n fr
      { k1 with vq := listUpd (fun _ => { e with beats := b, pois := e.pois || p }) k1.vq i }

/-- R128: every queued instruction stops at a beat boundary. -/
def Core.vStop (k : Core) (beats : List Nat) (fr : Nat) : Core := (beats.zipIdx).foldl (fun k p => k.vStopAt p.2 p.1 fr) k

/-- Empty the vector queue; the fold engine drops its welt reads (R128, R129). A conversion of the stage sequencer waits to enter
the queue again (DESIGN CHOICE, log 46). -/
def Core.vDrop (k : Core) : Core := { k with vq := [], seqHeldV := k.vq.filter (fun e => e.seq.isSome) ++ k.seqHeldV, feq := k.feq.filter (fun j => j != .welt), sb := 0, late := 0 }

/-! ## The frame (R168 to R172) -/

/-- R168 step 2, R173 step 2: ESCAP serves for a frame of 1,536 bytes at lo. The bytes lie in tile memory and outside the
emergency area (DEDUCED from R160 and R161, log 41). -/
def Core.escapOk (k : Core) (lo : Nat) : Bool :=
  let x := k.escap
  x.tagged && x.seal == 0 && x.perm pST && x.tile && x.perm pESTK && decide (x.base ≤ lo) && decide (lo + Config.frameBytes ≤ x.top) &&
    x.addr % 64 == 0 && decide (lo + Config.frameBytes ≤ Config.tileBytes) && !inEmergency lo Config.frameBytes

/-- The capabilities of a frame in their order: PCC, RSCAP, c0 to c15 (R170). -/
def Core.frameCaps (k : Core) : List Cap := [k.pcc, k.rscap] ++ k.c.toList

/-- R171: bit 0 PCC, bit 1 RSCAP, bit 2 + n cn. -/
def Core.tagMask (k : Core) : Nat := ((k.frameCaps).zipIdx).foldl (fun n p => n + p.1.tagged.toNat * 2 ^ p.2) 0

/-- R171: the header without its seal. -/
def Core.frameHeader (k : Core) (d : Due) (darns mask : Nat) : List Byte :=
  [1, BitVec.ofNat 8 k.depth, BitVec.ofNat 8 darns, BitVec.ofNat 8 (k.fld rEXCTL 0 0 + 2 * k.fld rEXSTAT 2 2)] ++
    leBytes 2 d.code.toNat ++ [BitVec.ofNat 8 d.cls, BitVec.ofNat 8 (if d.cls = 0 then d.len else 0)] ++ leBytes 8 d.addr.toNat ++
    leBytes 8 (k.reg rEXSEQ).toNat ++ leBytes 4 d.syl.toNat ++ [BitVec.ofNat 8 d.slot, 0, 0, 0] ++ leBytes 3 mask ++
    List.replicate 5 0 ++ List.replicate 24 0

/-- MLO, MHI, LC0, LS0, LE0, LC1, LS1, LE1 (R170). -/
def frameRegs : List Nat := [rMLO, rMHI, rLC 0, rLS 0, rLE 0, rLC 1, rLS 1, rLE 1]

/-- R170: the bytes 0x040 to 0x5FF of a frame. -/
def Core.frameBody (k : Core) (darns : List (List Byte)) : List Byte :=
  (k.frameCaps.flatMap (fun x => leBytes 16 x.bits.toNat)) ++ ((darns ++ List.replicate (8 - darns.length) (List.replicate 64 0)).flatten) ++
    ((List.range 63).flatMap (fun n => leBytes 8 (k.getG (BitVec.ofNat 6 (n + 1))).toNat)) ++
    (frameRegs.flatMap (fun r => leBytes 8 (k.reg r).toNat)) ++ leBytes 8 k.vl.toNat ++ List.replicate 96 0

/-- The frame key (R172). -/
def Core.frameKey (k : Core) : Nat := (k.reg rFRAMEKEYLO).toNat + (k.reg rFRAMEKEYHI).toNat * 2 ^ 64

/-- R172: the seal over bytes 0x000 to 0x35F with bytes 40 to 47 taken as 0. -/
def Core.sealOf (k : Core) (seq : Nat) (f : List Byte) : W64 := frameSeal k.frameKey seq (f.take 864)

/-- R169 step 6: the registers that say which exception it was. -/
def Core.noteCause (k : Core) (code : BitVec 16) (cls : Nat) : Core :=
  (k.setFld rEXSTAT 63 48 code.toNat).setFld rEXSTAT 7 6 cls

/-- R169 to R172: push a frame and enter the handler. -/
def Core.pushFrame (k : Core) (c : CoreId) (d : Due) : Core :=
  let lo := k.escap.addr - Config.frameBytes
  let darns := (k.vq.filter (fun e => e.seq.isNone)).map (vDarn c)
  let seq := (k.reg rEXSEQ).toNat
  let hdr := k.frameHeader d darns.length k.tagMask
  let body := k.frameBody darns
  let tagv := k.sealOf seq (hdr ++ body)
  let f := hdr.take 40 ++ leBytes 8 tagv.toNat ++ hdr.drop 48 ++ body
  let q := k.tileWrite lo f
  let q := ((k.frameCaps).zipIdx).foldl (fun q p => { q with tileTags := mset noFlag q.tileTags (lo / 16 + 4 + p.2) p.1.tagged }) q
  let q := q.vDrop.setScap 2 (k.escap.moved lo)
  let q := (q.setReg rEXSEQ (BitVec.ofNat 64 (seq + 1))).setFld rEXSTAT 1 0 (k.depth + 1)
  let q := ((q.setFld rEXCTL 1 0 0).setReg rEXADDR d.addr).noteCause d.code d.cls
  ((q.setScap 0 (k.scap[3])).count rEXENTRY 63 0 1).flushQueue

/-! ## Double and nested faults (R177) -/

/-- R177: the emergency frame. -/
def Core.emergencyFrame (k : Core) (d : Due) : List Byte :=
  k.frameHeader d 0 0 ++ leBytes 16 k.pcc.bits.toNat ++ leBytes 16 k.escap.bits.toNat ++ leBytes 16 k.rscap.bits.toNat ++
    List.replicate 16 0 ++ ((List.range 31).flatMap (fun n => leBytes 8 (k.getG (BitVec.ofNat 6 (n + 1))).toNat)) ++
    leBytes 8 (k.reg rMLO).toNat ++ leBytes 8 (k.reg rMHI).toNat ++ List.replicate 120 0

/-- R177: write the emergency frame and halt. -/
def Core.haltAt (k : Core) (d : Due) (code : BitVec 16) : Core :=
  let q := (k.tileWrite Config.emergencyBase (k.emergencyFrame d)).vDrop
  let q := (q.setFld rEXSTAT 3 3 1).noteCause code d.cls
  { q.flushQueue with run := .halted, held := none, exc := none, haltReq := false }

/-- R177: a double or a nested fault of a core, with its fault record. -/
def State.haltCore (s : State) (c : CoreId) (d : Due) (code : BitVec 16) : State :=
  (s.updCore c (fun k => k.haltAt d code)).coreReport c code false d.addr

/-! ## Taking an exception (R168, R169) -/

/-- R168, R169: take exception d on core c: the vector engine stops; a third nesting or an unusable exception stack halts
the core; otherwise a sealed frame is pushed and the handler entered. -/
def State.takeException (s : State) (c : CoreId) (d : Due) (beats : List Nat) : State :=
  let (fr, s) := s.free
  let s := s.updCore c (fun k => { (k.vStop beats fr) with held := none, exc := none, haltReq := k.haltReq && d.cls != 3 })
  let k := s.core c
  if k.depth = 2 then s.haltCore c d 0x1052
  else if decide (k.escap.addr < Config.frameBytes) || !k.escapOk (k.escap.addr - Config.frameBytes) then s.haltCore c d 0x1051
  else s.updCore c (fun k => k.pushFrame c d)

/-- R142, R169: entry waits until no load, multiply or divide is in flight. -/
def Core.settled (k : Core) : Bool := k.lateLoads.isEmpty && k.products.isEmpty

/-- R142: a bundle held in M has left D; it completes or faults before an interrupt is taken. -/
def Core.heldInM (k : Core) : Bool := match k.held with | some h => h.why == .overlap | none => false

/-! ## Returning (R173 to R176) -/

/-- R173 step 4: the header's version, poison and reserved bytes. -/
def Core.frameSound (k : Core) (lo : Nat) : Bool :=
  let h := k.tileNat lo 64
  h % 256 == 1 && !k.tilePois lo 864 && bitsOf h 255 232 == 0 && bitsOf h 319 280 == 0 && bitsOf h 511 384 == 0

/-- R172, R173: the seal of the frame at lo matches its contents. -/
def Core.sealMatches (k : Core) (lo : Nat) : Bool :=
  let h := k.tileNat lo 64
  let f := k.tileRead lo 864
  let z := f.take 40 ++ List.replicate 8 0 ++ f.drop 48
  k.sealOf (bitsOf h 191 128) z == BitVec.ofNat 64 (bitsOf h 383 320)

/-- R158, R174: the capability at index i of the frame's list: tagged only when its mask bit and its granule's tag are both 1 and it is
well formed. -/
def Core.frameCap (k : Core) (lo mask i : Nat) : Cap :=
  let x : Cap := { bits := BitVec.ofNat 128 (k.tileNat (lo + 64 + 16 * i) 16), tag := mask.testBit i && k.tileTag (lo + 64 + 16 * i) }
  { x with tag := x.tagged }

/-- The general register that a re-entered instruction writes late (R128). -/
def Core.markQueue (k : Core) : Core :=
  k.vq.foldl (fun k e => match vGreg k e with | some (g, _, _) => k.markG g | none => k) k

/-- R128: the re-entered vx.wrd instructions join the fold engine's queue again. -/
def weltJobs (l : List VEntry) : List FeJob :=
  (l.filter (fun e => match e.instr with | .vxWrd _ _ _ => true | _ => false)).map (fun _ => .welt)

/-- R173 to R176: restore the frame at lo. -/
def Core.restore (k : Core) (c : CoreId) (lo : Nat) : Core :=
  let h := k.tileNat lo 64
  let mask := bitsOf h 273 256
  let caps := (List.range 18).map (k.frameCap lo mask)
  let untag := (caps.filter (fun x => !x.tag)).length
  let skip := k.fld rEXCTL 1 1 = 1 && bitsOf h 55 48 = 0
  let pcc0 := caps.getD 0 {}
  let pcc := if skip then pcc0.moved (pcc0.addr + 4 * bitsOf h 63 56) else pcc0
  let q := (k.setScap 0 pcc).setScap 1 (caps.getD 1 {})
  let q := { q with c := .ofFn (fun n => caps.getD (n.val + 2) {}) }
  let q := (List.range 63).foldl (fun q n =>
    q.putG (BitVec.ofNat 6 (n + 1)) (BitVec.ofNat 64 (k.tileNat (lo + 0x360 + 8 * n) 8)) (k.tilePois (lo + 0x360 + 8 * n) 8)) q
  let q := (frameRegs.zipIdx).foldl (fun q p => q.setReg p.1 (BitVec.ofNat 64 (k.tileNat (lo + 0x558 + 8 * p.2) 8))) q
  let es := (List.range (min 8 (bitsOf h 23 16))).filterMap (fun j => k.vEntryOf c (k.tileNat (lo + 0x160 + 64 * j) 64))
  let q := { q with vl := BitVec.ofNat 13 (k.tileNat (lo + 0x598) 8), vq := es, feq := q.feq ++ weltJobs es, sb := 0, late := 0 }
  let q := (q.markQueue).setScap 2 (k.escap.moved (lo + Config.frameBytes))
  let q := (q.setFld rEXSTAT 2 0 (bitsOf h 9 8)).setFld rEXCTL 1 0 (bitsOf h 24 24)
  (q.count rEXCNT 31 16 untag).flushQueue

/-- R175: a frame-seal fault enters the fallback handler; a second one is a double fault. -/
def State.sealFault (s : State) (c : CoreId) (pc : Cap) (d : Due) : State :=
  let k := s.core c
  if k.fld rEXSTAT 2 2 = 1 then (s.updCore c (fun k => k.setScap 0 pc)).haltCore c d 0x1051
  else
    let lo := BitVec.ofNat 64 k.escap.addr
    (s.updCore c (fun k => ((((((k.setReg rEXADDR lo).setFld rEXSTAT 2 2 1).setScap 0 (k.scap[4])).noteCause 0x1050 0).count rEXCNT 47 32 1).flushQueue))).coreReport
      c 0x1050 false lo

/-- The eret syllable: the first of its bundle, and the last where the bundle has no other. -/
def eretSyl (len : Nat) : W32 := if len = 1 then 0x87400000 else 0x07400000

/-- R173: eret of core c, in a bundle of len syllables: held until the store buffer and the vector queue are empty. -/
def mEret (c : CoreId) (len : Nat) (s : State) : Issue :=
  let k := s.core c
  let lo := k.escap.addr
  if !k.storeBuf.isEmpty || !k.vq.isEmpty then .hold .eret
  else if k.depth = 0 then .fault 0x1053 0
  else if !k.escapOk lo || !k.frameSound lo || !k.sealMatches lo then
    .go (fun s => s.sealFault c k.pcc { cls := 0, code := 0x1050, addr := BitVec.ofNat 64 lo, syl := eretSyl len, len := len })
  else goCore c (fun q => { q.restore c lo with held := none })

/-! ## The events -/

/-- R166 to R177. -/
def execExceptionEntry (c : CoreId) (beats : List Nat) (s : State) : Host.Outcome State Fault Refusal :=
  let k := s.core c
  match k.due with
  | some d => .next (if k.run = .running && k.settled && !(decide (2 ≤ d.cls) && k.heldInM) then s.takeException c d beats else s)
  | none => .next s

/-- R167: the die timestamp has reached CORE.EXTIMER. -/
def execTimerInterrupt (c : CoreId) (s : State) : Host.Outcome State Fault Refusal :=
  .next (if (s.core c).reg rEXTIMER ≤ (s.die (coreDie c)).ts then s.updCore c (fun k => k.raiseInt 1) else s)

end Sys2Proof.Machine
end

