-- ==== Sys2Proof/Machine/MatOps.lean ====
section
/-! DEFINITION. What the matrix arrays compute (chapters 03, 04): panels, slab sums, the exactness window, the cell registers,
folds into the welt, and the one rounding of a close. -/

namespace Sys2Proof.Machine

/-! ## Tiles and descriptors -/

/-- The index of tile t of array a (R83). -/
def tileIx (a : Fin 4) (t : Fin 2) : Fin 8 := ⟨2 * a.val + t.val, by omega⟩
def Core.tileAt (k : Core) (a : Fin 4) (t : Fin 2) : Tile := k.tiles.get (tileIx a t)
def Core.setTile (k : Core) (a : Fin 4) (t : Fin 2) (x : Tile) : Core :=
  { k with tiles := k.tiles.set (tileIx a t).val x (tileIx a t).isLt }
def arrays : List (Fin 4) := [0, 1, 2, 3]
/-- R68: the arrays that a mask names, in ascending order. -/
def named (m : BitVec 4) : List (Fin 4) := arrays.filter (fun a => m.getLsbD a.val)

/-- Fields of a captured tile descriptor (R66). -/
def dFld (d : BitVec 256) (word hi lo : Nat) : Nat := bitsOf d.toNat (64 * word + hi) (64 * word + lo)
def dFmt (d : BitVec 256) : BitVec 4 := BitVec.ofNat 4 (dFld d 0 3 0)
def dDest (d : BitVec 256) : Nat := dFld d 0 7 6
def dRows (d : BitVec 256) : Nat := dFld d 0 12 8 + 1
def dCols (d : BitVec 256) : Nat := dFld d 0 17 13 + 1
def dAuto (d : BitVec 256) : Bool := dFld d 0 18 18 = 1
def dOut (d : BitVec 256) : Nat := dFld d 1 22 0
def dStride (d : BitVec 256) : Nat := dFld d 1 47 32
def dScale (d : BitVec 256) : Nat := dFld d 2 22 0
def dWelt (d : BitVec 256) : Nat := dFld d 3 22 0
/-- R67: bytes of a welt area, 80 KiB. -/
def weltBytes : Nat := 81920

/-- The bytes of an operand format's K-block, and of its line group (R59). -/
def blkBytes (w : Nat) : Nat := if w = 8 then 1024 else if w = 6 then 768 else 512
def OpDesc.w (d : OpDesc) : Nat := fmtWidth d.fmt
def OpDesc.nblk (d : OpDesc) : Nat := d.nblkM1.toNat + 1

/-- R69: a descriptor's fields from its 32 bytes. -/
def opDescOf (x : Nat) : OpDesc :=
  { fmt := BitVec.ofNat 4 x, nblkM1 := BitVec.ofNat 12 (bitsOf x 19 8), panel := BitVec.ofNat 23 (bitsOf x 86 64),
    astride := BitVec.ofNat 23 (bitsOf x 118 96), scale := BitVec.ofNat 23 (bitsOf x 150 128),
    sstride := BitVec.ofNat 23 (bitsOf x 182 160) }

/-- R179: an operand descriptor packed into 14 bytes. -/
def OpDesc.pack (d : OpDesc) : Nat :=
  d.fmt.toNat + d.nblkM1.toNat * 2 ^ 4 + d.panel.toNat * 2 ^ 16 + d.astride.toNat * 2 ^ 39 + d.scale.toNat * 2 ^ 62 + d.sstride.toNat * 2 ^ 85

def OpDesc.unpack (x : Nat) : OpDesc :=
  { fmt := BitVec.ofNat 4 x, nblkM1 := BitVec.ofNat 12 (x / 2 ^ 4), panel := BitVec.ofNat 23 (x / 2 ^ 16),
    astride := BitVec.ofNat 23 (x / 2 ^ 39), scale := BitVec.ofNat 23 (x / 2 ^ 62), sstride := BitVec.ofNat 23 (x / 2 ^ 85) }

/-! ## Slab sums (R57, R59, R60, R86, R89) -/

/-- The unit exponent of a format (R86). -/
def unitExp (code : BitVec 4) : Int :=
  match code.toNat with
  | 3 => -9 | 4 => -16 | 5 => -3 | 6 => -4 | 7 => -1 | 8 => -6 | _ => -2

/-- One line of one K-block as an array reads it: 32 elements, the scale byte, and whether an operand word is poisoned. -/
structure KLine where
  vals : List FVal
  scale : Nat
  poison : Bool
deriving DecidableEq, Repr

/-- R59, R60: line l of block b of a panel at p with scales at q. -/
def Core.kLine (k : Core) (code : BitVec 4) (p q b l : Nat) : KLine :=
  let w := fmtWidth code
  let el (j : Nat) : Nat × Nat := let o := panelPlace w l (32 * b + j); (p + o.1 + o.2 / 8, o.2 % 8)
  let val (j : Nat) : FVal :=
    let (a, s) := el j
    let x := bitsOf (k.tileNat a 2) (s + w - 1) s
    match fmtOf code with | some f => f.decode x | none => .nan false
  let pois := (List.range 32).any (fun j => k.tilePois (el j).1 (((el j).2 + w + 7) / 8)) || k.tilePois (q + 32 * b + l) 1
  { vals := (List.range 32).map val, scale := (k.tileByte (q + 32 * b + l)).toNat, poison := pois }

/-- A slab sum (R86): an exact integer in units of 2^(uA + uB), or the special tags it raises (R89). -/
inductive Slab where
  | fin (n : Int)
  | special (tags : Nat)
deriving DecidableEq, Repr

/-- An element's value in units of 2^u. -/
def inUnits (u : Int) (s : Bool) (m : Nat) (e : Int) : Int := sgn s (m <<< (e - u).toNat)

/-- R41, R86, R89: the tags of one product, bit 0 PINF, 1 NINF, 2 NAN. An infinity times an infinity is an infinity of the product's
sign (DESIGN CHOICE, log 98: the table names finite partners alone). -/
def productTags (a b : FVal) : Nat :=
  match a, b with
  | .nan _, _ => 4
  | _, .nan _ => 4
  | .fin _ _ _, .fin _ _ _ => 0
  | x, y => if x.isZero || y.isZero then 4 else if x.sign != y.sign then 2 else 1

def slabSum (ca cb : BitVec 4) (a b : KLine) : Slab :=
  let ps := List.zip a.vals b.vals
  let tags := ps.foldl (fun t p => t ||| productTags p.1 p.2) 0
  let tags := if a.scale = 255 ∨ b.scale = 255 then tags ||| 4 else tags
  let tags := if a.poison || b.poison then tags ||| 32 else tags
  if tags != 0 then .special tags
  else .fin (ps.foldl (fun s p => match p.1, p.2 with
    | .fin s1 m1 e1, .fin s2 m2 e2 => s + inUnits (unitExp ca) s1 m1 e1 * inUnits (unitExp cb) s2 m2 e2
    | _, _ => s) 0)

/-- A cell's slab in a K-block: the cell's number 32 r + c, the slab and the effective scale exponent x (R86, R101). -/
structure CellSlab where
  cell : Nat
  slab : Slab
  x    : Int
deriving DecidableEq, Repr

/-- R86: the slabs of every unmasked cell of one array for block b. -/
def Core.blockSlabs (k : Core) (d : BitVec 256) (a : Fin 4) (oa ob : OpDesc) (sl : Option Slice) (b : Nat) : List CellSlab :=
  let shift : Int := match sl with | some z => 8 * ((z.i : Int) + z.j) | none => 0
  let la := (List.range (dRows d)).map (fun r => k.kLine oa.fmt oa.panel.toNat oa.scale.toNat b r)
  let lb := (List.range (dCols d)).map (fun c =>
    k.kLine ob.fmt (ob.panel.toNat + a.val * ob.astride.toNat) (ob.scale.toNat + a.val * ob.sstride.toNat) b c)
  (la.zipIdx).flatMap (fun r => (lb.zipIdx).map (fun c =>
    { cell := 32 * r.2 + c.2, slab := slabSum oa.fmt ob.fmt r.1 c.1,
      x := (r.1.scale : Int) - 127 + ((c.1.scale : Int) - 127) - shift }))

/-! ## The window, the anchor and folds (R87 to R93) -/

/-- The weight of the lowest set bit. -/
def ctzGo : Nat → Nat → Nat
  | 0, _ => 0
  | n + 1, x => if x % 2 = 1 then 0 else 1 + ctzGo n (x / 2)

def lowBit (x : Nat) : Nat := if x = 0 then 0 else ctzGo (Nat.log2 x + 1) x

/-- R88: where a nonzero finite slab lies. -/
inductive Window where
  | within | above | below
deriving DecidableEq, Repr

def windowOf (b x : Int) : Window := if b + 254 < x then .above else if x < b - 254 then .below else .within

/-- The nonzero finite slabs with their magnitudes. -/
def CellSlab.nonzero (s : CellSlab) : Bool := match s.slab with | .fin n => n != 0 | .special _ => false
def CellSlab.mag (s : CellSlab) : Nat := match s.slab with | .fin n => n.natAbs | .special _ => 0

/-- h and l of a list of slabs of product unit q: the weights of their highest and lowest nonzero bits (R86). -/
def hiLo (q : Int) (l : List CellSlab) : Option (Int × Int) :=
  l.foldl (fun acc s =>
    let h := (Nat.log2 s.mag : Int) + q + s.x
    let lo := (lowBit s.mag : Int) + q + s.x
    match acc with
    | none => some (h, lo)
    | some (h', l') => some (max h h', min lo l')) none

/-- R92. -/
def newAnchor (b h l : Int) (sl : Option Slice) : Int :=
  let hs := match sl with | some z => h + 8 * ((z.i : Int) + z.j) | none => h
  let p : Int := match sl with | some _ => 80 | none => 62
  max (-288) (min l (hs - p) - b)

/-- A cell register (R89): its value, or its tags. -/
def cellOf (x : BitVec 128) : Int × Nat := if x.toNat >>> 126 = 1 then (0, x.toNat % 64) else (x.toInt, 0)
def cellFin (n : Int) : BitVec 128 := BitVec.ofInt 128 n
def cellTags (t : Nat) : BitVec 128 := BitVec.ofNat 128 (2 ^ 126 + t % 64)
def zeroCell : Nat → BitVec 128 := fun _ => 0

/-- m × 2^e in units of a cell's bit 0; where e is below 0 the low bits that go are zeros (R91: no slab has a bit below cell bit 0). -/
def scaleBy (m e : Int) : Int := if e < 0 then m / 2 ^ (-e).toNat else m * 2 ^ e.toNat

/-- R88, R89: add one slab of product unit q into a cell whose bit 0 weighs 2^(b + a). A finite slab above the window adds its tag to a
cell that holds tags already (DESIGN CHOICE, log 98: R88 sets the tag, R89 ignores later finite slabs). -/
def addSlab (q b a : Int) (cells : SMap (BitVec 128)) (s : CellSlab) : SMap (BitVec 128) :=
  let (n, t) := cellOf (mget zeroCell cells s.cell)
  let tagged (u : Nat) := mset zeroCell cells s.cell (cellTags (t ||| u))
  match s.slab with
  | .special u => tagged u
  | .fin m =>
    if m = 0 then cells
    else match windowOf b s.x with
      | .above => tagged (if m < 0 then 16 else 8)
      | .below => cells
      | .within => if t ≠ 0 then cells else mset zeroCell cells s.cell (cellFin (n + scaleBy m (q + s.x - b - a)))

/-- R91: why a tile folds before a block's slabs are added. -/
structure FoldWhy where
  fold : Bool
  wide : Bool
deriving DecidableEq, Repr

def foldWhy (t : Tile) (b : Int) (hl : Option (Int × Int)) : FoldWhy :=
  match hl with
  | none => ⟨t.anchSet && decide (2 ^ 32 ≤ t.blocks), false⟩
  | some (h, l) =>
    let a := t.anchor.toInt
    let wide := decide (93 < h - l)
    ⟨wide || (t.anchSet && (decide (l < b + a) || decide (b + a + 93 < h) || decide (2 ^ 32 ≤ t.blocks))), wide⟩

/-- What the end of a K-block finds of one tile: its base, the slabs in range, and whether it folds. -/
structure BlockFind where
  base : Option Int
  inr  : List CellSlab
  hl   : Option (Int × Int)
  why  : FoldWhy
deriving DecidableEq, Repr

/-- R87, R88, R91. -/
def blockFind (t : Tile) (q : Int) (l : List CellSlab) : BlockFind :=
  let nz := l.filter CellSlab.nonzero
  let base : Option Int :=
    if t.baseSet then some t.base.toInt
    else nz.foldl (fun acc s => match acc with | none => some s.x | some y => some (max y s.x)) none
  let inr := match base with | some b => nz.filter (fun s => windowOf b s.x == .within) | none => []
  let hl := hiLo q inr
  { base := base, inr := inr, hl := hl, why := foldWhy t (base.getD 0) hl }

/-- R93: capture a tile's cells into its array's shadow; a Wide block's slabs and tags go with them (R91). -/
def captureOf (t : Tile) (ts : Fin 2) (q b : Int) (wide : Option (List CellSlab)) : Shadow :=
  let z : Nat → BitVec 128 := zeroCell
  { t := ts, welt := dWelt t.desc, rows := dRows t.desc, cols := dCols t.desc, base := b, anchor := t.anchor.toInt,
    first := !t.weltValid, cells := t.cells,
    slabs := (wide.getD []).foldl (fun m s => match s.slab with
      | .fin n => if windowOf b s.x == .within then mset z m s.cell (cellFin n) else m | _ => m) [],
    slabE := (wide.getD []).foldl (fun m s => mset (fun _ => 0) m s.cell (BitVec.ofInt 16 (q + s.x))) [],
    tags := (wide.getD []).foldl (fun m s =>
      let u : Nat := match s.slab with
        | .special u => u
        | .fin n => if n ≠ 0 ∧ windowOf b s.x = .above then (if n < 0 then 16 else 8) else 0
      mset (fun _ => 0) m s.cell (BitVec.ofNat 6 u)) [] }

/-- R88: the flags that a block's slabs raise by lying outside the window. -/
def windowFlags (b : Int) (l : List CellSlab) : NF :=
  l.foldl (fun f s => if s.nonzero then (match windowOf b s.x with
    | .above => { f with ov := true } | .below => { f with uf := true, nx := true } | .within => f) else f) {}

/-- The flags of a tile as a bit vector NV OF UF NX (R77). -/
def Tile.raise (t : Tile) (f : NF) : Tile := { t with flags := t.flags ||| BitVec.ofNat 4 f.bits }

/-- R87 to R92: the tile after a block, and the shadow that it captured. Blocks count from the one that sets the anchor; a Count fold on a
block with no slab in range keeps the old anchor (DESIGN CHOICE, log 96). -/
def tileAfterBlock (t : Tile) (ts : Fin 2) (q : Int) (sl : Option Slice) (l : List CellSlab) : Tile × Option Shadow :=
  let f := blockFind t q l
  match f.base with
  | none => ({ t with cells := l.foldl (addSlab q 0 0) t.cells }, none)
  | some b =>
    let t0 := { t with base := BitVec.ofInt 10 b, baseSet := true }
    let na := match f.hl with | some (h, lo) => newAnchor b h lo sl | none => t.anchor.toInt
    let t1 := t0.raise (windowFlags b l)
    if f.why.fold then
      let sh := captureOf t1 ts q b (if f.why.wide then some l else none)
      let cells := if f.why.wide then [] else l.foldl (addSlab q b na) []
      ({ t1 with cells := cells, anchor := BitVec.ofInt 10 na, anchSet := t.anchSet || f.hl.isSome, weltValid := true,
                 folds := min 255 (t.folds + 1), blocks := if f.why.wide then 0 else 1 }, some sh)
    else
      let a := if t.anchSet then t.anchor.toInt else na
      let set := t.anchSet || f.hl.isSome
      ({ t1 with cells := l.foldl (addSlab q b a) t.cells, anchor := if set then BitVec.ofInt 10 a else t.anchor, anchSet := set,
                 blocks := if set then t.blocks + 1 else t.blocks }, none)

/-- R91: the fold that FE forces after the last block, which sets the new anchor where it has a slab in range (log 96). -/
def forcedFold (t : Tile) (ts : Fin 2) (na : Option (BitVec 10)) : Tile × Shadow :=
  ({ t with cells := [], anchor := na.getD t.anchor, weltValid := true, folds := min 255 (t.folds + 1), blocks := 0 },
    captureOf t ts 0 t.base.toInt none)

/-! ## Merging into the welt (R90, R92) -/

/-- A welt element's 80 bytes (R90). -/
def weltBytesOf (n : Int) (tags : Nat) : List Byte :=
  leBytes 80 (if tags ≠ 0 then 2 ^ 638 + tags % 64 else (n % (2 ^ 640 : Nat)).toNat)

/-- R92: add n × 2^k to a welt value with tags; an overflow becomes a tag. -/
def weltAdd (w : Int × Nat) (n : Int) (k : Nat) (tags : Nat) : Int × Nat :=
  if w.2 ||| tags ≠ 0 then (0, w.2 ||| tags)
  else
    let v := w.1 + n * 2 ^ k
    if (2 ^ 638 : Nat) ≤ v.natAbs then (0, if v < 0 then 16 else 8) else (v, 0)

/-- R92, R105: merge one cell of a shadow into its welt element; answers the core and whether the sum overflowed. -/
def mergeCell (sh : Shadow) (bad : List Nat) (k : Core) (cell : Nat) : Core × Bool :=
  let a := sh.welt + 80 * cell
  let w : Int × Nat := if sh.first then (0, 0) else k.weltRead a
  let (n, t) := cellOf (mget zeroCell sh.cells cell)
  let t := if bad.contains cell then t ||| 32 else t
  let w1 := weltAdd w n (sh.anchor + 288).toNat t
  let s := (mget zeroCell sh.slabs cell).toInt
  let e := (mget (fun _ => (0 : BitVec 16)) sh.slabE cell).toInt
  let w2 := weltAdd w1 s (e - (sh.base - 288)).toNat (mget (fun _ => (0 : BitVec 6)) sh.tags cell).toNat
  (k.tileWrite a (weltBytesOf w2.1 w2.2),
    ((w2.2 ||| w1.2) &&& 24) != 0 && ((w.2 ||| t ||| (mget (fun _ => (0 : BitVec 6)) sh.tags cell).toNat) &&& 24) == 0)

/-- The unmasked cells of a tile, row by row. -/
def unmasked (rows cols : Nat) : List Nat := (List.range rows).flatMap (fun r => (List.range cols).map (fun c => 32 * r + c))

/-- R93: the whole merge of a shadow; the flag is the tile's overflow. -/
def mergeShadow (k : Core) (sh : Shadow) (bad : List Nat) : Core × Bool :=
  (unmasked sh.rows sh.cols).foldl (fun acc cell => let r := mergeCell sh bad acc.1 cell; (r.1, acc.2 || r.2)) (k, false)

/-! ## Closing a tile (R76, R95) -/

/-- R95: an element's exact value V as a magnitude with sign, or its special tags. -/
def Core.elementAt (k : Core) (t : Tile) (cell : Nat) : XRes × Nat :=
  let (n, tg) := cellOf (mget zeroCell t.cells cell)
  let (w, wt) := if t.weltValid then k.weltRead (dWelt t.desc + 80 * cell) else (0, 0)
  let b := t.base.toInt
  if tg ||| wt ≠ 0 then (.num false 0 0 false, tg ||| wt)
  else
    -- in units of 2^(b − 288): the anchor is never below −288 (R92)
    let v := w + n * 2 ^ (t.anchor.toInt + 288).toNat
    (.num (decide (v < 0)) v.natAbs (b - 288) false, 0)

/-- A rounded tile: the element bits, row scales, flags and poisoned rows. -/
structure Closed where
  elems  : SMap Nat
  scales : List Nat
  fl     : NF
  poison : BitVec 32
deriving DecidableEq, Repr

/-- R42, R48, R76: the rounding of an element at close. -/
def closeRound (k : Core) (t : Tile) (run : CloseRun) (cell : Nat) : Rnd :=
  let f := dFld t.desc 0 5 4
  let r := if f = 3 then run.rnd.toNat else f
  if r = 0 then .rne else if r = 1 then .rtz else .sr (draw16 (k.hemKey 1) run.hem.toNat cell)

/-- R45, R76, R95: one row of a close. -/
def closeRow (k : Core) (t : Tile) (run : CloseRun) (acc : Closed) (r : Nat) : Closed :=
  let code := dFmt t.desc
  let row := (List.range (dCols t.desc)).map (fun c => (32 * r + c, k.elementAt t (32 * r + c)))
  let mags := row.filterMap (fun p => if p.2.2 = 0 then (match p.2.1 with | .num s m e _ => some (FVal.fin s m e) | _ => none) else none)
  let sc := if isMx code then scaleExp code run.fit (maxMag mags) else none
  let x := sc.getD (-127)
  row.foldl (fun acc p =>
    let rn := closeRound k t run p.1
    let e : Elem := match ffmtOf code, specialOf p.2.2 with
      | some g, some sp => writeSpecial g rn run.sat sp
      | some g, none => g.write rn run.sat (match p.2.1 with | .num s m e st => .num s m (if isMx code then e - x else e) st | v => v)
      | none, _ => { bits := 0 }
    { acc with elems := mset (fun _ => 0) acc.elems p.1 e.bits, fl := acc.fl.or e.fl,
               poison := if p.2.2.testBit 5 then acc.poison ||| BitVec.ofNat 32 (2 ^ r) else acc.poison })
    { acc with scales := acc.scales ++ [(x + 127).toNat] }

def closeTile (k : Core) (t : Tile) (run : CloseRun) : Closed :=
  (List.range (dRows t.desc)).foldl (closeRow k t run) { elems := [], scales := [], fl := {}, poison := 0 }

/-- The bytes of row r, n elements of width w. -/
def rowBytes (x : Closed) (w r n : Nat) : List Byte :=
  (List.range n).flatMap (fun c => leBytes (w / 8) (mget (fun _ => 0) x.elems (32 * r + c)))

/-- R76: write the output area and the row scales. -/
def writeOutput (k : Core) (d : BitVec 256) (x : Closed) : Core :=
  let w := fmtWidth (dFmt d)
  let k := (List.range (dRows d)).foldl (fun k r => k.tileWrite (dOut d + r * dStride d) (rowBytes x w r (dCols d))) k
  if isMx (dFmt d) then k.tileWrite (dScale d) (x.scales.map (BitVec.ofNat 8)) else k

/-- R77: the status word of a close. -/
def statusWord (t : Tile) (x : Closed) : W64 :=
  BitVec.ofNat 64 ((t.flags.toNat ||| x.fl.bits) + t.folds * 2 ^ 8 + x.poison.toNat * 2 ^ 16 + dFld t.desc 0 47 32 * 2 ^ 48)

/-- R79: the tile-queue entry of a close. -/
def tqEntry (a : Fin 4) (ts : Fin 2) (t : Tile) (x : Closed) (st : W64) : TqE :=
  let code := dFmt t.desc
  let w := fmtWidth code
  let scales := (List.range 32).map (fun r => BitVec.ofNat 8 (if isMx code then x.scales.getD r 0 else 0))
  { hdr := leBytes 8 st.toNat ++ [BitVec.ofNat 8 (a.val + 4 * ts.val), BitVec.ofNat 8 code.toNat, BitVec.ofNat 8 (dRows t.desc - 1),
           BitVec.ofNat 8 (dCols t.desc - 1)] ++ List.replicate 20 0 ++ scales,
    data := (List.range 32).flatMap (fun r => rowBytes x w r 32) }

end Sys2Proof.Machine
end

