-- ==== Sys2Proof/Machine/Matrix.lean ====
section
/-! DEFINITION. The matrix instructions (R65 to R85, R101): what each checks at issue and what it puts into the matrix queue,
one meaning for each; and the matrix unit at work. -/

namespace Sys2Proof.Machine

/-! ## Issue checks (R70, R71) -/

/-- R65: the code of a slot state. -/
def SlotSt.code : SlotSt → Nat
  | .free => 0
  | .opened => 1
  | .closing => 2
  | .qwait => 3

/-- R71: the state of a tile, its descriptor and whether it is in use, as the queued operations will leave it. -/
def Core.slotAfter (k : Core) (a : Fin 4) (t : Fin 2) : SlotSt × BitVec 256 :=
  k.mq.foldl (fun acc e =>
    if e.m.getLsbD a.val && e.t == t then
      match e.op with
      | .mopen d _ => (.opened, d)
      | .close => (.closing, acc.2)
      | .acc _ _ _ _ => acc
    else acc) ((k.tileAt a t).st, (k.tileAt a t).desc)

/-- R71: every named slot will be Open. -/
def Core.allOpen (k : Core) (m : BitVec 4) (t : Fin 2) : Bool := (named m).all (fun a => (k.slotAfter a t).1 == .opened)

def slotOf (t : Bool) : Fin 2 := if t then 1 else 0

/-- R70: n bytes at offset a lie inside tile memory and are allowed by cM with permission p. -/
def tileSpanOk (m : Cap) (p a n : Nat) : Bool := m.tile && m.allows [p] a n && decide (a + n ≤ Config.tileBytes)

/-- R69, R71: reserved fields of an operand descriptor, and the alignment of its panel. -/
def opDescBad (x : Nat) : Bool :=
  bitsOf x 7 4 != 0 || bitsOf x 63 20 != 0 || bitsOf x 95 87 != 0 || bitsOf x 127 119 != 0 || bitsOf x 159 151 != 0 ||
    bitsOf x 191 183 != 0 || bitsOf x 255 192 != 0 || bitsOf x 67 64 != 0

/-- R70: every byte that an operand descriptor can name. -/
def OpDesc.spansOk (d : OpDesc) (m : Cap) : Bool :=
  (List.range 4).all (fun a => tileSpanOk m pLD (d.panel.toNat + a * d.astride.toNat) (d.nblk * blkBytes d.w) &&
    tileSpanOk m pLD (d.scale.toNat + a * d.sstride.toNat) (32 * d.nblk))

/-- R66, R71: the fields of a tile descriptor that make it malformed. -/
def tileDescBad (x : Nat) : Bool :=
  let d := BitVec.ofNat 256 x
  let area := dDest d == 0 || dDest d == 2
  bitsOf x 19 19 != 0 || bitsOf x 31 30 != 0 || bitsOf x 63 48 != 0 || bitsOf x 95 87 != 0 || bitsOf x 127 112 != 0 ||
    bitsOf x 191 151 != 0 || bitsOf x 255 215 != 0 || x >>> 256 != 0 || dDest d == 3 || dWelt d % 256 != 0 ||
    (area && (dOut d % 16 != 0 || dStride d % 16 != 0 || decide (dStride d < dCols d * fmtWidth (dFmt d) / 8)))

/-- R66: the output formats. -/
def outFmtOk (c : BitVec 4) : Bool := c == 0 || c == 2 || c == 3 || c == 4

/-- R70: the bytes that a tile will write. -/
def tileDescSpansOk (d : BitVec 256) (m : Cap) : Bool :=
  let area := dDest d == 0 || dDest d == 2
  (!area || (List.range (dRows d)).all (fun r => tileSpanOk m pST (dOut d + r * dStride d) (dCols d * fmtWidth (dFmt d) / 8))) &&
    (!(area && isMx (dFmt d)) || tileSpanOk m pST (dScale d) (dRows d)) && m.tile && m.allows [pST] (dWelt d) weltBytes

/-- R67: a welt area lies inside tile memory and apart from that of every other tile in use. The tiles that one mx.open opens
share their area (DEDUCED, log 40). -/
def Core.weltBad (k : Core) (d : BitVec 256) (m : BitVec 4) (t : Fin 2) : Bool :=
  decide (Config.tileBytes < dWelt d + weltBytes) ||
    (arrays.any (fun a => [0, 1].any (fun (t' : Fin 2) =>
      let x := k.slotAfter a t'
      !(m.getLsbD a.val && t' == t) && x.1 != .free && decide (dWelt d < dWelt x.2 + weltBytes) && decide (dWelt x.2 < dWelt d + weltBytes))))

/-- R195: a named array is reserved by an MX stage. -/
def Core.mxHeld (k : Core) (m : BitVec 4) : Bool := (m &&& k.mxReserved) != 0

/-- R84: CORE.MXSTAT.STOPPED lasts until the next matrix instruction. -/
def Core.unstop (k : Core) : Core := { k with stopped := false }

/-- R72: a place in the matrix queue, in issue order. -/
def Core.mxPush (k : Core) (m : BitVec 4) (t : Fin 2) (op : MOp) : Core :=
  { k.unstop with mq := k.mq ++ [{ sq := k.mxSq, m := m, t := t, op := op }], mxSq := k.mxSq + 1 }

/-- R72: the matrix queue holds 8 operations: a bundle with a matrix syllable, whichever it is, waits. -/
def Core.mqFull (k : Core) : Bool := decide (8 ≤ k.mq.length)

/-- R71, R72: the first fault present, else a place in the queue, held while it is full. -/
def mxIssue (c : CoreId) (faults : List (Bool × BitVec 16)) (m : BitVec 4) (t : Fin 2) (op : MOp) (s : State) : Issue :=
  Issue.orElse (s.core c).mqFull .queueFull (firstFault faults) (goCore c (fun k => k.mxPush m t op))

/-- R101: the slice fields against CORE.ACCCTL as it will stand when the pass starts: the values in use, since the pass keeps the unit
running from its issue on and an idle unit takes a write at once (R84). -/
def sliceBad (k : Core) (i j : Nat) : Bool :=
  let n := k.accS.toNat
  decide (n ≤ i) || decide (n ≤ j) || (!k.accFull && decide (n - 1 < i + j))

/-- The checks that mx.acc and mx.accs share (R68, R69, R71). -/
def accFaults (k : Core) (m : BitVec 4) (t : Fin 2) (a b : Option OpDesc) (sl : Option Slice) : List (Bool × BitVec 16) :=
  match a, b with
  | some da, some db =>
    [(sl.isSome && !(da.fmt == 8 && db.fmt == 8), 0x3010), (m == 0 || da.nblkM1 != db.nblkM1, 0x3011),
      (match sl with | some z => sliceBad k z.i z.j | none => false, 0x4010), (k.mxHeld m, 0x6016), (!k.allOpen m t, 0x3014)]
  | _, _ => [(true, 0x3013)]

def mxAccIssue (c : CoreId) (m : BitVec 4) (t : Bool) (mdA mdB : BitVec 3) (sl : Option Slice) (s : State) : Issue :=
  let k := s.core c
  let a := k.md[mdA.toNat]'(by have := mdA.isLt; omega)
  let b := k.md[mdB.toNat]'(by have := mdB.isLt; omega)
  match a, b with
  | some da, some db => mxIssue c (accFaults k m (slotOf t) a b sl) m (slotOf t) (.acc da db sl 0) s
  | _, _ => .fault 0x3013 0

/-! ## The meanings of the matrix syllables -/

/-- R68, R69, R70. -/
def mMxLdd (c : CoreId) (md : BitVec 3) (cM : CReg) (gK : GReg) (s : State) : Issue :=
  let k := s.core c
  let m := k.getC cM
  let a := (k.getG gK).toNat
  let x := k.tileNat a 32
  let d := opDescOf x
  Issue.orElse k.mqFull .queueFull
    (firstFault [(a % 32 != 0, 0x3011), (!tileSpanOk m pLD a 32, 0x3012), (!isMx d.fmt, 0x3010), (opDescBad x, 0x3011),
      (!d.spansOk m, 0x3012)])
    (goCore c (fun k => { k.unstop with md := k.md.set md.toNat (some d) (by have := md.isLt; omega) }))

/-- R66, R67, R68. A poisoned word of the descriptor is read as data: R436 says that every reader sees the poison, and no rule says
what the matrix unit does with it outside operands (DESIGN CHOICE, log 97; mx.ldd and mx.resume likewise). -/
def mMxOpen (c : CoreId) (m : BitVec 4) (t : Bool) (cM : CReg) (gK : GReg) (s : State) : Issue :=
  let k := s.core c
  let cm := k.getC cM
  let a := (k.getG gK).toNat
  let x := k.tileNat a 64
  let d := BitVec.ofNat 256 x
  mxIssue c [(a % 64 != 0, 0x3011), (!tileSpanOk cm pLD a 64, 0x3012), (!outFmtOk (dFmt d), 0x3010), (m == 0 || tileDescBad x, 0x3011),
      (!tileDescSpansOk d cm, 0x3012), (k.mxHeld m, 0x6016),
      ((named m).any (fun b => (k.slotAfter b (slotOf t)).1 == .opened), 0x3015), (k.weltBad d m (slotOf t), 0x3016)]
    m (slotOf t) (.mopen d (k.getG gK)) s

/-- R57, R68. -/
def mMxAcc (c : CoreId) (m : BitVec 4) (t : Bool) (mdA mdB : BitVec 3) (s : State) : Issue := mxAccIssue c m t mdA mdB none s

/-- R101. -/
def mMxAccs (c : CoreId) (m : BitVec 4) (t : Bool) (mdA mdB : BitVec 3) (i j : BitVec 3) (fe : Bool) (s : State) : Issue :=
  mxAccIssue c m t mdA mdB (some ⟨i.toNat, j.toNat, fe⟩) s

/-- R68, R76. -/
def mMxClose (c : CoreId) (m : BitVec 4) (t : Bool) (s : State) : Issue :=
  let k := s.core c
  mxIssue c [(m == 0, 0x3011), (k.mxHeld m, 0x6016), (!k.allOpen m (slotOf t), 0x3014)] m (slotOf t) .close s

/-- R77: the latest close of a tile has not ended. -/
def Core.closePending (k : Core) (a : Fin 4) (t : Fin 2) : Bool :=
  (k.tileAt a t).st == .closing || (k.tileAt a t).st == .qwait ||
    k.mq.any (fun e => e.m.getLsbD a.val && e.t == t && (match e.op with | .close => true | _ => false))

/-- R68, R72, R77, R195. -/
def mMxWait (c : CoreId) (gD : GReg) (a : BitVec 2) (t : Bool) (s : State) : Issue :=
  let k := s.core c
  let i := tileIx (Fin.ofNat 4 a.toNat) (slotOf t)
  if k.mxReserved.getLsbD a.toNat then .fault 0x6016 0
  else if k.closePending (Fin.ofNat 4 a.toNat) (slotOf t) then .hold (.mxWait i.val)
  else if k.mqFull then .hold .queueFull
  else goCore c (fun q => q.unstop.setG gD (k.lastStatus.get i))

/-- R84: CORE.MXSTAT. Past 8, which only an mx.resume onto queued operations reaches, MQCNT shows at most what its four bits hold
(log 94). -/
def Core.mxStat (k : Core) : Nat :=
  k.stopped.toNat * 2 ^ 23 + min 15 k.mq.length * 2 ^ 19 + k.tileQueue.length * 2 ^ 16 +
    (List.range 8).foldl (fun n i => n + (k.tiles.get (Fin.ofNat 8 i)).st.code * 2 ^ (2 * i)) 0

/-- R68, R72. -/
def mMxStat (c : CoreId) (gD : GReg) (s : State) : Issue :=
  if (s.core c).mqFull then .hold .queueFull else goCore c (fun k => k.unstop.setG gD (BitVec.ofNat 64 (s.core c).mxStat))

/-! ## Stopping and resuming (R83, R98, R99) -/

/-- R83: bytes of a save area. -/
def saveBytes : Nat := 132160

/-- The running accumulate has made all its steps and only has to retire. -/
def Core.accDone (k : Core) : Bool :=
  match k.acc with
  | some e => (match e.op with | .acc oa _ _ blk => decide (oa.nblk ≤ blk) | _ => false)
  | none => false

/-- R83 steps 1 and 2: a fold or a close is still under way, or an accumulate that has no step left is retiring. -/
def Core.stopWaits (k : Core) : Bool :=
  k.closes.toList.any Option.isSome || !k.qwait.isEmpty || k.shadows.toList.any Option.isSome || k.accDone

/-- R99: a tile's 64-byte record. -/
def tileRecord (t : Tile) : List Byte :=
  leBytes 32 t.desc.toNat ++ leBytes 2 (t.anchor.signExtend 16).toNat ++ leBytes 2 (t.base.signExtend 16).toNat ++
    [BitVec.ofNat 8 (t.baseSet.toNat + 2 * t.anchSet.toNat + 4 * t.weltValid.toNat), BitVec.ofNat 8 t.folds,
      BitVec.ofNat 8 t.flags.toNat, 0] ++ leBytes 8 t.blocks ++ List.replicate 16 0

def tileOfRecord (x : Nat) (cells : SMap (BitVec 128)) : Tile :=
  { st := .opened, desc := BitVec.ofNat 256 x, anchor := BitVec.ofNat 10 (bitsOf x 265 256), base := BitVec.ofNat 10 (bitsOf x 281 272),
    baseSet := x.testBit 288, anchSet := x.testBit 289, weltValid := x.testBit 290, folds := bitsOf x 303 296,
    flags := BitVec.ofNat 4 (bitsOf x 307 304), blocks := bitsOf x 383 320, cells := cells }

/-- R83: the syllable of an operation's record. A close that has started on some of its arrays names the others alone: m is its bits
23 to 20. -/
def MqE.left (e : MqE) : Nat := match e.op with | .close => setBits e.syl.toNat 23 20 e.m.toNat | _ => e.syl.toNat

/-- R178, R179: the darn record of a matrix operation. -/
def MqE.darn (e : MqE) (c : CoreId) (started : Bool) : List Byte :=
  let kind : Nat := match e.op with | .acc _ _ _ _ => 2 | _ => 3
  let prog : Nat := match e.op with | .acc _ _ _ b => b | _ => 0
  let body : List Byte := match e.op with
    | .acc a b _ _ => leBytes 14 a.pack ++ leBytes 14 b.pack ++ List.replicate 12 0
    | .mopen _ off => leBytes 4 off.toNat ++ List.replicate 36 0
    | .close => List.replicate 40 0
  [BitVec.ofNat 8 kind, BitVec.ofNat 8 started.toNat, 0, 0] ++ leBytes 4 e.left ++ leBytes 4 0 ++
    [0, BitVec.ofNat 8 (coreLocal c), 0, 0] ++ leBytes 8 prog ++ body

/-- R83: the operations to record, in issue order, each with whether it had started. What a fused command issued stays in its
queue, and so do the tiles of the arrays that it reserves (DEDUCED from R195, log 47). -/
def Core.stopOps (k : Core) : List (MqE × Bool) :=
  match k.acc with
  | none => (k.mq.filter (fun e => e.src.isNone)).map (fun e => (e, false))
  | some e =>
    let mine := k.mq.filter (fun e => e.src.isNone)
    if e.src.isSome then mine.map (fun e => (e, false))
    else (mine.takeWhile (fun x => decide (x.sq < e.sq))).map (fun e => (e, false)) ++ [(e, true)] ++
      (mine.dropWhile (fun x => decide (x.sq < e.sq))).map (fun e => (e, false))

/-- A tile of a reserved array: tile i is slot i % 2 of array i / 2. -/
def Core.tileReserved (k : Core) (i : Nat) : Bool := k.mxReserved.getLsbD (i / 2)

/-- R84: CORE.MXCTL and CORE.ACCCTL see the unit run: its queue holds an operation, an accumulate or a fold has not retired, or a close
is in progress. A close in Queue wait is in progress, for it ends only as it enters the tile queue (DEDUCED from R80, R83, log 95). -/
def Core.mxRuns (k : Core) : Bool :=
  !k.mq.isEmpty || k.acc.isSome || k.feq.any (fun j => j != .welt) || k.closes.toList.any Option.isSome || !k.qwait.isEmpty

/-- R84, R104: ACCCTL takes its written values when nothing runs. -/
def Core.mxBoundary (k : Core) : Core :=
  if k.mxRuns then k else { k with accFull := k.fld 0x1300 4 4 = 1, accS := BitVec.ofNat 4 (k.fld 0x1300 3 0) }

/-- R83: mx.stop writes its save area at a and empties the unit. -/
def Core.mxStop (k : Core) (c : CoreId) (a : Nat) : Core :=
  let saved := (List.range 8).filter (fun i => (k.tiles.get (Fin.ofNat 8 i)).st == .opened && !k.tileReserved i)
  let ops := k.stopOps
  let mask := saved.foldl (fun n i => n + 2 ^ i) 0
  let k1 := k.tileWrite a ([1, BitVec.ofNat 8 mask, BitVec.ofNat 8 ops.length] ++ List.replicate 61 0)
  let k2 := saved.foldl (fun q i =>
    let t := k.tiles.get (Fin.ofNat 8 i)
    (q.tileWrite (a + 64 + 16448 * i) (tileRecord t)).tileWrite (a + 128 + 16448 * i)
      ((List.range 1024).flatMap (fun j => leBytes 16 (mget zeroCell t.cells j).toNat))) k1
  let k3 := (ops.zipIdx).foldl (fun q p => q.tileWrite (a + 131648 + 64 * p.2) (p.1.1.darn c p.1.2)) k2
  Core.mxBoundary { k3 with
    mq := k.mq.filter (fun e => e.src.isSome), acc := k.acc.filter (fun e => e.src.isSome),
            tiles := .ofFn (fun i => if k.tileReserved i.val then k.tiles.get i else { (k.tiles.get i) with st := .free }), stopped := true }

def mMxStop (c : CoreId) (cM : CReg) (gK : GReg) (s : State) : Issue :=
  let k := s.core c
  let a := (k.getG gK).toNat
  if a % 64 != 0 || !tileSpanOk (k.getC cM) pST a saveBytes then .fault 0x3012 0
  else if k.mqFull then .hold .stopFull
  else if k.stopWaits then .hold .stop
  else goCore c (fun k => k.mxStop c a)

/-- R83, R99, R180: the operation that a darn record names; an mx.open reads its descriptor again. -/
def Core.opOfDarn (k : Core) (c : CoreId) (x : Nat) (sq : Nat) : Option MqE :=
  let w := bitsOf x 63 32
  match decodeSyl c 6 (w % 2 ^ 28) none with
  | .ok (.mxOpen _ m t _ _) =>
    let off := bitsOf x 223 192
    some { syl := BitVec.ofNat 32 w, sq := sq, m := m, t := slotOf t, op := .mopen (BitVec.ofNat 256 (k.tileNat off 32)) (BitVec.ofNat 64 off) }
  | .ok (.mxClose _ m t) => some { syl := BitVec.ofNat 32 w, sq := sq, m := m, t := slotOf t, op := .close }
  | .ok (.mxAcc _ m t _ _) =>
    some { syl := BitVec.ofNat 32 w, sq := sq, m := m, t := slotOf t,
           op := .acc (OpDesc.unpack (bitsOf x 303 192)) (OpDesc.unpack (bitsOf x 415 304)) none (bitsOf x 191 128) }
  | .ok (.mxAccs _ m t _ _ i j fe) =>
    some { syl := BitVec.ofNat 32 w, sq := sq, m := m, t := slotOf t,
           op := .acc (OpDesc.unpack (bitsOf x 303 192)) (OpDesc.unpack (bitsOf x 415 304)) (some ⟨i.toNat, j.toNat, fe⟩) (bitsOf x 191 128) }
  | _ => none

/-- R83: mx.resume restores the saved tiles as Open and puts the recorded operations back at the head of the queue. Slots that are not
Free are overwritten, and operations still queued follow the recorded ones, past 8 if need be (DESIGN CHOICE, log 94). -/
def Core.mxResume (k : Core) (c : CoreId) (a : Nat) : Core :=
  let hdr := k.tileNat a 3
  let saved := (List.range 8).filter (fun i => (hdr / 256).testBit i)
  let n := hdr / 65536
  let ops := (List.range n).filterMap (fun j => k.opOfDarn c (k.tileNat (a + 131648 + 64 * j) 64) j)
  let tiles := saved.foldl (fun (v : Vector Tile 8) i =>
    let cells := (List.range 1024).foldl (fun m j => mset zeroCell m j (BitVec.ofNat 128 (k.tileNat (a + 128 + 16448 * i + 16 * j) 16))) []
    v.set (i % 8) (tileOfRecord (k.tileNat (a + 64 + 16448 * i) 64) cells) (Nat.mod_lt _ (by omega))) k.tiles
  { k with tiles := tiles, mq := ops ++ k.mq.map (fun e => { e with sq := e.sq + n }), mxSq := k.mxSq + n, stopped := false }

def mMxResume (c : CoreId) (cM : CReg) (gK : GReg) (s : State) : Issue :=
  let k := s.core c
  let a := (k.getG gK).toNat
  let h := k.tileNat a 64
  if a % 64 != 0 || !tileSpanOk (k.getC cM) pLD a saveBytes then .fault 0x3012 0
  else if h % 256 != 1 || decide (8 < bitsOf h 23 16) || h >>> 24 != 0 then .fault 0x3017 0
  else if k.mqFull then .hold .queueFull
  else goCore c (fun k => k.mxResume c a)

/-! ## The matrix unit at work (R72 to R76, R91 to R96) -/

/-- mx.stop holds its bundle: nothing starts and no step is made (R83 step 1). -/
def Core.stopping (k : Core) : Bool := match k.held with | some h => h.why == .stop | none => false

/-- R73: two operations need one resource on array a: its tile, the core's one accumulate, or the array's one close. -/
def MqE.shares (x e : MqE) (a : Fin 4) : Bool :=
  (x.m.getLsbD a.val && x.t == e.t) ||
    (match x.op, e.op with | .acc _ _ _ _, .acc _ _ _ _ => true | .close, .close => x.m.getLsbD a.val | _, _ => false)

/-- R73: array a may start queue entry e: no earlier entry needs what it needs, and no running accumulate is on the same tile. -/
def Core.mxFree (k : Core) (i : Nat) (e : MqE) (a : Fin 4) : Bool :=
  !(k.mq.take i).any (fun x => x.shares e a) &&
    !(match k.acc with | some x => x.m.getLsbD a.val && x.t == e.t | none => false)

/-- R66: the tile that mx.open leaves. -/
def openedTile (d : BitVec 256) : Tile :=
  { st := .opened, desc := d, base := if dAuto d then 0 else BitVec.ofNat 10 (dFld d 0 29 20), baseSet := !dAuto d }

/-- R48, R54, R76: array a begins a close of slot t. -/
def Core.closeStart (k : Core) (a : Fin 4) (t : Fin 2) (src : Option (Nat × Nat)) : Core :=
  let k := { k with aRnd := BitVec.ofNat 2 (k.fld rNUMCTL 3 2), aSat := k.fld rNUMCTL 4 4 = 1, aFit := k.fld rNUMCTL 5 5 = 1 }
  let x := k.tileAt a t
  let f := dFld x.desc 0 5 4
  let run : CloseRun := { t := t, rnd := k.aRnd, sat := k.aSat, fit := k.aFit, hem := k.reg (rHEM 1 2), src := src }
  let sr := f == 2 || (f == 3 && k.aRnd == 2)
  let k := { (k.setTile a t { x with st := .closing }) with closes := k.closes.set a.val (some run) a.isLt }
  if sr then k.advanceHem 1 128 else k

/-- R73: queue entry i starts. A close starts on each array that can start it; an open and an accumulate start on all. -/
def Core.mxStart (k : Core) (i : Nat) : Core :=
  match k.mq[i]? with
  | none => k
  | some e =>
    let as := named e.m
    let ok := as.all (k.mxFree i e)
    if k.stopping then k
    else match e.op with
      | .mopen d _ =>
        if ok && as.all (fun a => (k.tileAt a e.t).st == .free) then
          (as.foldl (fun k a => k.setTile a e.t (openedTile d)) ({ k with mq := k.mq.eraseIdx i } : Core)).mxBoundary
        else k
      | .acc _ _ _ _ => if ok && k.acc.isNone then { k with mq := k.mq.eraseIdx i, acc := some e } else k
      | .close =>
        let go := as.filter (fun a => k.mxFree i e a && (k.closes.get a).isNone && (k.tileAt a e.t).st == .opened)
        let left := as.filter (fun a => !go.contains a)
        let m : BitVec 4 := BitVec.ofNat 4 (left.foldl (fun n a => n + 2 ^ a.val) 0)
        go.foldl (fun k a => k.closeStart a e.t e.src)
          { k with mq := if left.isEmpty then k.mq.eraseIdx i else listUpd (fun x => { x with m := m }) k.mq i }

/-- What a block's end does to one array: its tile, a shadow if it folds, whether the block is Wide, whether a slab was out of
the window, and the anchor that the block would set (R92). -/
structure ArrayEnd where
  a : Fin 4
  tile : Tile
  shadow : Option Shadow
  wide : Bool
  oor : Bool
  anchor : Option (BitVec 10)
deriving DecidableEq, Repr

def Core.arrayEnd (k : Core) (t : Fin 2) (oa ob : OpDesc) (sl : Option Slice) (blk : Nat) (a : Fin 4) : ArrayEnd :=
  let x := k.tileAt a t
  let q := unitExp oa.fmt + unitExp ob.fmt
  let l := k.blockSlabs x.desc a oa ob sl blk
  let f := blockFind x q l
  let r := tileAfterBlock x t q sl l
  { a := a, tile := r.1, shadow := r.2, wide := f.why.wide,
    oor := match f.base with | some b => (l.filter CellSlab.nonzero).any (fun s => windowOf b s.x != .within) | none => false,
    anchor := f.hl.map (fun p => BitVec.ofInt 10 (newAnchor (f.base.getD 0) p.1 p.2 sl)) }

/-- R57: steps of a K-block. -/
def blockSteps (oa ob : OpDesc) : Nat := if oa.w = 4 ∧ ob.w = 4 then 4 else 8

/-- R93: count A-cycles without a step: waits for banks and aging, stalls for capture and a busy shadow. -/
def Core.countStalls (k : Core) (waits stalls : Nat) : Core := (k.count 0x1220 63 0 (waits + stalls)).count 0x1318 63 0 stalls

/-- R93: put captures into the shadows, in ascending array number. -/
def Core.capture (k : Core) (l : List (Fin 4 × Shadow)) : Core :=
  l.foldl (fun k p => { k with shadows := k.shadows.set p.1.val (some p.2) p.1.isLt, feq := k.feq ++ [.merge p.1] }) k

/-- The A-cycles that captures stop the accumulate (R93). -/
def captureCycles (l : List (Fin 4 × Shadow)) : Nat := if l.isEmpty then 0 else (l.foldl (fun n p => max n p.2.rows) 0) + 2

/-- R86 to R93: the running accumulate ends a K-block. -/
def Core.accBlock (k : Core) (waits stalls : Nat) : Core :=
  match k.acc with
  | none => k
  | some e =>
    match e.op with
    | .acc oa ob sl blk =>
      let rs := (named e.m).map (k.arrayEnd e.t oa ob sl blk)
      let caps := rs.filterMap (fun r => r.shadow.map (fun s => (r.a, s)))
      let busy := caps.any (fun p => (k.shadows.get p.1).isSome)
      if k.stopping || busy || decide (oa.nblk ≤ blk) then k
      else
        let run : MqE := { e with op := .acc oa ob sl (blk + 1), anchors := rs.filterMap (fun r => r.anchor.map (fun x => (r.a, x))) }
      let k := rs.foldl (fun (k : Core) r => k.setTile r.a e.t r.tile) { k with acc := some run }
        let k := (k.capture caps).count 0x1218 63 0 (blockSteps oa ob)
        let k := (k.countStalls waits (stalls + captureCycles caps)).count 0x1310 63 0 caps.length
        let k := k.count 0x1320 31 16 (rs.filter ArrayEnd.wide).length
        if rs.any ArrayEnd.oor then k.count 0x1320 15 0 1 else k
    | _ => k

/-- R91: the fold that FE forces after the last block, whose slabs set the anchors. -/
def Core.forceFolds (k : Core) (e : MqE) : Core :=
  let rs := (named e.m).map (fun a => (a, forcedFold (k.tileAt a e.t) e.t ((e.anchors.find? (fun p => p.1 == a)).map Prod.snd)))
  let k := rs.foldl (fun k r => k.setTile r.1 e.t r.2.1) k
  let caps := rs.map (fun r => (r.1, r.2.2))
  ((k.capture caps).countStalls 0 (captureCycles caps)).count 0x1310 63 0 caps.length

/-- R73, R91, R93: the accumulate retires, after a number of A-cycles for which the fold that FE forces found a shadow busy. -/
def Core.accRetire (k : Core) (stalls : Nat) : Core :=
  match k.acc with
  | none => k
  | some e =>
    match e.op with
    | .acc oa _ sl blk =>
      let fe := match sl with | some z => z.fe | none => false
      if blk < oa.nblk || (fe && (named e.m).any (fun a => (k.shadows.get a).isSome)) then k
      else (if fe then { (k.countStalls 0 stalls).forceFolds e with acc := none } else { k with acc := none }).mxBoundary
    | _ => k

/-- R93, R105: the merge at the head of the fold engine's queue ends. -/
def Core.foldMerge (k : Core) (bad : List Nat) : Core :=
  match k.feq with
  | .merge a :: r =>
    match k.shadows.get a with
    | none => { k with feq := r }
    | some sh =>
      let (k1, ov) := mergeShadow k sh bad
      let k1 := if ov then k1.setTile a sh.t ((k1.tileAt a sh.t).raise ({ ov := true } : NF)) else k1
      ({ k1 with feq := r, shadows := k.shadows.set a.val none a.isLt }).mxBoundary
  | _ => k

/-- R80: a close's entry joins the tile queue and its slot becomes Free. -/
def Core.tqEnter (k : Core) (a : Fin 4) (t : Fin 2) (e : TqE) (st : W64) : Core :=
  { (k.setTile a t { (k.tileAt a t) with st := .free }) with
    tileQueue := k.tileQueue ++ [e], lastStatus := k.lastStatus.set (tileIx a t).val st (tileIx a t).isLt }

/-- R191: a stage of a fused command learns that one of its closes has ended. -/
def Core.noteClose (k : Core) (src : Option (Nat × Nat)) (a : Fin 4) : Core :=
  match src with
  | some (s, i) => k.updStage s i (fun g => { g with ended := listUpd (· + 1) g.ended a.val })
  | none => k

/-- R76 to R80, R95: the close on array a ends. -/
def Core.closeEnd (k : Core) (a : Fin 4) : Core :=
  match k.closes.get a with
  | none => k
  | some run =>
    let t := run.t
    let x := k.tileAt a t
    let merging := match k.shadows.get a with | some sh => sh.t == t | none => false
    if merging then k
    else
      let c := closeTile k x run
      let st := statusWord x c
      let dest := dDest x.desc
      let k := if dest = 0 ∨ dest = 2 then writeOutput k x.desc c else k
      let k := ({ k with closes := k.closes.set a.val none a.isLt }).noteClose run.src a
      let k := k.setReg rNUMFLAGS (k.reg rNUMFLAGS ||| BitVec.ofNat 64 ((st.toNat % 16) * 2 ^ 8))
      let k := if c.poison ≠ 0 then k.count 0x1210 15 0 1 else k
      let e := tqEntry a t x c st
      if dest = 0 then
        ({ (k.setTile a t { x with st := .free }) with lastStatus := k.lastStatus.set (tileIx a t).val st (tileIx a t).isLt }).mxBoundary
      else if k.tileQueue.length < 4 && k.qwait.isEmpty then (k.tqEnter a t e st).mxBoundary
      else ({ (k.setTile a t { x with st := .qwait }) with qwait := k.qwait ++ [(⟨a, t, e, st⟩ : QWait)] }).mxBoundary

/-- R80: the first close in Queue wait enters the tile queue. -/
def Core.tileQueueEntry (k : Core) : Core :=
  match k.qwait with
  | [] => k
  | w :: r => if k.tileQueue.length < 4 then (({ k with qwait := r } : Core).tqEnter w.a w.t w.e w.status).mxBoundary else k

/-- Raise a fault on the held bundle (R81, R123). -/
def Core.faultHeld (k : Core) (code : BitVec 16) : Core :=
  match k.held with
  | none => k
  | some h => { k with held := none, exc := some { cls := 0, code := code, syl := h.syl, slot := h.slot, len := h.len } }

/-- R81: a vector instruction that removes a tile-queue entry is in flight or issued. -/
def Core.popQueued (k : Core) : Bool :=
  k.vq.any (fun e => match e.instr with | .vxTqpop _ _ => true | _ => false) || (match k.held with | some h => h.pop | none => false)

/-- R81: the held bundle waits for a close in Queue wait. -/
def Core.waitsOnQueue (k : Core) : Bool :=
  match k.held with
  | some h => (match h.why with
    | .mxWait i => k.qwait.any (fun w => (tileIx w.a w.t).val == i)
    | .stop | .stopFull => !k.qwait.isEmpty
    | _ => false)
  | none => false

/-! ## The events of the matrix unit -/

/-- R73. -/
def execMatrixOpStart (c : CoreId) (i : Nat) (s : State) : Host.Outcome State Fault Refusal := .next (s.updCore c (fun k => k.mxStart i))

/-- R91. The banks may find words of tile memory in error as the block's operands are read (R436): the words listed. -/
def execAccBlockEnd (c : CoreId) (waits stalls : Nat) (s : State) (bank : List Nat := []) : Host.Outcome State Fault Refusal :=
  .next (s.updCore c (fun k => (k.bankErrors bank).accBlock waits stalls))

/-- R93, R105: a parity error in the shadow posts fault record 0x4020. -/
def execFoldMergeEnd (c : CoreId) (parityBad : List Nat) (s : State) : Host.Outcome State Fault Refusal :=
  let runs := match (s.core c).feq with | .merge _ :: _ => true | _ => false
  let s1 := s.updCore c (fun k => k.foldMerge parityBad)
  .next (if runs && !parityBad.isEmpty then s1.coreFault c 0x4020 0 else s1)

/-- R73. -/
def execAccRetire (c : CoreId) (s : State) (stalls : Nat := 0) : Host.Outcome State Fault Refusal := .next (s.updCore c (fun k => k.accRetire stalls))

/-- R76. -/
def execCloseEnd (c : CoreId) (a : Fin 4) (s : State) : Host.Outcome State Fault Refusal := .next (s.updCore c (fun k => k.closeEnd a))

/-- R80. -/
def execTileQueueEntry (c : CoreId) (s : State) : Host.Outcome State Fault Refusal := .next (s.updCore c Core.tileQueueEntry)

/-- R81: fault 0x3021 on the held bundle. -/
def execTileQueueNotDrained (c : CoreId) (s : State) : Host.Outcome State Fault Refusal :=
  let k := s.core c
  .next (if k.waitsOnQueue && !k.popQueued && k.fld 0x1208 1 1 = 1 then s.updCore c (fun k => k.faultHeld 0x3021) else s)

end Sys2Proof.Machine
end

