-- ==== Sys2Proof/Machine/Memory.lean ====
section
/-! DEFINITION. Device memory (chapter 11): where a physical address lives, reading and writing memory with its tag and poison
bits, the channel controllers with their queues, retraining, live patch, soak engines and start-up. -/

namespace Sys2Proof.Machine

/-! ## Registers of clusters, regions and dies -/

def Cluster.reg (k : Cluster) (off : Nat) : W64 := mget clusterReset k.regs off
def Cluster.setReg (k : Cluster) (off : Nat) (v : W64) : Cluster := { k with regs := mset clusterReset k.regs off v }
def Cluster.count (k : Cluster) (off hi lo n : Nat) : Cluster :=
  k.setReg off (BitVec.ofNat 64 (setBits (k.reg off).toNat hi lo (satAdd (hi + 1 - lo) (bitsOf (k.reg off).toNat hi lo) n)))
def Cluster.fld (k : Cluster) (off hi lo : Nat) : Nat := bitsOf (k.reg off).toNat hi lo

def Region.reg (k : Region) (off : Nat) : W64 := mget regionReset k.regs off
def Region.setReg (k : Region) (off : Nat) (v : W64) : Region := { k with regs := mset regionReset k.regs off v }
def Region.fld (k : Region) (off hi lo : Nat) : Nat := bitsOf (k.reg off).toNat hi lo
def Region.setFld (k : Region) (off hi lo v : Nat) : Region := k.setReg off (BitVec.ofNat 64 (setBits (k.reg off).toNat hi lo v))
def Region.count (k : Region) (off hi lo n : Nat) : Region := k.setFld off hi lo (satAdd (hi + 1 - lo) (k.fld off hi lo) n)

def Die.reg (k : Die) (off : Nat) : W64 := mget dieReset k.regs off
def Die.setReg (k : Die) (off : Nat) (v : W64) : Die := { k with regs := mset dieReset k.regs off v }
def Die.fld (k : Die) (off hi lo : Nat) : Nat := bitsOf (k.reg off).toNat hi lo
def Die.setFld (k : Die) (off hi lo v : Nat) : Die := k.setReg off (BitVec.ofNat 64 (setBits (k.reg off).toNat hi lo v))
def Die.count (k : Die) (off hi lo n : Nat) : Die := k.setFld off hi lo (satAdd (hi + 1 - lo) (k.fld off hi lo) n)

/-- R437: die 0's copy of a package register governs. -/
def State.pkgFld (s : State) (off hi lo : Nat) : Nat := (s.die 0).fld off hi lo
def State.setPkgFld (s : State) (off hi lo v : Nat) : State := s.updDie 0 (fun d => d.setFld off hi lo v)
def State.pkgCount (s : State) (off hi lo n : Nat) : State := s.updDie 0 (fun d => d.count off hi lo n)

def State.regionReport (s : State) (r : RegionId) (code : BitVec 16) (event : Bool) (addr : W64) (detail : BitVec 128 := 0) : State :=
  s.post { code := code, event := event, level := 2, num := r.val, die := r.val / 4, addr := addr, detail := detail }

def State.clusterReport (s : State) (c : ClusterId) (code : BitVec 16) (event : Bool) (addr : W64) (detail : BitVec 128 := 0) : State :=
  s.post { code := code, event := event, level := 1, num := c.val, die := c.val / 8, addr := addr, detail := detail }

def State.dieReport (s : State) (d : DieId) (code : BitVec 16) (event : Bool) (addr : W64) (detail : BitVec 128 := 0) : State :=
  s.post { code := code, event := event, level := 3, num := d.val, die := d.val, addr := addr, detail := detail }

def State.pkgReport (s : State) (code : BitVec 16) (event : Bool) (addr : W64) (detail : BitVec 128 := 0) : State :=
  s.post { code := code, event := event, level := 4, num := 0, die := 0, addr := addr, detail := detail }

/-! ## The physical address map (R16, R261, R262) -/

/-- What a physical address names (R16). -/
inductive PaKind where
  | dev | win (d : DieId) (off : Nat) | remote (pos : BitVec 10) (off : Nat) | reserved
deriving DecidableEq, Repr

def paKind (pa : Nat) : PaKind :=
  let d : DieId := if pa.testBit 39 then 1 else 0
  let off := pa % 2 ^ 39
  if 2 ^ 48 ≤ pa then .reserved
  else if pa.testBit 47 then .remote (BitVec.ofNat 10 (bitsOf pa 46 37)) (bitsOf pa 36 0)
  else if bitsOf pa 46 40 ≠ 0 then .reserved
  else if off < Config.dieBytes then .dev
  else if 0x7F00000000 ≤ off then .win d (off - 0x7F00000000)
  else .reserved

/-- n bytes at pa lie in device memory. -/
def devSpan (pa n : Nat) : Bool := paKind pa == .dev && (n == 0 || paKind (pa + n - 1) == .dev)

/-- Where a byte of device memory lives: package region, logical channel, in-channel address. -/
structure Place where
  region : RegionId
  lch    : Fin 16
  addr   : Nat
deriving DecidableEq, Repr

/-- R261: the channel scramble of granule q of a channel. -/
def stitchHash (q : Nat) : Nat :=
  (List.range 5).foldl (fun h j => let s := (q >>> (6 * j)) % 64; h ^^^ (((s <<< j) ||| (s >>> (6 - j))) % 64)) 0

/-- R261, R262: the place of a device-memory address under the map (false: stitch, true: basting). -/
def placeOf (basting : Bool) (pa : Nat) : Place :=
  let die := (pa >>> 39) % 2
  let off := pa % 2 ^ 39
  if basting then
    let rem := off % 0x1400000000
    { region := Fin.ofNat 8 (4 * die + off / 0x1400000000 % 4), lch := Fin.ofNat 16 (rem / Config.channelBytes), addr := rem % Config.channelBytes }
  else
    let g := off >>> 8
    let q := g >>> 6
    let c := (g % 64) ^^^ stitchHash q
    { region := Fin.ofNat 8 (4 * die + c / 16), lch := Fin.ofNat 16 c, addr := q * 256 + off % 256 }

/-- The inverse of placeOf. -/
def paOf (basting : Bool) (p : Place) : Nat :=
  let die := p.region.val / 4
  let r := p.region.val % 4
  if basting then die * 2 ^ 39 + r * 0x1400000000 + p.lch.val * Config.channelBytes + p.addr
  else
    let q := p.addr / 256
    let low := (16 * r + p.lch.val) ^^^ stitchHash q
    die * 2 ^ 39 + (q * 64 + low) * 256 + p.addr % 256

/-- R285: MEM.MAP.MAP: 1 is the basting map. -/
def State.basting (s : State) : Bool := s.pkgFld 0x600000 0 0 = 1
def State.place (s : State) (pa : Nat) : Place := placeOf s.basting pa

/-- R258: the physical channel that carries a logical channel, and its controller. -/
def Region.physOf (r : Region) (l : Fin 16) : PhysId := r.remap.get l
def State.chanOf (s : State) (p : Place) : Chan := (s.region p.region).chans.get ((s.region p.region).physOf p.lch)
def Region.updChan (r : Region) (p : PhysId) (f : Chan → Chan) : Region := { r with chans := r.chans.set p.val (f (r.chans.get p)) p.isLt }

/-- R287: counters and registers of physical channel p, by their offset within the channel. -/
def mcOff (p : PhysId) (o : Nat) : Nat := 0x80000 + 0x1000 * p.val + o
def cCE : Nat := 0x100
def cUE : Nat := 0x108
def cPRD : Nat := 0x110
def cPARTP : Nat := 0x118
def cRTWAIT : Nat := 0x120
def cRTFAIL : Nat := 0x128
def cAGED : Nat := 0x130
def cRANAN : Nat := 0x138
def cRAPOIS : Nat := 0x140
def cDROP : Nat := 0x148
def Region.mcCount (r : Region) (p : PhysId) (o n : Nat) : Region := r.count (mcOff p o) 63 0 n

/-- Count n at counter o of the channel that carries a place. -/
def State.placeCount (s : State) (p : Place) (o n : Nat) : State :=
  s.updRegion p.region (fun r => r.mcCount (r.physOf p.lch) o n)

/-- R214: frame owner masks; one mask for each 32 MiB frame of a die. -/
def noMask : Nat → BitVec 16 := fun _ => 0
def State.frameMask (s : State) (pa : Nat) : BitVec 16 :=
  mget noMask (s.die (if pa.testBit 39 then 1 else 0)).masks ((pa % 2 ^ 39) >>> 25)
def State.frameOk (s : State) (ctx : Option (BitVec 4)) (pa : Nat) : Bool :=
  match ctx with
  | some c => (s.frameMask pa).getLsbD c.toNat
  | none => true

/-! ## Data, tags and poison (R259, R268, R269) -/

/-- Whether a 32-byte block is poisoned when nothing has been written to it since a poison fill (R278, R279). -/
def State.poisonDef (s : State) (blk : Nat) : Bool :=
  let p := s.place (32 * blk)
  match (s.region p.region).poisonFrom.get p.lch with
  | some a => decide (a ≤ p.addr)
  | none => false

def State.blockPoison (s : State) (blk : Nat) : Bool := mget s.poisonDef s.memPoison blk
def State.setBlockPoison (s : State) (blk : Nat) (v : Bool) : State := { s with memPoison := mset s.poisonDef s.memPoison blk v }

/-- R259: the 32 metadata bits of a block: from bit 0 the 24 check bits over its data, tags and poison bit, the two tags, the poison bit and
the 5 reserved bits. The source gives neither the check code, what the reserved bits hold, nor an order (log 106). -/
def State.blockMeta (s : State) (blk : Nat) : BitVec 32 :=
  let tags : BitVec 2 := BitVec.ofBool (mget noFlag s.memTags (2 * blk + 1)) ++ BitVec.ofBool (mget noFlag s.memTags (2 * blk))
  let check := Config.checkBits (BitVec.ofNat 256 (leNat (readBytes zeroByte s.mem (32 * blk) 32))) tags (s.blockPoison blk)
  Config.metaRest blk ++ BitVec.ofBool (s.blockPoison blk) ++ tags ++ check

/-- R279: the logical channel of an address stays on a dead channel. -/
def State.deadAt (s : State) (pa : Nat) : Bool := (s.chanOf (s.place pa)).svc == .dead

def State.memByte (s : State) (a : Nat) : Byte := mget zeroByte s.mem a
def State.memRead (s : State) (a n : Nat) : List Byte := readBytes zeroByte s.mem a n
def State.memPois (s : State) (a n : Nat) : Bool :=
  n != 0 && (List.range ((a + n - 1) / 32 + 1 - a / 32)).any (fun i => s.blockPoison (a / 32 + i) || s.deadAt (32 * (a / 32 + i)))

/-- R159: writing bytes clears the tag of each granule touched. -/
def State.clearTags (s : State) (a n : Nat) : State :=
  { s with memTags := (wordsOf a n).foldl (fun m w => mset noFlag m w false) s.memTags }

/-- R269: one 32-byte block takes some of its bytes: a whole write takes the poison of its data; a part into a poisoned block
is merged, leaves the poison, counts in MC.PARTP and raises event 0x8022. A dead channel takes nothing (R279). -/
def State.writeCells (s : State) (blk : Nat) (cells : List (Nat × Byte)) (pois : Bool) : State :=
  let p := s.place (32 * blk)
  if cells.isEmpty then s
  else if (s.chanOf p).svc == .dead then s
  else
    let s1 := { s with mem := cells.foldl (fun m x => mset zeroByte m x.1 x.2) s.mem,
                       memTags := cells.foldl (fun m x => mset noFlag m (x.1 / 16) false) s.memTags }
    if cells.length = 32 then s1.setBlockPoison blk pois
    else if s.blockPoison blk then (s1.placeCount p cPARTP 1).regionReport p.region 0x8022 true (BitVec.ofNat 64 (32 * blk))
    else if pois then s1.setBlockPoison blk true else s1

/-- Write bytes at a, block by block, each block with the poison of the bytes that it takes. -/
def writeBlocks : Nat → State → Nat → List Byte → List Bool → State
  | 0, s, _, _, _ => s
  | n + 1, s, a, bs, pois =>
    if bs.isEmpty then s
    else
      let k := 32 - a % 32
      writeBlocks n (s.writeCells (a / 32) ((bs.take k).zipIdx.map (fun x => (a + x.2, x.1))) ((pois.take k).any id)) (a + k) (bs.drop k) (pois.drop k)

def State.memWrite (s : State) (a : Nat) (bs : List Byte) (pois : List Bool := []) : State := writeBlocks (bs.length / 32 + 2) s a bs pois

/-- R436, R268: the poison of the 16-byte words of a 64-byte line. -/
def State.linePoison (s : State) (a : Nat) : BitVec 4 :=
  BitVec.ofNat 4 ((List.range 4).foldl (fun n i => if s.memPois (a + 16 * i) 16 then n + 2 ^ i else n) 0)

/-- Memory's value of a line at address a: its bytes, tags and poison. -/
def State.memLine (s : State) (a : Nat) : LData :=
  { data := BitVec.ofNat 512 (leNat (s.memRead a 64)),
    tags := BitVec.ofNat 4 ((List.range 4).foldl (fun n i => if mget noFlag s.memTags (a / 16 + i) then n + 2 ^ i else n) 0),
    poison := s.linePoison a }

/-- Write a whole line with its tags; a block is poisoned when a word of it is (R253). A dead channel drops the write (R279). -/
def State.memSetLine (s : State) (a : Nat) (d : LData) : State :=
  if s.deadAt a then s.placeCount (s.place a) cDROP 1
  else
    let bs := leBytes 64 d.data.toNat
    let s := s.writeCells (a / 32) ((bs.take 32).zipIdx.map (fun x => (a + x.2, x.1))) (bitsOf d.poison.toNat 1 0 != 0)
    let s := s.writeCells (a / 32 + 1) ((bs.drop 32).zipIdx.map (fun x => (a + 32 + x.2, x.1))) (bitsOf d.poison.toNat 3 2 != 0)
    { s with memTags := (List.range 4).foldl (fun m i => mset noFlag m (a / 16 + i) (d.tags.getLsbD i)) s.memTags }

/-- R159, R436: merge the bytes that a mask names: the granules touched lose their tags; a 16-byte word written whole takes the
poison of the data, a part keeps it. -/
def LData.merge (d : LData) (mask : BitVec 64) (data : BitVec 512) (pois : Bool) : LData :=
  let m := (List.range 64).filter (fun i => mask.getLsbD i)
  let touched (w : Nat) : Bool := m.any (fun i => i / 16 == w)
  let whole (w : Nat) : Bool := (m.filter (fun i => i / 16 == w)).length == 16
  { data := BitVec.ofNat 512 (m.foldl (fun x i => setBits x (8 * i + 7) (8 * i) (bitsOf data.toNat (8 * i + 7) (8 * i))) d.data.toNat),
    tags := BitVec.ofNat 4 ((List.range 4).foldl (fun n w => if d.tags.getLsbD w && !touched w then n + 2 ^ w else n) 0),
    poison := BitVec.ofNat 4 ((List.range 4).foldl (fun n w =>
      if (if whole w then pois else if touched w then d.poison.getLsbD w || pois else d.poison.getLsbD w) then n + 2 ^ w else n) 0) }

/-! ## Remote accumulates (R281, R282) -/

/-- The 32-bit word that an accumulate leaves, and whether it is a NaN. -/
def accWord (op : Nat) (d s : Nat) : Nat × Bool :=
  let fp (x : Nat) : Nat × Bool :=
    let r := (fp32.write .rne false (addX (f32 d) (f32 x))).bits
    (r, (f32 r).isNaN)
  if op = 1 then fp s
  else if op = 2 then fp (s * 65536)
  else ((d + s) % 2 ^ 32, false)

/-- Bytes of a source element. -/
def accBytes (op : Nat) : Nat := if op = 2 then 2 else 4

/-- R282: add source elements, from bytes bs, into one sound word after another from address a. -/
def accInto (op : Nat) : Nat → State → Nat → List Byte → State
  | 0, s, _, _ => s
  | n + 1, s, a, bs =>
    if bs.length < accBytes op then s
    else
      let r := accWord op (leNat (s.memRead a 4)) (leNat (bs.take (accBytes op)))
      let s := { (s.clearTags a 4) with mem := writeBytes zeroByte s.mem a (leBytes 4 r.1) }
      accInto op n (if r.2 then s.placeCount (s.place a) cRANAN 1 else s) (a + 4) (bs.drop (accBytes op))

/-- R282: an accumulate block by block: a poisoned block, or one for which a poisoned element arrives, is left poisoned and not added to.
R279: a dead channel drops its part, counted once for each granule. -/
def accBlocks (op : Nat) : Nat → State → Nat → List Byte → List Bool → Bool → State
  | 0, s, _, _, _, _ => s
  | n + 1, s, a, bs, pois, first =>
    if bs.length < accBytes op then s
    else
      let k := (32 - a % 32) / 4
      let m := k * accBytes op
      let p := s.place a
      let s1 :=
        if (s.chanOf p).svc == .dead then (if first || a % 256 = 0 then s.placeCount p cDROP 1 else s)
        else if s.blockPoison (a / 32) || (pois.take m).any id then (s.setBlockPoison (a / 32) true).placeCount p cRAPOIS 1
        else accInto op k s a (bs.take m)
      accBlocks op n s1 (a + 4 * k) (bs.drop m) (pois.drop m) false

/-- R281, R282: an accumulate at a; a misaligned destination is dropped, counted and reported with 0x8080. pois: the poison of each
source byte. -/
def State.memAcc (s : State) (op : Nat) (a : Nat) (bs : List Byte) (pois : List Bool) : State × Option (BitVec 16) :=
  if a % 4 ≠ 0 then (s.placeCount (s.place a) cDROP 1, some 0x8080)
  else (accBlocks op (bs.length / accBytes op) s a bs pois true, none)

/-! ## The controllers' queues (R265, R266) -/

/-- R266: the class of a request. -/
def State.reqClass (s : State) (q : MReq) : Nat :=
  match q.src, q.kind with
  | .own, _ => 3
  | .walk _, .read => 0
  | .tx c t, .read => if (match (s.core c).txReqs.find? (fun x => x.tag == t) with | some x => x.crit | none => q.crit) then 0 else 1
  | _, .read => if q.crit then 0 else 1
  | _, _ => 2

/-- An entry touches the 32-byte blocks of n bytes at an in-channel address of a logical channel. -/
def McE.covers (e : McE) (lch a n : Nat) : Bool :=
  e.lch == lch && decide (e.off / 32 ≤ (a + n - 1) / 32) && decide (a / 32 ≤ (e.off + e.req.len - 1) / 32)

/-- The 32-byte blocks of two requests meet. -/
def McE.meets (a b : McE) : Bool := a.covers b.lch b.off b.req.len

/-- R265: the queue has an entry that a request of this class may take. -/
def Chan.room (c : Chan) (cls : Nat) : Bool :=
  decide (c.queue.length < Config.mcQueue) &&
    (cls == 0 || decide ((c.queue.filter (fun e => e.cls != 0)).length < Config.mcQueue - Config.mcReserved))

/-- The part of a request that falls into its next 64-byte burst: how many bytes. -/
def McE.burst (e : McE) : Nat := min (e.req.len - e.done) (64 - (e.off + e.done) % 64)

/-- R268, R271: what the check of a block finds. fix: corrected data are written back as a class 3 request. -/
def State.checkBlock (s : State) (r : RegionId) (p : PhysId) (blk : Nat) (x : Ecc) (rinse fix : Bool) : State :=
  if s.blockPoison blk then s.updRegion r (fun q => q.mcCount p cPRD 1)
  else match x with
    | .clean => s
    | .single => s.updRegion r (fun q =>
        let q := q.mcCount p cCE 1
        if fix then q.updChan p (fun c => { c with fixes := c.fixes ++ [32 * blk] }) else q)
    | .beyond => ((s.setBlockPoison blk true).updRegion r (fun q => q.mcCount p cUE 1)).regionReport r
        (if rinse then 0x8021 else 0x8020) rinse (BitVec.ofNat 64 (32 * blk))

/-- R268, R269: a read of n bytes checks its blocks, in a partial write only those that it covers in part; ecc says what the checks find. -/
def State.burstRead (s : State) (r : RegionId) (p : PhysId) (pa n : Nat) (ecc : List Ecc) (partOnly rinse fix : Bool) : State :=
  ((List.range ((pa + n - 1) / 32 + 1 - pa / 32)).zip (ecc ++ List.replicate 8 .clean)).foldl (fun s x =>
    let blk := pa / 32 + x.1
    if partOnly && decide (pa ≤ 32 * blk) && decide (32 * blk + 32 ≤ pa + n) then s else s.checkBlock r p blk x.2 rinse fix) s

/-- R268: MC.CTL.FIXRD. -/
def Region.fixRd (r : Region) (p : PhysId) : Bool := r.fld (mcOff p 8) 10 10 = 1

/-- R266 to R269, R281, R282: the next burst of an entry takes effect; ecc says what the checks of its blocks find. A dead channel drops a
write or accumulate (R279), and a misaligned accumulate is dropped whole and reported to its sender. A write-back of corrected data
changes nothing: the memory of State holds the corrected data. -/
def State.serveBurst (s : State) (r : RegionId) (p : PhysId) (e : McE) (ecc : List Ecc) : State × McE :=
  let pa := e.req.pa.toNat + e.done
  let n := e.burst
  let next : McE := { e with done := e.done + n }
  let all : McE := { e with done := e.req.len }
  match e.req.src, e.req.kind with
  | .own, .read => (s.burstRead r p pa n e.ecc false true true, next)
  | .own, _ => (s, all)
  | _, .read => (s.burstRead r p pa n ecc false false ((s.region r).fixRd p), next)
  | src, k =>
    let bad := k != .write && e.req.pa.toNat % 4 != 0
    if bad || s.deadAt pa then
      let s := s.updRegion r (fun q => q.mcCount p cDROP 1)
      (if bad then (match src with
        | .tx c _ => s.coreFault c 0x8080 (BitVec.ofNat 64 pa)
        | _ => s.regionReport r 0x8080 false (BitVec.ofNat 64 pa)) else s, all)
    else match k with
      | .acc op =>
        let b := accBytes op.toNat
        let part {α : Type} (l : List α) : List α := (l.drop (e.done / 4 * b)).take (n / 4 * b)
        (((s.burstRead r p pa n ecc false false false).memAcc op.toNat pa (part e.req.data) (part e.req.poison)).1, next)
      | _ =>
        let s := s.burstRead r p pa n ecc true false false
        (s.memWrite pa ((e.req.data.drop e.done).take n) ((e.req.poison.drop e.done).take n), next)

/-- Serve every burst of an entry at once. -/
def serveAll : Nat → State → RegionId → PhysId → McE → State
  | 0, s, _, _, _ => s
  | n + 1, s, r, p, e =>
    if e.req.len ≤ e.done then s
    else
      let x := s.serveBurst r p e []
      serveAll n x.1 r p x.2

/-- R266, R267: requests that touch one block keep their order: an access that the model takes in one step stands for its whole stay in
the queue, so every queued entry that meets its n bytes at pa is served first. -/
def State.settle (s : State) (pa n : Nat) : State :=
  if n = 0 then s
  else
    let pl := s.place pa
    let p := (s.region pl.region).physOf pl.lch
    let mine (e : McE) : Bool := e.covers pl.lch.val pl.addr n
    let hit := ((s.region pl.region).chans.get p).queue.filter mine
    let s := s.updRegion pl.region (fun r => r.updChan p (fun c => { c with queue := c.queue.filter (fun e => !mine e) }))
    hit.foldl (fun s e => serveAll 8 s pl.region p e) s

/-! ## The region cache (R241) -/

/-- Set index of a region cache line: 8,192 sets of 16 ways (log 13). -/
def rcSet (key : Nat) : Nat := key % 8192
def Region.rcFind (r : Region) (key : Nat) : Option RcLine := r.rc.find? (fun l => l.key == key)
def Region.rcDrop (r : Region) (key : Nat) : Region := { r with rc := r.rc.filter (fun l => l.key != key) }

/-- The region of a line's home (R242). -/
def State.homeOf (s : State) (key : Nat) : RegionId := (s.place (64 * key)).region

def Region.rcOn (r : Region) : Bool := r.fld 0x20000 2 2 = 1

/-- The least recently used line of a full set. The list keeps the latest use first. -/
def Region.rcVictim (r : Region) (key : Nat) : Option RcLine :=
  let l := r.rc.filter (fun x => rcSet x.key == rcSet key)
  if l.length < 16 then none else l.getLast?

/-- A line of the region cache goes to memory, after the requests for it that are queued there. -/
def State.rcWrite (s : State) (l : RcLine) : State := (s.settle (64 * l.key) 64).memSetLine (64 * l.key) l.d

/-- Install a line; a dirty line that it replaces is written to memory. -/
def State.rcInstall (s : State) (key : Nat) (dirty : Bool) (d : LData) : State :=
  let h := s.homeOf key
  let r := (s.region h).rcDrop key
  match r.rcVictim key with
  | none => s.updRegion h (fun _ => { r with rc := ⟨key, dirty, false, d⟩ :: r.rc })
  | some v =>
    let r2 := r.rcDrop v.key
    let s2 := s.updRegion h (fun _ => { r2 with rc := ⟨key, dirty, false, d⟩ :: r2.rc })
    if v.dirty then s2.rcWrite v else s2

/-- Write a dirty copy back and drop the line. -/
def State.rcFlush (s : State) (key : Nat) : State :=
  let h := s.homeOf key
  match (s.region h).rcFind key with
  | none => s
  | some l =>
    let s := s.updRegion h (fun r => r.rcDrop key)
    if l.dirty then s.rcWrite l else s

/-- A read finds its line: it becomes the latest used. -/
def Region.rcHit (r : Region) (key : Nat) : Region :=
  { (r.count 0x20008 63 0 1) with
    rc := (r.rc.filter (fun l => l.key == key)).map (fun l => { l with used := true }) ++ r.rc.filter (fun l => l.key != key) }

/-- R241: bytes written into a present copy, which becomes dirty and the latest used. -/
def Region.rcMerge (r : Region) (l : RcLine) (mask : BitVec 64) (data : BitVec 512) (pois : Bool) : Region :=
  { r with rc := { l with dirty := true, d := l.d.merge mask data pois } :: r.rc.filter (fun x => x.key != l.key) }

/-! ## Requests enter (R265, R267) -/

/-- R267: a write or accumulate of a transfer is acknowledged; the request whose every byte is has completed (R185). -/
def State.mcAck (s : State) (q : MReq) (n : Nat) : State :=
  match q.kind, q.src with
  | .read, _ => s
  | _, .tx c t =>
    match (s.core c).txReqs.find? (fun x => x.tag == t) with
    | none => s
    | some x =>
      if (if x.op = 2 then 2 * x.n else x.n) ≤ x.acked + n then s.txDone c x
      else s.updCore c (fun k => { k with txReqs := k.txReqs.map (fun y => if y.tag == t then { y with acked := y.acked + n } else y) })
  | _, _ => s

/-- R265: put a request into its channel's queue, or let it wait at the ring stop: before start-up has ended (R264), during the swap
of a patch (R275), while Cretas has quiesced the region for a SOAK (R283), and during a
reset of the region (R280). -/
def State.mcEnter (s : State) (q : MReq) : State :=
  let pl := s.place q.pa.toNat
  let r := s.region pl.region
  let p := r.physOf pl.lch
  let cls := s.reqClass q
  let swap := r.patch.state = 3 && r.patch.lch = pl.lch.val
  if (r.chans.get p).room cls && s.memReady && !swap && !r.quiesced && !s.crs.resets.contains (2, pl.region.val) then
    (s.updRegion pl.region (fun r => r.updChan p (fun c =>
      { c with queue := c.queue ++ [{ req := q, cls := cls, aged := false, lch := pl.lch.val, off := pl.addr, done := 0 }] }))).mcAck q q.len
  else s.updRegion pl.region (fun r => { r with ringWait := r.ringWait ++ [q] })

/-- R265: requests held at a ring stop enter in their order as room appears. -/
def State.mcRefill (s : State) (r : RegionId) : State :=
  let l := (s.region r).ringWait
  l.foldl (fun s q => s.mcEnter q) (s.updRegion r (fun x => { x with ringWait := [] }))

/-- The parts of n bytes at pa that lie in one line each: offset and length. -/
def lineParts (pa n : Nat) : List (Nat × Nat) :=
  (List.range ((pa + n - 1) / 64 + 1 - pa / 64)).map (fun i =>
    let a := max pa (64 * (pa / 64 + i))
    (a - pa, min (pa + n) (64 * (pa / 64 + i) + 64) - a))

/-- Adjacent parts joined. -/
def joinParts : List (Nat × Nat) → List (Nat × Nat)
  | [] => []
  | x :: r =>
    match joinParts r with
    | y :: t => if x.1 + x.2 = y.1 then (x.1, x.2 + y.2) :: t else x :: y :: t
    | [] => [x]

/-- The part of a read or write from offset o, n bytes. -/
def subReq (q : MReq) (o n : Nat) : MReq :=
  { q with pa := q.pa + BitVec.ofNat 48 o, len := n, data := (q.data.drop o).take n, poison := (q.poison.drop o).take n }

/-- R241, R265: a request at its controller passes the region cache line by line: a read takes the lines that are there, a write updates
them, an accumulate has them written back; what the region cache does not serve enters the queue. -/
def State.mcArrive (s : State) (q : MReq) : State :=
  let pa := q.pa.toNat
  let h := (s.place pa).region
  let r := s.region h
  let ps := lineParts pa q.len
  let key (x : Nat × Nat) : Nat := (pa + x.1) / 64
  let there (x : Nat × Nat) : Bool := r.rcOn && (r.rcFind (key x)).isSome
  let enter (s : State) : State :=
    if ps.all (fun x => !there x) then s.mcEnter q else (joinParts (ps.filter (fun x => !there x))).foldl (fun s x => s.mcEnter (subReq q x.1 x.2)) s
  match q.kind with
  | .read => enter (s.updRegion h (fun r => ps.foldl (fun r x => if there x then r.rcHit (key x) else r.count 0x20010 63 0 1) r))
  | .write =>
    enter (ps.foldl (fun s x =>
      match (if there x then r.rcFind (key x) else none) with
      | none => s
      | some l =>
        let o := (pa + x.1) % 64
        (s.updRegion h (fun r => r.rcMerge l (BitVec.ofNat 64 ((2 ^ x.2 - 1) * 2 ^ o)) (BitVec.ofNat 512 (leNat ((q.data.drop x.1).take x.2) * 2 ^ (8 * o)))
          (((q.poison.drop x.1).take x.2).any id))).mcAck q x.2) s)
  | .acc _ => (ps.foldl (fun s x => s.rcFlush (key x)) s).mcEnter q

/-- R260: the bank and the row of an in-channel address. -/
def bankOf (a : Nat) : Nat := let q := a / 256; (q % 32) ^^^ ((q >>> 18) % 32)
def rowOf (a : Nat) : Nat := a / 65536
/-- R260: the granule within its 2 KiB row. -/
def granuleOf (a : Nat) : Nat := a / 256 / 32 % 8

/-! ## Bursts (R266, R276 to R278) -/

/-- Granules of a logical channel. -/
def chanGranules : Nat := 20971520

def Patch.running (p : Patch) : Bool := p.state == 1 || p.state == 2 || p.state == 3

/-- Entries that may not go yet: to the granule that the copier is at work on (R276), and writes above a poison fill's pointer, which
reaches them when the fill ends (R278). -/
def Region.keepsBack (r : Region) (p : PhysId) (e : McE) : Bool :=
  (r.patch.state == 2 && p.val == r.patch.old && decide (0 < r.patch.got) && e.covers r.patch.lch (256 * r.patch.done) 256) ||
  (match (r.chans.get p).fill with | some a => e.req.kind != .read && decide (a < e.off + e.req.len) | none => false)

/-- R266: entries that neither an earlier entry to the same block nor the copier or a fill holds back, with their places in the queue. -/
def Region.ready (r : Region) (p : PhysId) : List (Nat × McE) :=
  let l := (r.chans.get p).queue
  (l.zipIdx.map (fun p => (p.2, p.1))).filter (fun x => !(l.take x.1).any (fun e => e.meets x.2) && !r.keepsBack p x.2)

def Chan.rowHit (c : Chan) (e : McE) : Bool := mget (fun _ => 0) c.rows (bankOf (e.off + e.done)) == rowOf (e.off + e.done) + 1

/-- Within a class a row hit goes before a row miss, and among those the oldest. -/
def Chan.pickIn (c : Chan) (l : List (Nat × McE)) : Option (Nat × McE) :=
  match l.find? (fun p => c.rowHit p.2) with
  | some p => some p
  | none => l.head?

/-- R266 rule 3: class 2 is served between the marks WRHI and WRLO. -/
def Region.drains (r : Region) (p : PhysId) : Bool :=
  let c := r.chans.get p
  let n := (c.queue.filter (fun e => e.cls == 2)).length
  if c.drainWr then decide (r.fld (mcOff p 8) 47 40 < n) else decide (r.fld (mcOff p 8) 39 32 ≤ n)

/-- R266 rules 2 to 4: the entry of the next burst. -/
def Region.pick (r : Region) (p : PhysId) : Option (Nat × McE) :=
  let c := r.chans.get p
  let l := r.ready p
  match l.find? (fun x => x.2.aged) with
  | some x => some x
  | none =>
    let l2 := l.filter (fun x => x.2.cls == 2)
    if r.drains p && !l2.isEmpty then c.pickIn l2
    else match [0, 1, 2, 3].find? (fun n => l.any (fun x => x.2.cls == n)) with
      | some n => c.pickIn (l.filter (fun x => x.2.cls == n))
      | none => none

/-- R277: the copier has bursts of its granule left to read from channel p. -/
def Region.copyWants (r : Region) (p : PhysId) : Bool :=
  r.patch.state == 2 && p.val == r.patch.old && decide (r.patch.got < 4) && decide (r.patch.done < chanGranules)

/-- R277: PATCHMIN of every 16 slots; 0 acts as 1. -/
def Region.patchMin (r : Region) : Nat := max 1 (r.fld 0x40018 3 0)

/-- R266 rule 1: the copier is behind its reserved share, which the slots of a round of 16 fall due in evenly (log 107). -/
def Region.copyBehind (r : Region) : Bool := decide (16 * r.patch.given < r.patchMin * (r.patch.slots + 1))

/-- A burst slot of the old channel is used, by the copier or by an entry. -/
def Patch.slot (p : Patch) (copy : Bool) : Patch :=
  let p := { p with slots := p.slots + 1, given := p.given + copy.toNat, got := p.got + copy.toNat }
  if 16 ≤ p.slots then { p with slots := 0, given := 0 } else p

/-! ## Channels that die, patches and fills (R272 to R279) -/

/-- R278, R279: blocks of a logical channel from in-channel address a up are poisoned. -/
def State.poisonUp (s : State) (r : RegionId) (l : Fin 16) (a : Nat) : State :=
  let old := (s.region r).poisonFrom.get l
  let a' := match old with | some b => min a b | none => a
  let keep := s.memPoison.filter (fun x => let p := s.place (32 * x.1); !(p.region == r && p.lch == l && decide (a ≤ p.addr)))
  let s := s.updRegion r (fun q => { q with poisonFrom := q.poisonFrom.set l.val (some a') l.isLt })
  { s with memPoison := keep }

/-- Swap a logical channel onto the spare; the old channel becomes the spare, marked SPAREBAD. -/
def Region.swapSpare (r : Region) (l : Fin 16) : Region :=
  let old := r.physOf l
  let new := r.spare
  let oldSvc := (r.chans.get old).svc
  let r := { r with remap := r.remap.set l.val new l.isLt, spare := old, spareBad := true }
  let r := r.updChan new (fun c => { c with svc := .inService, was := .inService })
  let r := r.updChan old (fun c => { c with svc := if oldSvc == .dead then .dead else .spare, was := .spare })
  { r with kept := { remap := r.remap, spare := r.spare, spareBad := r.spareBad } }

/-- The logical channel that a physical channel carries. -/
def Region.logicalOf (r : Region) (p : PhysId) : Option (Fin 16) := (List.finRange 16).find? (fun l => r.remap.get l == p)

def Region.emptyQueue (r : Region) (p : PhysId) : Region := r.updChan p (fun c => { c with queue := [], fixes := [] })

/-- R280: a controller completes every request in its queue. -/
def State.serveQueue (s : State) (r : RegionId) (p : PhysId) : State :=
  let es := ((s.region r).chans.get p).queue
  es.foldl (fun s e => serveAll 8 s r p e) (s.updRegion r (fun q => q.emptyQueue p))

def Region.queuesEmpty (r : Region) : Bool := r.chans.toList.all (fun c => c.queue.isEmpty)

/-- R278, R279: the spare takes a dead channel's place without a drain, and a poison fill runs from in-channel address a. The reads that were
queued complete with poison, and the writes and accumulates go on at the spare. -/
def State.spareTakes (s : State) (r : RegionId) (p : PhysId) (l : Fin 16) (a : Nat) (fromPatch : Bool) : State :=
  let moved := ((s.region r).chans.get p).queue.filter (fun e => e.req.kind != .read && e.req.src != .own)
  let s := s.updRegion r (fun q => (q.emptyQueue p).swapSpare l)
  (s.poisonUp r l a).updRegion r (fun q => q.updChan (q.physOf l) (fun c =>
    { c with queue := c.queue ++ moved, fill := some a, fillRec := fromPatch }))

/-- A patch that cannot go on: its state, and the end of the PATCH command that asked for it (log 107). -/
def State.patchEnds (s : State) (r : RegionId) (st : Nat) (code : BitVec 16) : State :=
  let t := (s.region r).patch.ticket
  let s := s.updRegion r (fun q => { q with patch := { q.patch with state := st, ticket := none, got := 0 } })
  match t with
  | some j => s.updJob j (fun x => { x with done := some (code, BitVec.ofNat 128 (s.region r).patch.done) })
  | none => s

/-- R274, R278, R279: a channel is dead: fault record 0x8031; a good spare takes its place with a poison fill, a patch that copies from it
ends in the spare with a fill from its pointer, and with no good spare record 0x8043 leaves it in place. A patch whose spare dies ends
(log 107). -/
def State.channelDies (s : State) (r : RegionId) (p : PhysId) : State :=
  let s := s.updRegion r (fun q => (q.updChan p (fun c => { c with svc := .dead, due := false })).count 0x40030 15 0 1)
  let s := s.regionReport r 0x8031 false 0 (BitVec.ofNat 128 p.val)
  let q := s.region r
  match q.logicalOf p with
  | none =>
    let s := s.updRegion r (fun q => { q with spareBad := true, kept := { q.kept with spareBad := true } })
    if q.patch.running && p == q.spare then (s.patchEnds r 0 0x8043).regionReport r 0x8043 false 0 (BitVec.ofNat 128 p.val) else s
  | some l =>
    if (q.patch.state = 1 || q.patch.state = 2) && q.patch.old = p.val then (s.spareTakes r p l (256 * q.patch.done) true).patchEnds r 5 0x8042
    else if q.spareBad || q.patch.running || (q.chans.get q.spare).svc == .dead then s.regionReport r 0x8043 false 0 (BitVec.ofNat 128 p.val)
    else s.spareTakes r p l 0 false

/-- R275: the patch of a logical channel is refused. -/
def Region.patchRefused (r : Region) (l : Fin 16) : Bool :=
  r.spareBad || r.patch.running || (r.chans.get (r.physOf l)).svc == .dead || (r.chans.get r.spare).svc == .dead

/-- R275: the refusal's fault record. -/
def State.patchRefuse (s : State) (r : RegionId) (l : Fin 16) : State := s.regionReport r 0x8043 false 0 (BitVec.ofNat 128 ((s.region r).physOf l).val)

/-- R275: start a patch of a logical channel: the spare retrains, at once when the stack's retraining slot is free. -/
def State.patchStart (s : State) (r : RegionId) (l : Fin 16) (ticket : Option Nat) : State :=
  let q := s.region r
  let busy := q.chans.toList.any (fun c => c.svc == .retraining)
  let s := s.updRegion r (fun q =>
    let q := { q with patch := { state := 1, lch := l.val, done := 0, old := (q.physOf l).val, ticket := ticket } }
    if busy then q else q.updChan q.spare (fun c => { c with svc := .retraining, was := .spare, fails := 0, due := false }))
  s.regionReport r 0x8040 true 0 (BitVec.ofNat 128 l.val)

/-- R275: with AUTO = 1 event 0x8050 of a channel that carries data starts a patch. -/
def State.patchAuto (s : State) (r : RegionId) (p : PhysId) : State :=
  if (s.region r).fld 0x40018 4 4 = 0 then s
  else match (s.region r).logicalOf p with
    | none => s
    | some l => if (s.region r).patchRefused l then s.patchRefuse r l else s.patchStart r l none

/-- R270: a new second begins: MC.CE as it stands is its base. -/
def State.ceOpen (s : State) (r : RegionId) (p : PhysId) : State :=
  let now := (s.die (regionDie r)).ts.toNat / 2000000000
  s.updRegion r (fun q => if (q.chans.get p).ceSecond = now then q
    else q.updChan p (fun c => { c with ceSecond := now, ceRaised := false, ceBase := (q.reg (mcOff p cCE)).toNat }))

/-- R270, R275: the corrected errors of a second reach CETHR: event 0x8050 once for that second. -/
def State.ceWatch (s : State) (r : RegionId) (p : PhysId) : State :=
  let c := (s.region r).chans.get p
  let n := ((s.region r).reg (mcOff p cCE)).toNat - c.ceBase
  if !c.ceRaised && decide ((s.region r).fld (mcOff p 8) 31 16 ≤ n) && decide (0 < n) then
    ((s.updRegion r (fun q => q.updChan p (fun c => { c with ceRaised := true }))).regionReport r 0x8050 true 0 (BitVec.ofNat 128 p.val)).patchAuto r p
  else s

/-- R272: a channel that a running patch copies from or to skips its retraining until the patch ends. -/
def Region.patchHolds (r : Region) (p : PhysId) : Bool :=
  (r.patch.state == 2 || r.patch.state == 3) && (p.val == r.patch.old || p == r.spare || r.physOf (Fin.ofNat 16 r.patch.lch) == p)

/-! ## The events -/

/-- A class 3 request of the controller's own (R268, R271). -/
def State.ownEntry (s : State) (kind : MKind) (pa n : Nat) (ecc : List Ecc) : McE :=
  { req := { src := .own, kind := kind, ctx := none, pa := BitVec.ofNat 48 pa, len := n, data := [], poison := [], crit := false },
    cls := 3, aged := false, lch := (s.place pa).lch.val, off := (s.place pa).addr, done := 0, ecc := ecc }

/-- R268, R271: write-backs of corrected blocks enter the queue as it has room. -/
def State.fixEnter (s : State) (r : RegionId) (p : PhysId) : State :=
  ((s.region r).chans.get p).fixes.foldl (fun s pa =>
    s.updRegion r (fun q => q.updChan p (fun c =>
      if c.room 3 then { c with queue := c.queue ++ [s.ownEntry .write pa 32 []] } else { c with fixes := c.fixes ++ [pa] })))
    (s.updRegion r (fun q => q.updChan p (fun c => { c with fixes := [] })))

/-- R266: the burst of entry i of channel p. -/
def State.serveEntry (s : State) (r : RegionId) (p : PhysId) (i : Nat) (e : McE) (ecc : List Ecc) : State :=
  let drain := (s.region r).drains p
  let x := (s.ceOpen r p).serveBurst r p e ecc
  let s := x.1.updRegion r (fun q =>
    let q := q.updChan p (fun c =>
      { c with queue := if e.req.len ≤ x.2.done then c.queue.eraseIdx i else listUpd (fun _ => x.2) c.queue i,
               drainWr := drain, rows := mset (fun _ => 0) c.rows (bankOf (e.off + e.done)) (rowOf (e.off + e.done) + 1) })
    if q.patch.state == 2 && p.val == q.patch.old then { q with patch := q.patch.slot false } else q)
  ((s.ceWatch r p).fixEnter r p).mcRefill r

/-- R266, R277: one burst: the copier's when it is behind its share, else an entry's, else the copier's again; while the channel retrains
nothing is served, and the wait counts in MC.RTWAIT (R273). -/
def execMcBurst (r : RegionId) (p : PhysId) (ecc : List Ecc) (rtWait : Nat) (s : State) : Host.Outcome State Fault Refusal :=
  let q := s.region r
  let c := q.chans.get p
  let copy := q.copyWants p && !s.crs.resets.contains (2, r.val)
  let copied := s.updRegion r (fun q => { q with patch := q.patch.slot true })
  if c.svc == .retraining then .next (if c.queue.isEmpty then s else s.updRegion r (fun q => q.mcCount p cRTWAIT rtWait))
  else if copy && q.copyBehind then .next copied
  else match q.pick p with
    | none => .next (if copy then copied else s)
    | some (i, e) => .next (s.serveEntry r p i e ecc)

/-- R266: an entry that has waited AGE cycles. -/
def execEntryAged (r : RegionId) (p : PhysId) (i : Nat) (s : State) : Host.Outcome State Fault Refusal :=
  match ((s.region r).chans.get p).queue[i]? with
  | none => .next s
  | some e =>
    .next (if e.aged then s else s.updRegion r (fun q =>
      (q.updChan p (fun c => { c with queue := listUpd (fun e => { e with aged := true }) c.queue i })).mcCount p cAGED 1))

/-- R271: the rinse's read of the next burst of an in-service channel enters the queue as a class 3 request; it is served at once when the
next burst is its own. -/
def execRinseRead (r : RegionId) (p : PhysId) (ecc : List Ecc) (s : State) : Host.Outcome State Fault Refusal :=
  let q := s.region r
  match q.logicalOf p with
  | none => .next s
  | some l =>
    let a := q.fld (mcOff p 0x10) 32 0
    if q.fld 0x40028 8 8 = 0 || (q.chans.get p).svc != .inService || !(q.chans.get p).room 3 then .next s
    else
      let e := s.ownEntry .read (paOf s.basting ⟨r, l, a⟩) 64 ecc
      let s := s.updRegion r (fun q => (q.updChan p (fun c => { c with queue := c.queue ++ [e] })).setFld (mcOff p 0x10) 32 0 ((a + 64) % Config.channelBytes))
      match (if q.copyWants p && q.copyBehind then none else (s.region r).pick p) with
      | none => .next s
      | some (i, e) => .next (if e.req.src == .own && e.req.kind == .read then s.serveEntry r p i e [] else s)

/-- R272, R275: channel p may take the stack's retraining slot; in Prepare it is the spare's. -/
def Region.mayRetrain (r : Region) (p : PhysId) : Bool :=
  !r.patchHolds p && !(r.patch.state == 1 && p != r.spare) && ((r.chans.get p).svc == .inService || (r.chans.get p).svc == .spare)

/-- R272: a channel falls due; it retrains when the sequencer is free and no due channel before it is. -/
def execRetrainStart (r : RegionId) (p : PhysId) (tempMoved : Bool) (s : State) : Host.Outcome State Fault Refusal :=
  let q := s.region r
  let c := q.chans.get p
  let due := c.due || tempMoved || q.fld 0x40010 32 32 = 1 || (q.patch.state == 1 && p == q.spare)
  let busy := q.chans.toList.any (fun c => c.svc == .retraining)
  let before := (List.finRange 17).any (fun x => decide (x < p) && (q.chans.get x).due && q.mayRetrain x)
  .next (if !due || c.svc == .retraining || c.svc == .dead then s
    else if !busy && !before && q.mayRetrain p then
      s.updRegion r (fun q => q.updChan p (fun c => { c with svc := .retraining, was := c.svc, fails := 0, due := false }))
    else if q.patchHolds p then s
    else s.updRegion r (fun q => q.updChan p (fun c => { c with due := true })))

/-- R274: a retraining ends. Its end is the boundary of STK.RTCTL.RTINT (R286). -/
def State.retrainEnd (s : State) (r : RegionId) (ok : Bool) : State :=
  let q := s.region r
  match (List.finRange 17).find? (fun p => (q.chans.get p).svc == .retraining) with
  | none => s
  | some p =>
    if ok then
      let s := s.updRegion r (fun q =>
        let q := q.updChan p (fun c => { c with svc := c.was, fails := 0 })
        let q := { q with rtInt := BitVec.ofNat 32 (max 100 (q.fld 0x40010 31 0)) }
        if q.patch.state = 1 && p = q.spare then { q with patch := { q.patch with state := 2 } } else q)
      s.mcRefill r
    else
      let s := (s.updRegion r (fun q => (q.updChan p (fun c => { c with fails := c.fails + 1 })).mcCount p cRTFAIL 1)).regionReport r 0x8030 true 0 (BitVec.ofNat 128 p.val)
      if 3 ≤ ((s.region r).chans.get p).fails then s.channelDies r p else s

/-- R276: the copier ends the granule whose four bursts it has taken, ecc giving what its eight blocks show, and the requests that waited
on it go on. It pauses during a reset of the region (R280). -/
def execPatchCopyGranule (r : RegionId) (ecc : List Ecc) (s : State) : Host.Outcome State Fault Refusal :=
  let q := s.region r
  let l : Fin 16 := Fin.ofNat 16 q.patch.lch
  let p := q.physOf l
  if q.patch.state = 2 && q.patch.done < chanGranules && q.patch.got = 4 && !s.crs.resets.contains (2, r.val) then
    let pa := paOf s.basting ⟨r, l, 256 * q.patch.done⟩
    let s1 := (s.ceOpen r p).burstRead r p pa 256 ecc false false (q.fixRd p)
    .next (((s1.updRegion r (fun q => { q with patch := { q.patch with done := q.patch.done + 1, got := 0 } })).ceWatch r p).fixEnter r p)
  else .next s

/-- R275: Swap: the old channel's queue drains and the remap table swaps. -/
def execPatchSwap (r : RegionId) (s : State) : Host.Outcome State Fault Refusal :=
  let q := s.region r
  let l : Fin 16 := Fin.ofNat 16 q.patch.lch
  let p := q.physOf l
  if q.patch.state = 2 && q.patch.done = chanGranules && !s.crs.resets.contains (2, r.val) then
    .next ((s.serveQueue r p).updRegion r (fun q => { (q.swapSpare l) with patch := { q.patch with state := 3 } }))
  else .next s

/-- R278, R279: the end of a poison fill: the lines poisoned count in MC.PRD; after a death during a patch's copy record 0x8042 gives them
(R288). -/
def execPoisonFillEnd (r : RegionId) (p : PhysId) (s : State) : Host.Outcome State Fault Refusal :=
  let c := (s.region r).chans.get p
  match c.fill with
  | none => .next s
  | some a =>
    if s.crs.resets.contains (2, r.val) then .next s else
    let n := (Config.channelBytes - a) / 64
    let s := s.updRegion r (fun q => (q.updChan p (fun c => { c with fill := none, fillRec := false })).mcCount p cPRD n)
    .next (if c.fillRec then s.regionReport r 0x8042 false 0 (BitVec.ofNat 128 n) else s)

/-! ## Soak engines (R283, R284) -/

/-- R283: GO starts a run on the spare or on a channel of a quiesced region; any other is counted and ignored. -/
def State.soakStart (s : State) (r : RegionId) (p : PhysId) : State :=
  let q := s.region r
  let c := q.chans.get p
  if c.soak.isSome then s
  else if p == q.spare || q.quiesced then
    s.updRegion r (fun q => (q.updChan p (fun c => { c with soak := some { restore := (q.logicalOf p).isSome } })).setFld (mcOff p 0x800) 6 6 0)
  else
    let s := s.updRegion r (fun q => q.count 0x40030 47 32 1)
    if q.fld 0x40030 48 48 = 1 then s.regionReport r 0xB042 true (BitVec.ofNat 64 (mcOff p 0x800)) else s

def execSoakGo (r : RegionId) (p : PhysId) (s : State) : Host.Outcome State Fault Refusal := .next (s.soakStart r p)

/-- Zero a logical channel with its tags and poison (R264, R284). -/
def State.zeroChannel (s : State) (r : RegionId) (l : Fin 16) : State :=
  let inCh (a : Nat) : Bool := let p := s.place a; p.region == r && p.lch == l && paKind a == .dev
  let m := s.mem.filter (fun x => !(inCh x.1))
  let t := s.memTags.filter (fun x => !(inCh (16 * x.1)))
  let q := s.memPoison.filter (fun x => !(inCh (32 * x.1)))
  { (s.updRegion r (fun z => { z with poisonFrom := z.poisonFrom.set l.val none l.isLt })) with mem := m, memTags := t, memPoison := q }

/-- R283: the burst that a soak writes and expects at in-channel address a: 64 data bytes, then 8 metadata bytes, the beats in order. -/
def Region.soakBurst (r : Region) (p : PhysId) (a : Nat) : List Byte :=
  let n := a / 64
  let key := (r.reg (mcOff p 0x818)).toNat + (r.reg (mcOff p 0x820)).toNat * 2 ^ 64
  let pat := r.fld (mcOff p 0x800) 3 2
  if pat = 0 then (List.range 4).flatMap (fun i => leBytes 16 (hemDraw key (4 * n + i))) ++ leBytes 8 (hemDraw key (2 ^ 62 + n))
  else if pat = 1 then (List.range 8).flatMap (fun b => leBytes 8 (a + 8 * b)) ++ List.replicate 8 (BitVec.ofNat 8 n)
  else if pat = 2 then
    let lane (b : Nat) : Nat := 2 ^ ((8 * n + b) % 72)
    (List.range 8).flatMap (fun b => leBytes 8 (lane b)) ++ (List.range 8).map (fun b => BitVec.ofNat 8 (lane b >>> 64))
  else (List.range 8).flatMap (fun _ => leBytes 8 (r.reg (mcOff p 0x828)).toNat) ++ List.replicate 8 0

/-- R283, R284: the lanes of a burst's bits that differ, 0 to 63 data and 64 to 71 metadata, beat by beat (log 108). -/
def badLanes (want got : List Byte) : List Nat :=
  (List.range 8).flatMap (fun b =>
    let at' (l : List Byte) : Nat := leNat ((l.drop (8 * b)).take 8) + (l.getD (64 + b) 0).toNat * 2 ^ 64
    (List.range 72).filter (fun i => (at' want ^^^ at' got).testBit i))

/-- R283, R284: the last pass ends. back: the bursts that the checking passes read back other than written, by in-channel address, 72 bytes each.
A soak that wrote an in-service channel ends with zeros in it. -/
def execSoakEnd (r : RegionId) (p : PhysId) (back : List (Nat × List Byte)) (s : State) : Host.Outcome State Fault Refusal :=
  let q := s.region r
  let mode := q.fld (mcOff p 0x800) 1 0
  match (q.chans.get p).soak with
  | none => .next s
  | some run =>
    let here (a : Nat) : Bool := a % 64 = 0 && decide (q.fld (mcOff p 0x808) 32 0 ≤ a) && decide (a < q.fld (mcOff p 0x810) 32 0)
    let found := if mode = 2 || mode = 3 then
        (back.filter (fun x => here x.1)).flatMap (fun x => (badLanes (q.soakBurst p x.1) x.2).map (fun l => (x.1, l)))
      else []
    let lanes := found.foldl (fun n x => n ||| 2 ^ x.2) 0
    let s := s.updRegion r (fun q =>
      let q := (q.updChan p (fun c => { c with soak := none })).count (mcOff p 0x830) 63 0 found.length
      let q := q.setReg (mcOff p 0x840) (q.reg (mcOff p 0x840) ||| BitVec.ofNat 64 (lanes % 2 ^ 64))
      let q := q.setFld (mcOff p 0x848) 7 0 (q.fld (mcOff p 0x848) 7 0 ||| lanes >>> 64)
      match found with
      | [] => q
      | m :: _ => (q.setFld (mcOff p 0x838) 32 0 m.1).setFld (mcOff p 0x800) 6 6 1)
    let s := match (s.region r).logicalOf p with
      | some l => if run.restore && (mode = 1 || mode = 3) then s.zeroChannel r l else s
      | none => s
    .next (if found.isEmpty then s else s.regionReport r 0x8060 true 0 (BitVec.ofNat 128 p.val))

/-! ## Start-up (R264) -/

/-- R264: the channels of a stack that failed training: the first that carries data is mapped to the spare if that is good and trained, with
no copy, and becomes the new spare; each one left over is dead. -/
def State.startFailed (s : State) (failed : List (RegionId × PhysId)) (r : RegionId) : State :=
  let q := s.region r
  let bad := (List.finRange 17).filter (fun p => failed.contains (r, p))
  let good := !q.spareBad && !bad.contains q.spare
  let data := bad.filter (fun p => p != q.spare)
  let spared := if good then data.take 1 else []
  let s := spared.foldl (fun s p => match (s.region r).logicalOf p with
    | some l => s.updRegion r (fun q => q.swapSpare l)
    | none => s) s
  let s := if bad.contains q.spare then
      s.updRegion r (fun q => ({ (q.updChan q.spare (fun c => { c with svc := .dead })) with spareBad := true, kept := { q.kept with spareBad := true } } : Region).count 0x40030 15 0 1)
    else s
  (data.drop spared.length).foldl (fun s p =>
    (s.updRegion r (fun q => (q.updChan p (fun c => { c with svc := .dead })).count 0x40030 15 0 1)).regionReport r 0x8043 false 0 (BitVec.ofNat 128 p.val)) s

/-- R264: at package reset the channels train and the remap tables load from the always-on copies. -/
def execMemoryStartup (failed : List (RegionId × PhysId)) (s : State) : Host.Outcome State Fault Refusal :=
  if s.memReady || s.pwr.rst then .next s
  else
    let s := { s with regions := s.regions.map (fun q =>
      { q with remap := q.kept.remap, spare := q.kept.spare, spareBad := q.kept.spareBad,
               chans := .ofFn (fun p => if p = q.kept.spare then { svc := .spare, was := .spare } else {}) }) }
    .next ((List.finRange 8).foldl (fun s r => s.startFailed failed r) s)

/-- R264: device memory is zero, every tag and poison bit 0. -/
def State.zeroAll (s : State) : State :=
  { s with mem := [], memTags := [], memPoison := [],
           regions := s.regions.map (fun q =>
             { q with poisonFrom := .replicate 16 none, rc := [], chans := q.chans.map (fun c => { c with queue := [], fixes := [] }) }) }

def execZeroFillEnd (s : State) : Host.Outcome State Fault Refusal :=
  if s.memReady || s.pwr.rst || s.trust.recovery then .next s
  else
    let s := { s.zeroAll with memReady := true }
    .next ((List.finRange 8).foldl (fun s r => s.mcRefill r) s)

end Sys2Proof.Machine
end

