-- ==== Sys2Proof/Machine/Cache.lean ====
section
/-! DEFINITION. The caches and their coherence (chapter 10): the L1 caches, the basket, the L2, the hamper, the region cache's
part at the home, host lines and their tracker. -/

namespace Sys2Proof.Machine

/-! ## Line numbers and line data -/

/-- The key of a line: host lines stand from 2^58 up. -/
def lineKey (host : Bool) (line : Nat) : Nat := if host then line % 2 ^ 58 + 2 ^ 58 else line % 2 ^ 58
def isHost (key : Nat) : Bool := decide (2 ^ 58 ≤ key)

/-- Bytes lo to lo + n − 1 of a line. -/
def LData.bytes (d : LData) (lo n : Nat) : List Byte := (List.range n).map (fun i => BitVec.ofNat 8 (bitsOf d.data.toNat (8 * (lo + i) + 7) (8 * (lo + i))))
def LData.bad (d : LData) (lo n : Nat) : Bool := (wordsOf lo n).any (fun w => d.poison.getLsbD w)

/-- Mask and data that put bytes bs at offset lo of a line. -/
def maskAt (lo n : Nat) : BitVec 64 := BitVec.ofNat 64 ((2 ^ n - 1) * 2 ^ lo)
def dataAt (lo : Nat) (bs : List Byte) : BitVec 512 := BitVec.ofNat 512 (leNat bs * 2 ^ (8 * lo))

/-! ## Host memory -/

/-- Host memory takes bytes from the host's own writes, as the command brings them (log 9). -/
def State.hostPut (s : State) (a : Nat) (bs : List Byte) : State := { s with hostMem := writeBytes zeroByte s.hostMem a bs }
def State.hostGet (s : State) (a n : Nat) : List Byte := readBytes zeroByte s.hostMem a n

/-- A host line's value; host memory keeps no tags (R159). -/
def State.hostLine (s : State) (key : Nat) : LData := { data := BitVec.ofNat 512 (leNat (s.hostGet (64 * (key - 2 ^ 58)) 64)) }

/-! ## The home (R241, R242, R248) -/

/-- The home's value of a line: host memory, the region cache or a channel. -/
def State.homeLine (s : State) (key : Nat) : LData × State :=
  if isHost key then (s.hostLine key, s)
  else
    let h := s.homeOf key
    match (if (s.region h).rcOn then (s.region h).rcFind key else none) with
    | some l => (l.d, s.updRegion h (fun r => { (r.count 0x20008 63 0 1) with
        rc := { l with used := true } :: r.rc.filter (fun x => x.key != key) }))
    | none =>
      let s := s.settle (64 * key) 64
      (s.memLine (64 * key), s.updRegion h (fun r => r.count 0x20010 63 0 1))

/-- R241: a writeback is written into the region cache; a host line's goes to the host. -/
def State.homeWriteback (s : State) (key : Nat) (d : LData) : State :=
  if isHost key then s.hostPut (64 * (key - 2 ^ 58)) (d.bytes 0 64)
  else if (s.region (s.homeOf key)).rcOn then s.rcInstall key true d
  else (s.settle (64 * key) 64).memSetLine (64 * key) d

/-- R241: bytes written at the home: a present region-cache copy is updated, else they go to the channel. -/
def State.homeMerge (s : State) (key : Nat) (mask : BitVec 64) (data : BitVec 512) (pois : Bool) : State :=
  if isHost key then s.hostPut (64 * (key - 2 ^ 58)) (((s.hostLine key).merge mask data pois).bytes 0 64)
  else
    let h := s.homeOf key
    match (s.region h).rcFind key with
    | some l => s.updRegion h (fun r => r.rcMerge l mask data pois)
    | none =>
      let s := s.settle (64 * key) 64
      if s.deadAt (64 * key) then s.placeCount (s.place (64 * key)) cDROP 1
      else [0, 1].foldl (fun s (b : Nat) =>
        s.writeCells (2 * key + b) (((List.range 32).filter (fun i => mask.getLsbD (32 * b + i))).map (fun i =>
          (64 * key + 32 * b + i, BitVec.ofNat 8 (bitsOf data.toNat (8 * (32 * b + i) + 7) (8 * (32 * b + i)))))) pois) s

/-! ## Holders -/

def Cluster.find (k : Cluster) (key : Nat) : Option L2Line := k.l2.find? (fun l => l.key == key)
def Cluster.ham (k : Cluster) (key : Nat) : Option HamE := k.hamper.find? (fun e => e.key == key && e.st.isSome)
def Cluster.wait (k : Cluster) (key : Nat) : Option L2Line := k.evWait.find? (fun l => l.key == key)

/-- A state and data that a cluster can supply: the L2, a line waiting for the hamper, or a hamper entry (R243). cross: from a
transit entry (R247). -/
structure Supply where
  st : LSt
  d  : LData
  cross : Bool
deriving DecidableEq, Repr

def Cluster.supply (k : Cluster) (key : Nat) : Option Supply :=
  match k.find key with
  | some l => some ⟨l.st, l.d, false⟩
  | none =>
    match k.wait key with
    | some l => some ⟨l.st, l.d, false⟩
    | none =>
      match k.ham key with
      | some e => e.st.map (fun st => ⟨st, e.d, e.kind != .victim⟩)
      | none => none

/-- R242: the order in which a snoop from a cluster meets the clusters: its own stop, then clockwise round its die, at the bridge
round the other die, and the rest of its own. -/
def ringOrder (cl : ClusterId) : List ClusterId :=
  let d := cl.val / 8
  let m := cl.val % 8
  (List.range (8 - m)).map (fun i => Fin.ofNat 16 (8 * d + m + i)) ++ (List.range 8).map (fun i => Fin.ofNat 16 (8 * (1 - d) + i)) ++
    (List.range m).map (fun i => Fin.ofNat 16 (8 * d + i))

/-- The first supplier of a line that a snoop from cl meets. -/
def State.firstSupply (s : State) (cl : ClusterId) (key : Nat) : Option (ClusterId × Supply) :=
  (ringOrder cl).findSome? (fun x => ((s.cluster x).supply key).map (fun y => (x, y)))

def Core.l1Has (k : Core) (key : Nat) : Bool :=
  k.l1d.any (fun l => l.key == key) || k.l1i.any (fun l => l.key == key) || k.basket.any (fun l => l.key == key)

/-- Some other copy of the line exists: in an L2 or hamper, or in an L1 or basket of another cluster. -/
def State.otherCopy (s : State) (cl : ClusterId) (key : Nat) : Bool :=
  (s.firstSupply cl key).isSome || (List.finRange 64).any (fun c => coreCluster c != cl && (s.core c).l1Has key)

def shareSt : LSt → LSt
  | .m => .o
  | .e => .s
  | x => x

/-- R243: a Read leaves M as O and E as S at every other holder. -/
def Cluster.downgrade (k : Cluster) (key : Nat) : Cluster :=
  { k with l2 := k.l2.map (fun l => if l.key == key then { l with st := shareSt l.st } else l),
           evWait := k.evWait.map (fun l => if l.key == key then { l with st := shareSt l.st } else l),
           hamper := k.hamper.map (fun e => if e.key == key then { e with st := e.st.map shareSt } else e) }

def State.mapClusters (s : State) (f : ClusterId → Cluster → Cluster) : State :=
  { s with clusters := .ofFn (fun c => f c (s.cluster c)) }

def State.mapCores (s : State) (f : CoreId → Core → Core) : State := { s with cores := .ofFn (fun c => f c (s.core c)) }

/-- R247: a transit entry that an invalidating snoop meets becomes I and an offer becomes stale; every other copy goes. -/
def Cluster.invalidate (k : Cluster) (key : Nat) : Cluster :=
  let cross := k.hamper.any (fun e => e.key == key && e.st.isSome && e.kind != .victim)
  let k := { k with l2 := k.l2.filter (fun l => l.key != key), evWait := k.evWait.filter (fun l => l.key != key),
                    hamper := (k.hamper.filter (fun e => !(e.key == key && e.kind == .victim))).map (fun e =>
                      if e.key == key then { e with st := none, stale := e.kind == .offer } else e) }
  if cross then k.count 0x40 63 0 1 else k

/-- R237: basket lines that a test does not keep leave unused, and count. -/
def Core.basketKeep (k : Core) (keep : L1Line → Bool) : Core :=
  match (k.basket.filter (fun l => !keep l)).length with
  | 0 => k
  | n => ({ k with basket := k.basket.filter keep } : Core).count 0x1B20 63 0 n

def Core.l1Drop (k : Core) (key : Nat) : Core :=
  ({ k with l1d := k.l1d.filter (fun l => l.key != key), l1i := k.l1i.filter (fun l => l.key != key) } : Core).basketKeep (fun l => l.key != key)

/-- R247, R248: the writebacks and offers of a line that are on their way reach their home: a writeback is applied, an offer is
stale and discarded. A host line's writeback stands in its transit entry until the host takes it. -/
def State.landMoves (s : State) (key : Nat) : State :=
  if isHost key then
    (List.finRange 16).foldl (fun s c => ((s.cluster c).hamper.filter (fun e => e.key == key && e.kind == .writeback && e.st.isSome)).foldl
      (fun s e => s.homeWriteback key e.d) s) s
  else
    let h := s.homeOf key
    let l := (s.region h).moves.filter (fun m => m.key == key)
    let s := s.updRegion h (fun r => { r with moves := r.moves.filter (fun m => m.key != key) })
    l.foldl (fun s m => if m.offer then s.updRegion h (fun r => r.count 0x20028 63 0 1) else s.homeWriteback key m.d) s

/-- R243: invalidate every copy of a line but those of cluster keep's L2 (Upgrade) and core own's L1D (a store, R236). -/
def State.invalidateAll (s : State) (key : Nat) (keep : Option ClusterId) (own : Option CoreId) : State :=
  let s := s.landMoves key
  let s := s.mapClusters (fun c k =>
    if keep = some c then
      let l := k.find key
      { (k.invalidate key) with l2 := (l.toList) ++ k.l2.filter (fun x => x.key != key) }
    else k.invalidate key)
  s.mapCores (fun c k => if own = some c then { k with l1i := k.l1i.filter (fun l => l.key != key) } else k.l1Drop key)

/-! ## Evictions (R239, R240) -/

def l2Set (key : Nat) : Nat := key % 4096

def Cluster.transit (k : Cluster) : Nat := (k.hamper.filter (fun e => e.kind != .victim)).length

/-- R240: the hamper has an entry to take: a free one, or a victim to replace. -/
def Cluster.hamRoom (k : Cluster) : Bool := decide (k.hamper.length < Config.hamperEntries) || k.hamper.any (fun e => e.kind == .victim)

/-- Take an entry: a free one first, otherwise the least recently used victim's. The list keeps the latest use first. -/
def Cluster.hamPut (k : Cluster) (e : HamE) : Cluster :=
  if k.hamper.length < Config.hamperEntries then { k with hamper := e :: k.hamper }
  else match (k.hamper.filter (fun x => x.kind == .victim)).getLast? with
    | some v => { k with hamper := e :: k.hamper.erase v }
    | none => k

/-- R240, R249: a line that leaves an L2: dirty lines and streaming lines go through a transit entry with their message, clean
scalar lines become victims. -/
def State.evictLine (s : State) (cl : ClusterId) (l : L2Line) : State :=
  let dirty := l.st == .m || l.st == .o
  let kind : HamKind := if dirty then .writeback else .offer
  if dirty || !l.scalar then
    if !(s.cluster cl).hamRoom then s.updCluster cl (fun k => { k with evWait := k.evWait ++ [l] })
    else
      let s := s.updCluster cl (fun k => k.hamPut { key := l.key, kind := kind, st := some l.st, scalar := l.scalar, d := l.d, stale := false })
      if isHost l.key then s
      else s.updRegion (s.homeOf l.key) (fun r => { r with moves := r.moves ++ [{ cl := cl, key := l.key, offer := !dirty, stale := false, d := l.d }] })
  else if (s.cluster cl).fld 0 8 8 = 0 then s
  else if !(s.cluster cl).hamRoom then s.updCluster cl (fun k => { k with evWait := k.evWait ++ [l] })
  else s.updCluster cl (fun k => k.hamPut { key := l.key, kind := .victim, st := some l.st, scalar := true, d := l.d, stale := false })

/-- The line of a set to replace for a new line of a kind: R239 limits streaming lines to STRWAYS ways. -/
def Cluster.victim (k : Cluster) (key : Nat) (scalar : Bool) : Option L2Line :=
  let set := k.l2.filter (fun l => l2Set l.key == l2Set key)
  let str := set.filter (fun l => !l.scalar)
  if !scalar && decide (k.fld 0 3 0 ≤ str.length) then str.getLast?
  else if set.length < 16 then none else set.getLast?

/-- Put a line into an L2, at the front as the latest used. -/
def State.l2Install (s : State) (cl : ClusterId) (l : L2Line) : State :=
  let put (s : State) := s.updCluster cl (fun k => { k with l2 := l :: k.l2.filter (fun x => x.key != l.key) })
  match (s.cluster cl).victim l.key l.scalar with
  | none => put s
  | some v => (put (s.updCluster cl (fun k => { k with l2 := k.l2.filter (fun x => x.key != v.key) }))).evictLine cl v

/-- R239: a use of an L2 line: the latest used; a scalar access makes it scalar. -/
def Cluster.touch (k : Cluster) (key : Nat) (scalar : Bool) (f : L2Line → L2Line) : Cluster :=
  match k.find key with
  | none => k
  | some l => { k with l2 := f { l with scalar := l.scalar || scalar } :: k.l2.filter (fun x => x.key != key) }

/-! ## The tracker of host lines (R249) -/

/-- Some copy of a line is held somewhere in the package. -/
def State.heldAnywhere (s : State) (key : Nat) : Bool :=
  (List.finRange 16).any (fun c => ((s.cluster c).supply key).isSome) || (List.finRange 64).any (fun c => (s.core c).l1Has key)

def State.trackerTrim (s : State) : State := { s with tracker := s.tracker.filter s.heldAnywhere }

/-- The value of a line that some holder keeps dirty. -/
def State.dirtyData (s : State) (key : Nat) : Option LData :=
  (List.finRange 16).findSome? (fun c => match (s.cluster c).supply key with
    | some y => if y.st == .m || y.st == .o then some y.d else none
    | none => none)

/-- R249: evict a host line from the whole package; a dirty line's data go to the host. -/
def State.hostFlush (s : State) (key : Nat) : State :=
  let s := match s.dirtyData key with | some d => s.homeWriteback key d | none => s
  let s := s.invalidateAll key none none
  { s with tracker := s.tracker.filter (fun x => x != key) }

/-- R249: the host lines cached anywhere in the package. -/
def State.tracked (s : State) : List Nat := s.tracker.filter s.heldAnywhere

/-- R249: a fill adds a host line to the tracker, evicting the oldest from a full one. -/
def State.track (s : State) (key : Nat) : State :=
  if !isHost key || s.tracker.contains key then s
  else
    let s := s.trackerTrim
    let s := if s.tracker.length < Config.trackerEntries then s
      else match s.tracker with
        | [] => s
        | o :: _ => (s.hostFlush o).updDie 0 (fun d => { d with htEvict := satAdd 64 d.htEvict 1 })
    { s with tracker := s.tracker ++ [key] }

/-! ## Whole requests (R235, R243) -/

/-- R240: a miss that hits a victim entry recalls the line into the L2. -/
def State.recall (s : State) (cl : ClusterId) (key : Nat) (scalar : Bool) : Option State :=
  match (s.cluster cl).ham key with
  | some e =>
    if e.kind == .victim then
      let s := s.updCluster cl (fun k => ({ k with hamper := k.hamper.filter (fun x => x.key != key) } : Cluster).count 0x20 63 0 1)
      some (s.l2Install cl { key := key, st := e.st.getD .s, scalar := e.scalar || scalar, d := e.d, hold := false })
    else none
  | none => none

/-- R245: a composite request of a cluster, or of no cluster, waits out the hold windows of a line. -/
def State.waitHold (s : State) (cl : Option ClusterId) (key : Nat) : State :=
  s.mapClusters (fun c k => if some c != cl && k.l2.any (fun l => l.key == key && l.hold) then
    ({ k with l2 := k.l2.map (fun l => if l.key == key then { l with hold := false } else l) } : Cluster).count 0x30 63 0 1 else k)

/-- R243: the current value of a line that a request from cluster cl is given: the first holder's, else the home's. -/
def State.lineValue (s : State) (cl : ClusterId) (key : Nat) : LData × State :=
  match s.firstSupply cl key with
  | some (_, y) => (y.d, s)
  | none => s.homeLine key

/-- R243, R247: the value that a Read or a ReadCur from cluster cl takes; a snoop that a transit entry answers counts. -/
def State.fetchLine (s : State) (cl : ClusterId) (key : Nat) : LData × State :=
  match s.firstSupply cl key with
  | some (x, y) => (y.d, if y.cross then s.updCluster x (fun k => k.count 0x40 63 0 1) else s)
  | none => s.homeLine key

/-- R235, R243: a Read by an agent of cluster cl. alloc: whether and as what kind the L2 takes the line. -/
def State.cohRead (s : State) (cl : ClusterId) (key : Nat) (scalar alloc : Bool) : LData × State :=
  match (s.cluster cl).find key with
  | some l => (l.d, s.updCluster cl (fun k => (k.touch key scalar (fun x => x)).count 0x10 63 0 1))
  | none =>
    let s := s.updCluster cl (fun k => k.count 0x18 63 0 1)
    match s.recall cl key scalar with
    | some s2 => ((((s2.cluster cl).find key).map L2Line.d).getD {}, s2)
    | none =>
      let s := s.waitHold (some cl) key
      let shared := s.otherCopy cl key
      let (d, s) := s.fetchLine cl key
      let s := s.mapClusters (fun _ k => k.downgrade key)
      if alloc && (scalar || (s.cluster cl).fld 0 3 0 != 0) then
        (d, (s.track key).l2Install cl { key := key, st := if shared then .s else .e, scalar := scalar, d := d, hold := false })
      else (d, s)

/-- R243: a ReadCur: the current value, no copy and no change of state. -/
def State.cohReadCur (s : State) (cl : ClusterId) (key : Nat) : LData × State := s.fetchLine cl key

/-- R236, R243: cluster cl gets a line in a state it may write: M by Upgrade or from a dirty holder, else E. -/
def State.ownLine (s : State) (cl : ClusterId) (key : Nat) (own : Option CoreId) (hold : Bool) : State :=
  let s := match (s.cluster cl).find key with | some _ => s | none => (s.recall cl key true).getD s
  match (s.cluster cl).find key with
  | some l =>
    let s := s.updCluster cl (fun k => k.count 0x10 63 0 1)
    if l.st == .m || l.st == .e then
      (s.updCluster cl (fun k => k.touch key true (fun x => x))).mapCores (fun c k =>
        if coreCluster c = cl && own != some c then k.l1Drop key else if own = some c then { k with l1i := k.l1i.filter (fun x => x.key != key) } else k)
    else
      let s := (s.waitHold (some cl) key).invalidateAll key (some cl) own
      s.updCluster cl (fun k => k.touch key true (fun x => { x with st := .m, hold := hold }))
  | none =>
    let s := (s.updCluster cl (fun k => k.count 0x18 63 0 1)).waitHold (some cl) key
    let dirty := match s.firstSupply cl key with | some (_, y) => y.st == .m || y.st == .o | none => false
    let anyDirty := dirty || (s.dirtyData key).isSome
    let (d, s) := s.lineValue cl key
    let s := (s.invalidateAll key none own).track key
    s.l2Install cl { key := key, st := if anyDirty then .m else .e, scalar := true, d := d, hold := hold }

/-- R243, R245, R247: a WriteInv: after the hold windows of the line, a dirty holder's line goes to the home, every copy is invalidated,
and the bytes are merged. -/
def State.cohWrite (s : State) (key : Nat) (mask : BitVec 64) (data : BitVec 512) (pois : Bool) : State :=
  let s := s.waitHold none key
  let s := match s.dirtyData key with | some d => (s.landMoves key).homeWriteback key d | none => s
  (s.invalidateAll key none none).homeMerge key mask data pois

/-- Write bytes anywhere in device or host memory, line by line, as WriteInv requests. -/
def writeLines : Nat → State → Bool → Nat → List Byte → Bool → State
  | 0, s, _, _, _, _ => s
  | n + 1, s, host, a, bs, pois =>
    if bs.isEmpty then s
    else
      let lo := a % 64
      let here := bs.take (64 - lo)
      writeLines n (s.cohWrite (lineKey host (a / 64)) (maskAt lo here.length) (dataAt lo here) pois) host (a + here.length) (bs.drop here.length) pois

def State.cohPut (s : State) (host : Bool) (a : Nat) (bs : List Byte) (pois : Bool) : State := writeLines (bs.length / 64 + 2) s host a bs pois

/-- Read n bytes line by line with a reader of lines; answers the bytes and whether a word was poisoned. -/
def readLines (rd : State → Nat → LData × State) : Nat → State → Bool → Nat → Nat → List Byte × Bool × State
  | 0, s, _, _, _ => ([], false, s)
  | k + 1, s, host, a, n =>
    if n = 0 then ([], false, s)
    else
      let lo := a % 64
      let m := min n (64 - lo)
      let (d, s) := rd s (lineKey host (a / 64))
      let (bs, p, s) := readLines rd k s host (a + m) (n - m)
      (d.bytes lo m ++ bs, d.bad lo m || p, s)

/-- The current bytes of memory as any agent sees them, with no request made (used by agents outside the coherence domain). -/
def State.peek (s : State) (host : Bool) (a n : Nat) : List Byte × Bool :=
  let r := readLines (fun s key => s.fetchLine 0 key) (n / 64 + 2) s host a n
  (r.1, r.2.1)

/-! ## L1 caches and the basket (R236, R237) -/

def l1Set (key : Nat) : Nat := key % 256

/-- Put a line into a 4-way L1; answers the line it replaces. The list keeps the latest use first. -/
def l1Put (l : List L1Line) (x : L1Line) : List L1Line × Option L1Line :=
  let l := l.filter (fun y => y.key != x.key)
  let set := l.filter (fun y => l1Set y.key == l1Set x.key)
  match (if set.length < 4 then none else set.getLast?) with
  | some v => (x :: l.filter (fun y => y.key != v.key), some v)
  | none => (x :: l, none)

/-- R240: a line that an L1 evicts becomes a victim where its cluster holds it nowhere else. -/
def State.l1Victim (s : State) (c : CoreId) (v : Option L1Line) : State :=
  match v with
  | none => s
  | some v =>
    let cl := coreCluster c
    if ((s.cluster cl).supply v.key).isSome || (s.cluster cl).fld 0 8 8 = 0 || !(s.cluster cl).hamRoom then s
    else (s.mapClusters (fun _ k => k.downgrade v.key)).updCluster cl (fun k =>
      k.hamPut { key := v.key, kind := .victim, st := some .s, scalar := true, d := v.d, stale := false })

def State.l1dFill (s : State) (c : CoreId) (x : L1Line) : State :=
  let r := l1Put (s.core c).l1d x
  (s.updCore c (fun k => { k with l1d := r.1 })).l1Victim c r.2

def State.l1iFill (s : State) (c : CoreId) (x : L1Line) : State :=
  let r := l1Put (s.core c).l1i x
  (s.updCore c (fun k => { k with l1i := r.1 })).l1Victim c r.2

/-- R237: the basket takes a prefetched line, first in first out over 16; a line that leaves unused counts. -/
def Core.basketPut (k : Core) (x : L1Line) : Core :=
  if k.basket.any (fun y => y.key == x.key) then k
  else if k.basket.length < 16 then { k with basket := k.basket ++ [x] }
  else ({ k with basket := k.basket.drop 1 ++ [x] } : Core).count 0x1B20 63 0 1

/-- R236: a scalar load of a line: the L1D, the basket, or the cluster and beyond with an L1D fill. -/
def State.loadLine (s : State) (c : CoreId) (key : Nat) : LData × State :=
  let k := s.core c
  match k.l1d.find? (fun l => l.key == key) with
  | some l => (l.d, s.updCore c (fun k => ({ k with l1d := l :: k.l1d.filter (fun x => x.key != key) } : Core).count 0x1B08 63 0 1))
  | none =>
    match k.basket.find? (fun l => l.key == key) with
    | some l => (l.d, (s.updCore c (fun k => ({ k with basket := k.basket.filter (fun x => x.key != key) } : Core).count 0x1B18 63 0 1)).l1dFill c l)
    | none =>
      let s := s.updCore c (fun k => k.count 0x1B10 63 0 1)
      let (d, s) := s.cohRead (coreCluster c) key true true
      (d, s.l1dFill c { key := key, d := d })

/-- R214: the frame mask keeps a context from a line of device memory, where no cache of the package holds it. -/
def State.lineRefused (s : State) (cl : ClusterId) (ctx : BitVec 4) (key : Nat) : Bool :=
  !isHost key && paKind (64 * key) == .dev && !s.frameOk (some ctx) (64 * key) && (s.firstSupply cl key).isNone

/-- R237: fetch a line into the basket. A prefetch that its frame mask refuses is dropped (R221). -/
def State.prefetchLine (s : State) (c : CoreId) (ctx : BitVec 4) (key : Nat) : State :=
  if (s.core c).l1d.any (fun l => l.key == key) || (s.core c).basket.any (fun l => l.key == key) || s.lineRefused (coreCluster c) ctx key then s
  else
    let (d, s) := s.cohRead (coreCluster c) key true true
    s.updCore c (fun k => k.basketPut { key := key, d := d })

/-- R236: a store drains into the L2, which holds the line in E or M, and updates an L1D copy that is present. -/
def State.storeLine (s : State) (c : CoreId) (key : Nat) (mask : BitVec 64) (data : BitVec 512) (tag : Option (Nat × Bool)) : State :=
  let cl := coreCluster c
  let s := s.ownLine cl key (some c) true
  let upd (d : LData) : LData :=
    let d := d.merge mask data false
    match tag with
    | some (w, b) => { d with tags := BitVec.ofNat 4 (setBits d.tags.toNat w w b.toNat) }
    | none => d
  let s := s.updCluster cl (fun k => k.touch key true (fun l => { l with st := .m, d := upd l.d }))
  s.updCore c (fun k => ({ k with l1d := k.l1d.map (fun l => if l.key == key then { l with d := upd l.d } else l) } : Core).basketKeep (fun l => l.key != key))

/-! ## Back-invalidation and the host link (R359, R361, R363) -/

/-- R363: the CXL link carries CXL.cache requests: L0, with Bus Master and Memory Space Enable set. -/
def State.hostUp (s : State) : Bool := s.cxl.st == 2 && s.cxl.bme && s.cxl.mse

def Cxl.reg (k : Cxl) (off : Nat) : W64 := mget cxlReset k.regs off
def Cxl.setReg (k : Cxl) (off : Nat) (v : W64) : Cxl := { k with regs := mset cxlReset k.regs off v }
def Cxl.count (k : Cxl) (off n : Nat) : Cxl := k.setReg off (BitVec.ofNat 64 (satAdd 64 (k.reg off).toNat n))
def State.cxlCount (s : State) (off n : Nat) : State := { s with cxl := s.cxl.count off n }

/-- R359: the entry of the host filter for a line of device memory. -/
def State.filtEntry (s : State) (key : Nat) : Option FiltE :=
  if isHost key then none else (s.region (s.homeOf key)).filter.find? (fun e => e.key == key)

/-- R359: a device request needs a back-invalidation: any entry for one that owns or writes the line, an owned entry for a read. -/
def State.biNeed (s : State) (key : Nat) (own : Bool) : Bool := match s.filtEntry key with | some e => e.owned || own | none => false

/-- R359: a BISnp leaves while fewer than 1,024 are outstanding, else it waits for a tag. -/
def State.sendBi (s : State) (key : Nat) (inv : Bool) : State :=
  if s.biSnps.any (fun b => b.key == key) then s
  else
    let go := decide ((s.biSnps.filter BiSnp.sent).length < 1024)
    let s := { s with biSnps := s.biSnps ++ [{ key := key, inv := inv, sent := go }] }
    if go then s.cxlCount 8 1 else s

/-- R273: the line's channel retrains, and requests for the line are queued there. -/
def State.retrainHolds (s : State) (key : Nat) : Bool :=
  let pl := s.place (64 * key)
  let c := s.chanOf pl
  c.svc == .retraining && ((s.region pl.region).rcFind key).isNone && c.queue.any (fun e => e.covers pl.lch.val pl.addr 64)

/-- A request of a cluster (none: of no cluster) for a line waits: at its home for a back-invalidation or a retraining, or at the port for
the host link. A line that the cluster itself holds as it needs passes no home. -/
def State.mustWait (s : State) (cl : Option ClusterId) (key : Nat) (own : Bool) : Bool :=
  let mine := match cl with
    | some c => (match (s.cluster c).supply key with | some y => !own || y.st == .m || y.st == .e | none => false)
    | none => false
  if isHost key then !s.hostUp && !(match cl with | some c => mine || (s.firstSupply c key).isSome | none => false)
  else !mine && (s.biNeed key own || s.biSnps.any (fun b => b.key == key) || s.retrainHolds key)

/-- Where a request for some lines waits, the state in which its back-invalidations are sent. -/
def State.gate (s : State) (cl : Option ClusterId) (keys : List Nat) (own : Bool) : Option State :=
  match keys.filter (fun key => s.mustWait cl key own) with
  | [] => none
  | l => some (l.foldl (fun s key => if isHost key || !s.biNeed key own then s else s.sendBi key own) s)

/-! ## The requests as events (R243 to R245) -/

/-- R360: a host request for the line is in progress at its home, where it waits for another line's back-invalidation. -/
def State.hostBusy (s : State) (key : Nat) : Bool :=
  s.homeWait.any (fun q => match q with | .hostRead k _ => k == key | _ => false) && !s.biSnps.any (fun b => b.key == key)

/-- R244: another request for the line is active at its home, or the line is reserved for another. -/
def State.lineBusy (s : State) (cl : ClusterId) (i : Option Nat) (key : Nat) : Bool :=
  s.hostBusy key ||
  (List.finRange 16).any (fun c => ((s.cluster c).reqs.zipIdx).any (fun r =>
    r.1.key == key && !(c == cl && i == some r.2) && (!r.1.retry || r.1.resv)))

/-- R245: another cluster holds the line within its hold window. -/
def State.heldBy (s : State) (cl : ClusterId) (key : Nat) : Option ClusterId :=
  (ringOrder cl).find? (fun x => x != cl && (s.cluster x).l2.any (fun l => l.key == key && l.hold))

/-- R245: the holder defers a snoop. -/
def State.defer (s : State) (holder cl : ClusterId) (key kind : Nat) (scalar bad : Bool := false) : State :=
  s.updCluster holder (fun k =>
    let d : Deferred := { cl := cl, key := key, kind := kind, scalar := scalar, bad := bad }
    if k.defers.contains d then k else { k with defers := k.defers ++ [d] })

/-- A request enters; marked RETRY when the home is busy with its line. -/
def State.reqEnter (s : State) (cl : ClusterId) (r : CohReq) : State :=
  s.updCluster cl (fun k => { k with reqs := k.reqs ++ [{ r with retry := s.lineBusy cl none r.key }] })

/-- R243: what a Read does. bad: the host answered with poisoned data. -/
def State.readNow (s : State) (cl : ClusterId) (key : Nat) (scalar bad : Bool) : State :=
  let held := (s.firstSupply cl key).isSome
  let s := (s.cohRead cl key scalar true).2
  if isHost key && bad && !held then s.updCluster cl (fun k => { k with l2 := k.l2.map (fun l =>
    if l.key == key then { l with d := { l.d with poison := 15 } } else l) }) else s

/-- R243: a Read at its home, after any wait. -/
def State.cacheRead (s : State) (cl : ClusterId) (key : Nat) (scalar bad : Bool) : State :=
  match s.gate (some cl) [key] false with
  | some s => { s with homeWait := s.homeWait ++ [.read cl key scalar bad] }
  | none =>
    if s.lineBusy cl none key then
      s.reqEnter cl { kind := .read, key := key, retry := true, tries := 0, hostFill := {}, mask := 0, data := 0, poison := false, scalar := scalar, bad := bad }
    else match s.heldBy cl key with
      | some h => s.defer h cl key 0 scalar bad
      | none => s.readNow cl key scalar bad

/-! ### Errors in the caches (R253, R254) -/

/-- A word of a line turns bad. -/
def LData.poisonWord (d : LData) (w : Fin 4) : LData := { d with poison := d.poison ||| BitVec.ofNat 4 (2 ^ w.val) }

/-- R253: parity in an L1 or the basket: the line is invalidated, and a later access fetches it again. -/
def Core.l1Err (k : Core) (key : Nat) : Core := if k.l1Has key then (k.l1Drop key).count 0x1B28 63 0 1 else k

/-- R253: an L2 or hamper line beyond correction: a clean one goes, a dirty one keeps a poisoned word. -/
def Cluster.lineErr (k : Cluster) (key : Nat) (w : Fin 4) (dirty : Bool) : Cluster :=
  if dirty then
    ({ k with l2 := k.l2.map (fun l => if l.key == key then { l with d := l.d.poisonWord w } else l),
              evWait := k.evWait.map (fun l => if l.key == key then { l with d := l.d.poisonWord w } else l),
              hamper := k.hamper.map (fun e => if e.key == key then { e with d := e.d.poisonWord w } else e) } : Cluster).count 0x48 31 16 1
  else k.invalidate key

def State.l2Err (s : State) (cl : ClusterId) (key : Nat) (w : Fin 4) (unc : Bool) : State :=
  match (s.cluster cl).supply key with
  | none => s
  | some y =>
    if !unc then s.updCluster cl (fun k => k.count 0x48 15 0 1)
    else
      let dirty := y.st == .m || y.st == .o
      let s := s.updCluster cl (fun k => k.lineErr key w dirty)
      let s := if isHost key then s else s.updRegion (s.homeOf key) (fun r => { r with moves := r.moves.map (fun m =>
        if m.key == key && m.cl == cl then (if dirty then { m with d := m.d.poisonWord w } else { m with stale := true }) else m) })
      s.clusterReport cl (if dirty then 0x5020 else 0x5021) (!dirty) (BitVec.ofNat 64 (64 * key))

def State.rcErr (s : State) (key : Nat) (w : Fin 4) (unc : Bool) : State :=
  if isHost key then s
  else
    let h := s.homeOf key
    match (s.region h).rcFind key with
    | none => s
    | some l =>
      if !unc then s.updRegion h (fun r => r.count 0x20030 15 0 1)
      else
        let s := s.updRegion h (fun r =>
          if l.dirty then ({ r with rc := r.rc.map (fun x => if x.key == key then { x with d := x.d.poisonWord w } else x) } : Region).count 0x20030 31 16 1
          else r.rcDrop key)
        s.regionReport h (if l.dirty then 0x5020 else 0x5021) (!l.dirty) (BitVec.ofNat 64 (64 * key))

/-- R253: the errors that the look-ups of a request find, before it goes on. -/
def State.cacheErrs (s : State) (key : Nat) (l : List CacheErr) : State :=
  l.foldl (fun s e => match e.place with
    | .l1 c => s.updCore c (fun k => k.l1Err key)
    | .l2 cl => s.l2Err cl key e.word e.unc
    | .rc => s.rcErr key e.word e.unc) s

def execCacheRead (cl : ClusterId) (line : BitVec 58) (host scalar : Bool) (hostData : List Byte) (bad : Bool) (s : State) (errs : List CacheErr := []) :
    Host.Outcome State Fault Refusal :=
  let key := lineKey host line.toNat
  if !host && !(paKind (64 * key) == .dev) then .next s
  else
    let s := s.cacheErrs key errs
    let s := if host && s.hostUp && !hostData.isEmpty then s.hostPut (64 * line.toNat) (hostData.take 64) else s
    .next (s.cacheRead cl key scalar bad)

def execCacheReadown (cl : ClusterId) (line : BitVec 58) (host : Bool) (hostData : List Byte) (s : State) : Host.Outcome State Fault Refusal :=
  let key := lineKey host line.toNat
  if !host && !(paKind (64 * key) == .dev) then .next s
  else
    let s := if host && s.hostUp && !hostData.isEmpty then s.hostPut (64 * line.toNat) (hostData.take 64) else s
    .next (s.reqEnter cl { kind := .readOwn, key := key, retry := false, tries := 0, hostFill := {}, mask := 0, data := 0, poison := false })

/-- R243: an Upgrade comes from a cluster that holds the line in S or O. -/
def execCacheUpgrade (cl : ClusterId) (line : BitVec 58) (host : Bool) (s : State) : Host.Outcome State Fault Refusal :=
  let key := lineKey host line.toNat
  match (s.cluster cl).find key with
  | some l => .next (if l.st == .s || l.st == .o then
      s.reqEnter cl { kind := .upgrade, key := key, retry := false, tries := 0, hostFill := {}, mask := 0, data := 0, poison := false } else s)
  | none => .next s

/-- R243: a ReadCur at its home, after any wait. -/
def State.cacheReadCur (s : State) (cl : ClusterId) (key : Nat) : State :=
  match s.gate (some cl) [key] false with
  | some s => { s with homeWait := s.homeWait ++ [.readCur cl key] }
  | none =>
    if s.lineBusy cl none key then
      s.reqEnter cl { kind := .readCur, key := key, retry := true, tries := 0, hostFill := {}, mask := 0, data := 0, poison := false }
    else
      let r := s.cohReadCur cl key
      { r.2 with answer := leBytes 64 r.1.data.toNat }

def execCacheReadcur (cl : ClusterId) (line : BitVec 58) (s : State) : Host.Outcome State Fault Refusal :=
  let key := lineKey false line.toNat
  .next (if paKind (64 * key) == .dev then s.cacheReadCur cl key else s)

def execCacheWriteinv (cl : ClusterId) (line : BitVec 58) (mask : BitVec 64) (data : BitVec 512) (poison : Bool) (s : State) :
    Host.Outcome State Fault Refusal :=
  let key := lineKey false line.toNat
  if !(paKind (64 * key) == .dev) then .next s
  else .next (s.reqEnter cl { kind := .writeInv, key := key, retry := false, tries := 0, hostFill := {}, mask := mask, data := data, poison := poison })

/-- The requests that take a line from every other holder. -/
def ReqKind.owns : ReqKind → Bool
  | .readOwn | .upgrade | .writeInv => true
  | .read | .readCur => false

/-- R243, R245, R248: the snoop of request i has returned; the request takes effect unless a holder defers it. -/
def execSnoopReturn (cl : ClusterId) (i : Nat) (s : State) : Host.Outcome State Fault Refusal :=
  match (s.cluster cl).reqs[i]? with
  | none => .next s
  | some r =>
    if r.retry then .next s
    else match s.gate (match r.kind with | .writeInv => none | _ => some cl) [r.key] r.kind.owns, s.heldBy cl r.key with
      | some s, _ => .next s
      | none, some h => .next (s.defer h cl r.key (match r.kind with | .writeInv => 2 | _ => 1))
      | none, none =>
        let s := s.updCluster cl (fun k => { k with reqs := k.reqs.eraseIdx i })
        match r.kind with
        | .writeInv => .next (s.cohWrite r.key r.mask r.data r.poison)
        | .readOwn => .next (s.ownLine cl r.key none true)
        | .upgrade => .next (s.ownLine cl r.key none true)
        | .read => .next (s.readNow cl r.key r.scalar r.bad)
        | .readCur => .next (s.cacheReadCur cl r.key)

/-- R244: a retry passes the home again; the home reserves the line for the first request of its fourth retry. -/
def execRetryReissue (cl : ClusterId) (i : Nat) (s : State) : Host.Outcome State Fault Refusal :=
  match (s.cluster cl).reqs[i]? with
  | none => .next s
  | some r =>
    if !r.retry then .next s
    else
      let busy := s.lineBusy cl (some i) r.key
      let taken := (List.finRange 16).any (fun c => (s.cluster c).reqs.any (fun x => x.key == r.key && x.resv))
      let s := s.updCluster cl (fun k =>
        ({ k with reqs := listUpd (fun x => { x with tries := x.tries + 1, retry := busy, resv := x.resv || (decide (4 ≤ x.tries + 1) && !taken) }) k.reqs i } : Cluster).count 0x38 63 0 1)
      if busy || r.kind.owns then .next s
      else
        let s := s.updCluster cl (fun k => { k with reqs := k.reqs.eraseIdx i })
        .next (if r.kind == .read then s.cacheRead cl r.key r.scalar r.bad else s.cacheReadCur cl r.key)

/-- R245: the hold window of a line ends, and its deferred snoops are answered: a Read takes its data now, the snoop of another request
returns (SNOOP_RETURN). -/
def execHoldWindowEnd (cl : ClusterId) (line : BitVec 58) (s : State) : Host.Outcome State Fault Refusal :=
  let hit (key : Nat) : Bool := key % 2 ^ 58 == line.toNat
  let l := (s.cluster cl).defers.filter (fun d => hit d.key)
  let s := s.updCluster cl (fun k =>
    ({ k with l2 := k.l2.map (fun l => if hit l.key then { l with hold := false } else l),
              defers := k.defers.filter (fun d => !(hit d.key)) } : Cluster).count 0x30 63 0 l.length)
  .next (l.foldl (fun s d => if d.kind = 0 then s.readNow d.cl d.key d.scalar d.bad else s) s)

/-- R240: the L2 evicts the least recently used line of a set. waits: the F-cycles that it has waited where it must wait (log 110). -/
def execL2Eviction (cl : ClusterId) (set waits : Nat) (s : State) : Host.Outcome State Fault Refusal :=
  let k := s.cluster cl
  match (k.l2.filter (fun l => l2Set l.key == set)).getLast? with
  | none => .next s
  | some v =>
    let s := (s.updCluster cl (fun k => { k with l2 := k.l2.filter (fun l => l.key != v.key) })).evictLine cl v
    .next (if (s.cluster cl).evWait.length ≤ k.evWait.length then s else s.updCluster cl (fun k => k.count 0x28 63 0 waits))

/-- R240: an eviction that has waited some F-cycles takes an entry as one becomes free. -/
def State.evictWaiting (s : State) (cl : ClusterId) (waits : Nat) : State :=
  match (s.cluster cl).evWait with
  | [] => s
  | l :: r => if (s.cluster cl).hamRoom then (s.updCluster cl (fun k => ({ k with evWait := r } : Cluster).count 0x28 63 0 waits)).evictLine cl l else s

/-- R240, R239: the home has acknowledged: a scalar line becomes a clean victim, in E, and in S where a Read met the entry, since E is
sole (log 103); any other is freed. -/
def Cluster.acked (k : Cluster) (key : Nat) : Cluster :=
  match k.hamper.find? (fun e => e.key == key && e.kind != .victim) with
  | none => k
  | some e =>
    let rest := k.hamper.erase e
    match e.st with
    | some st =>
      if e.scalar && k.fld 0 8 8 = 1 then
        { k with hamper := { e with kind := .victim, st := some (if st == .m || st == .e then .e else .s) } :: rest }
      else { k with hamper := rest }
    | none => { k with hamper := rest }

/-- waits: the F-cycles that an eviction has waited for the entry that this one frees. -/
def execEvictionAck (cl : ClusterId) (line : BitVec 58) (s : State) (waits : Nat := 0) : Host.Outcome State Fault Refusal :=
  let key := line.toNat
  let moving := paKind (64 * key) == .dev && (s.region (s.homeOf key)).moves.any (fun m => m.key == key && m.cl == cl)
  .next (if moving then s else (s.updCluster cl (fun k => k.acked key)).evictWaiting cl waits)

/-- R254: an eviction has waited 65,536 F-cycles. -/
def execHamperWait (cl : ClusterId) (s : State) : Host.Outcome State Fault Refusal :=
  match (s.cluster cl).evWait with
  | [] => .next s
  | l :: _ => .next (s.clusterReport cl 0x5030 true (BitVec.ofNat 64 (64 * l.key)))

/-- R241: the region cache declines a clean offer. -/
def Region.declines (r : Region) (key : Nat) : Bool :=
  let set := r.rc.filter (fun x => rcSet x.key == rcSet key)
  !r.rcOn || r.fld 0x20000 1 0 = 2 ||
    (r.fld 0x20000 1 0 = 1 && decide (16 ≤ set.length) && (match set.getLast? with | some v => v.used | none => false))

/-- R241, R247: a writeback or an offer reaches its home. -/
def execWritebackArrival (r : RegionId) (i : Nat) (s : State) : Host.Outcome State Fault Refusal :=
  match (s.region r).moves[i]? with
  | none => .next s
  | some m =>
    let s := s.updRegion r (fun q => { q with moves := q.moves.eraseIdx i })
    if !m.offer then .next (s.homeWriteback m.key m.d)
    else if m.stale then .next (s.updRegion r (fun q => q.count 0x20028 63 0 1))
    else if (s.region r).declines m.key then .next (s.updRegion r (fun q => q.count 0x20020 63 0 1))
    else .next ((s.updRegion r (fun q => q.count 0x20018 63 0 1)).rcInstall m.key false m.d)

/-! ## Host snoops (R249, R250) -/

/-- A transit entry of a host line: an eviction the host has not completed. -/
def Cluster.hostTransit (k : Cluster) (key : Nat) : Bool := k.hamper.any (fun e => e.key == key && e.kind != .victim)

/-- The answers to an H2D snoop: RspIHitI, RspIHitSE, RspSHitSE, RspIFwdM, RspSFwdM, RspVHitV, RspVFwdV (log 22). -/
def rspCode (code : Nat) : List Byte := [BitVec.ofNat 8 code]

/-- R249: the copies of a host line that stay are shared. -/
def State.shareHost (s : State) (key : Nat) : State :=
  s.mapClusters (fun _ k => { (k.downgrade key) with
    l2 := k.l2.map (fun l => if l.key == key then { l with st := .s } else l),
    evWait := k.evWait.map (fun l => if l.key == key then { l with st := .s } else l) })

/-- R249: what the package's copies answer to a snoop that the tracker knows. -/
def State.snpHeld (s : State) (key : Nat) (want : HostSnp) : State :=
  match s.dirtyData key, want with
  | some d, .inv => { (s.homeWriteback key d).hostFlush key with answer := rspCode 3 ++ leBytes 64 d.data.toNat }
  | some d, .data => { (s.homeWriteback key d).shareHost key with answer := rspCode 4 ++ leBytes 64 d.data.toNat }
  | some d, .cur => { s with answer := rspCode 7 ++ leBytes 64 d.data.toNat }
  | none, .inv => { s.hostFlush key with answer := rspCode 1 }
  | none, .data => { s.mapClusters (fun _ k => k.downgrade key) with answer := rspCode 2 }
  | none, .cur => { s with answer := rspCode 6 }

/-- R250: the transit entries of a host line that a snoop meets are cleared, and each counts; the data of an eviction still reach the
host. -/
def State.snpTransit (s : State) (key : Nat) : State :=
  (s.landMoves key).mapClusters (fun _ k =>
    if k.hostTransit key then ({ k with hamper := k.hamper.filter (fun e => !(e.key == key && e.kind != .victim)) } : Cluster).count 0x40 63 0 1 else k)

/-- R249, R250: an H2D snoop. One that meets an eviction that the host has not completed is answered as still holding the line, clean and
without data, unless another copy has become dirty since. -/
def execH2dSnoop (line : BitVec 58) (want : HostSnp) (s : State) : Host.Outcome State Fault Refusal :=
  let key := lineKey true line.toNat
  let s := if want == .cur then s else s.waitHold none key
  if (List.finRange 16).any (fun c => (s.cluster c).hostTransit key) then
    let s := s.snpTransit key
    let r := if (s.dirtyData key).isSome then s.snpHeld key want
      else if want == .inv then { s.hostFlush key with answer := rspCode 1 }
      else { (if want == .data then s.mapClusters (fun _ k => k.downgrade key) else s) with answer := rspCode 2 }
    .next ((List.finRange 16).foldl (fun s c => s.evictWaiting c 0) r)
  else if s.heldAnywhere key then .next (s.snpHeld key want)
  else .next { s with answer := rspCode 0 }

/-- R250: the host completes an eviction with GO: a dirty line's data reach host memory, unless a later request has taken them there
(R248), and the transit entry clears. -/
def execHostEvictGo (cl : ClusterId) (line : BitVec 58) (s : State) (waits : Nat := 0) : Host.Outcome State Fault Refusal :=
  let key := lineKey true line.toNat
  match (s.cluster cl).hamper.find? (fun (e : HamE) => e.key == key && e.kind != .victim) with
  | none => .next s
  | some e =>
    let s := if e.kind == HamKind.writeback && e.st.isSome then s.homeWriteback key e.d else s
    .next (((s.updCluster cl (fun k => { k with hamper := k.hamper.erase e })).evictWaiting cl waits).trackerTrim)

/-! ## L1 controls (R238) -/

/-- R238: L1CTL.ICINV. -/
def Core.icinv (k : Core) : Core := ({ k with l1i := [] } : Core).flushQueue
/-- R238: L1CTL.DCINV. -/
def Core.dcinv (k : Core) : Core := ({ k with l1d := [] } : Core).basketKeep (fun _ => false)

def execL1Icinv (c : CoreId) (s : State) : Host.Outcome State Fault Refusal := .next (s.updCore c Core.icinv)
def execL1Dcinv (c : CoreId) (s : State) : Host.Outcome State Fault Refusal := .next (s.updCore c Core.dcinv)

/-- R237: after three misses of one stride the prefetcher fetches up to four lines ahead, within one 32 MiB page. -/
def strideAhead (l : List Nat) : List Nat :=
  match l.reverse with
  | a :: b :: c :: _ =>
    let d : Int := (a : Int) - b
    if d = (b : Int) - c ∧ d ≠ 0 ∧ d.natAbs ≤ 4096 then
      (([1, 2, 3, 4] : List Int).map (fun i => (a : Int) + i * d)).filterMap (fun x =>
        if 0 ≤ x ∧ x.toNat / 2 ^ 25 = a / 2 ^ 25 then some x.toNat else none)
    else []
  | _ => []

def execStridePrefetchFill (c : CoreId) (s : State) : Host.Outcome State Fault Refusal :=
  let k := s.core c
  if k.fld 0x1B00 2 2 = 0 then .next s
  else
    let s := (strideAhead k.stride).foldl (fun s a =>
      if 2 ^ 64 ≤ a || paKind a == .dev then s.prefetchLine c k.strideCtx (a / 64) else s) s
    .next (s.updCore c (fun k => { k with stride := [] }))

end Sys2Proof.Machine
end

