-- ==== Sys2Proof/Machine/Translate.lean ====
section
/-! DEFINITION. Address translation (chapter 09): the page walk, the translation buffer and walk cache, invalidation, and the
window table that serves other packages. -/

namespace Sys2Proof.Machine

/-! ## Contexts and page tables (R213 to R218) -/

def ctxOff (n : BitVec 4) : Nat := 0x500000 + 8 * n.toNat
def State.ctxEn (s : State) (n : BitVec 4) : Bool := s.pkgFld (ctxOff n) 0 0 = 1
def State.ctxHost (s : State) (n : BitVec 4) : Bool := s.pkgFld (ctxOff n) 1 1 = 1
def State.ctxRoot (s : State) (n : BitVec 4) : Nat := s.pkgFld (ctxOff n) 47 16 * 65536
def State.winCtx (s : State) (n : BitVec 4) : Bool := ((s.die 0).reg 0x500080).getLsbD n.toNat

/-- R215: the page size of a level, as a power of two; and the index bits of a level. -/
def lvShift (lv : Nat) : Nat := if lv = 0 then 35 else if lv = 1 then 30 else 25
def lvBits (lv : Nat) : Nat := if lv = 0 then 13 else 5

/-- R216: reserved bits of an entry, LEAF = 0 at level 2 among them. -/
def entryBad (e lv : Nat) : Bool :=
  bitsOf e 7 6 != 0 || bitsOf e 63 56 != 0 ||
    (if e.testBit 1 then !e.testBit 5 && bitsOf e 55 48 != 0 else bitsOf e 5 2 != 0 || lv == 2)

/-- R216: the address field. -/
def entryAddr (e : Nat) : Nat := bitsOf e 55 8 * 256

/-- What a walk finds: a fault, or a leaf at a level with the tables it passed. -/
structure WalkRes where
  fault : Option (BitVec 16)
  leaf  : TlbE
  ptrs  : List WalkC
deriving DecidableEq, Repr

def noLeaf : TlbE := ⟨0, 25, 0, 0, false, false, false, false⟩

/-- R218: the walk from a table at a level; rd reads 8 bytes and tells of poison. -/
def walkFrom (rd : Nat → Nat × Bool) (ctx : BitVec 4) (va : Nat) : Nat → Nat → Nat → WalkRes
  | 0, _, _ => ⟨some 0x7023, noLeaf, []⟩
  | n + 1, lv, tbl =>
    let (e, bad) := rd (tbl + 8 * (va / 2 ^ lvShift lv % 2 ^ lvBits lv))
    let a := entryAddr e
    if bad then ⟨some 0x7024, noLeaf, []⟩
    else if !e.testBit 0 then ⟨some 0x7020, noLeaf, []⟩
    else if entryBad e lv then ⟨some 0x7023, noLeaf, []⟩
    else if !e.testBit 1 then
      if paKind a != .dev then ⟨some 0x7023, noLeaf, []⟩
      else
        let r := walkFrom rd ctx va n (lv + 1) a
        { r with ptrs := { ctx := ctx, lv := lv + 1, vpn := va / 2 ^ lvShift lv, tbl := a } :: r.ptrs }
    else if a % 2 ^ lvShift lv ≠ 0 then ⟨some 0x7023, noLeaf, []⟩
    else ⟨none, { ctx := ctx, sh := lvShift lv, vpn := va / 2 ^ lvShift lv, base := a, w := e.testBit 2, x := e.testBit 3,
                  nc := e.testBit 4, host := e.testBit 5 }, []⟩

/-- R217: a walk read takes the line's current value and carries no context. -/
def State.walkRead (s : State) (a : Nat) : Nat × Bool := let r := s.peek false a 8; (leNat r.1, r.2)

/-- R219: the deepest pointer that the walk cache holds for an address. -/
def Core.walkStart (k : Core) (ctx : BitVec 4) (va : Nat) : Option WalkC :=
  match k.walkCache.find? (fun w => w.ctx == ctx && w.lv == 2 && w.vpn == va / 2 ^ 30) with
  | some w => some w
  | none => k.walkCache.find? (fun w => w.ctx == ctx && w.lv == 1 && w.vpn == va / 2 ^ 35)

/-- R218, R219: the walk of core c's unit. -/
def State.walk (s : State) (c : CoreId) (ctx : BitVec 4) (va : Nat) : WalkRes :=
  match (s.core c).walkStart ctx va with
  | some w => walkFrom s.walkRead ctx va 3 w.lv w.tbl
  | none => if paKind (s.ctxRoot ctx) != .dev then ⟨some 0x7023, noLeaf, []⟩ else walkFrom s.walkRead ctx va 3 0 (s.ctxRoot ctx)

def Core.tlbFind (k : Core) (ctx : BitVec 4) (va : Nat) : Option TlbE :=
  k.tlb.find? (fun e => e.ctx == ctx && e.vpn == va / 2 ^ e.sh)

/-- The buffer's entry for the page of a leaf. -/
def sameLeaf (x y : TlbE) : Bool := x.ctx == y.ctx && x.sh == y.sh && x.vpn == y.vpn

/-- R219: the buffer and the walk cache take what a walk found, first in first out (log 13). A page has one entry. -/
def Core.tlbInstall (k : Core) (r : WalkRes) : Core :=
  let old := k.tlb.filter (fun e => !sameLeaf e r.leaf)
  let t := if old.length < Config.tlbEntries then old else old.drop 1
  let new := r.ptrs.filter (fun p => !k.walkCache.contains p)
  let w := k.walkCache ++ new
  { k with tlb := t ++ [r.leaf], walkCache := w.drop (w.length - Config.walkCacheEntries) }

/-- R18, R21: offsets of a die's on-chip window at which no block lies. -/
def winHole (d : DieId) (off : Nat) : Bool :=
  if off < 0x10000000 then decide (0x600000 ≤ off % 0x800000)
  else decide (0x14800000 ≤ off) || (d == 1 && decide (0x13000000 ≤ off) && decide (off < 0x13800000))

/-- R18: a reserved physical address. -/
def paReserved (pa : Nat) : Bool := match paKind pa with | .reserved => true | .win d off => winHole d off | _ => false

/-- R218: what an access may do with a leaf; the first fault, in the order of the function. -/
def State.leafFault (s : State) (ctx : BitVec 4) (acc : Acc) (l : TlbE) (pa : Nat) : Option (BitVec 16) :=
  let write := acc == .store || acc == .accum
  let inWin := match paKind pa with | .win _ _ => true | _ => false
  firstFault [(write && !l.w, 0x7021), (acc == .fetch && (!l.x || l.host || decide (2 ^ 47 ≤ l.base)), 0x7022),
    (l.host && !s.ctxHost ctx, 0x7025), (!l.host && paReserved pa, 0x7011),
    (!l.host && inWin && !s.winCtx ctx, 0x7026)]

/-- Where an address translates to. -/
structure Xlate where
  pa   : Nat
  host : Bool
  nc   : Bool
deriving DecidableEq, Repr

/-- The outcome of a translation: a fault code, or an address with the walk that found it (none: a buffer hit). -/
inductive XOut where
  | fault (code : BitVec 16)
  | ok (x : Xlate) (w : Option WalkRes)
deriving DecidableEq, Repr

/-- R218 with R219: translate one address for core c. -/
def State.translate (s : State) (c : CoreId) (ctx : BitVec 4) (va : Nat) (acc : Acc) : XOut :=
  if 2 ^ 48 ≤ va then .fault 0x7010
  else if !s.ctxEn ctx then .fault 0x7030
  else
    let done (l : TlbE) (w : Option WalkRes) : XOut :=
      let pa := l.base + va % 2 ^ l.sh
      match s.leafFault ctx acc l pa with
      | some f => .fault f
      | none =>
        let win := match paKind pa with | .dev => false | _ => true
        .ok { pa := pa, host := l.host, nc := l.nc || (!l.host && win) } w
    match (s.core c).tlbFind ctx va with
    | some l => done l none
    | none =>
      let r := s.walk c ctx va
      match r.fault with
      | some f => .fault f
      | none => done r.leaf (some r)

def samePage (w : Walk) (ctx : BitVec 4) (va : W64) : Bool := w.ctx == ctx && w.va.toNat / 2 ^ 25 == va.toNat / 2 ^ 25

/-- R219: an access has missed the buffer. It takes the walk in progress for its page, which counted its miss, else one of its own. -/
def Core.missed (k : Core) (mine : Walk → Bool) : Core :=
  if k.walks.any mine then { k with walks := k.walks.filter (fun w => !mine w) } else k.count 0x1A08 63 0 1

/-- R219: the unit keeps what the translation walked for, and counts the miss; the second of two walks of one access for one page is
a hit. -/
def State.noteWalk (s : State) (c : CoreId) (w : Option WalkRes) : State :=
  match w with
  | some r =>
    s.updCore c (fun k =>
      if k.tlb.any (fun e => sameLeaf e r.leaf) then k
      else (k.missed (fun w => w.ctx == r.leaf.ctx && w.va.toNat / 2 ^ r.leaf.sh == r.leaf.vpn)).tlbInstall r)
  | none => s

/-- R221, R231: a translation fault that the unit raises for an access. A miss counts where the buffer was looked up; the leaf of a
walk that refuses only the access stays. -/
def State.noteXFault (s : State) (c : CoreId) (ctx : BitVec 4) (va : Nat) : State :=
  let s := s.updCore c (fun k => k.count 0x1A18 63 0 1)
  if 2 ^ 48 ≤ va || !s.ctxEn ctx || ((s.core c).tlbFind ctx va).isSome then s
  else
    let r := s.walk c ctx va
    if r.fault.isNone then s.noteWalk c (some r) else s.updCore c (fun k => k.missed (fun w => samePage w ctx (BitVec.ofNat 64 va)))

/-! ## Walks as events (R219) -/

def execTranslationWalk (c : CoreId) (ctx : BitVec 4) (va : W64) (acc : Acc) (s : State) : Host.Outcome State Fault Refusal :=
  let k := s.core c
  if 2 ^ 48 ≤ va.toNat || !s.ctxEn ctx || (k.tlbFind ctx va.toNat).isSome || k.walks.any (fun w => samePage w ctx va) then .next s
  else .next (s.updCore c (fun k => ({ k with walks := k.walks ++ [{ ctx := ctx, va := va, acc := acc, stale := false }] } : Core).count 0x1A08 63 0 1))

/-- R219: walk i, one of the first four, ends after waitCycles F-cycles: made again when an invalidation matched it. -/
def execWalkComplete (c : CoreId) (i : Nat) (waitCycles : Nat) (s : State) : Host.Outcome State Fault Refusal :=
  match (s.core c).walks[i]? with
  | none => .next s
  | some w =>
    if 4 ≤ i then .next s
    else
      let s := s.updCore c (fun k => k.count 0x1A10 63 0 waitCycles)
      if w.stale then .next (s.updCore c (fun k => { k with walks := listUpd (fun x => { x with stale := false }) k.walks i }))
      else
        let r := s.walk c w.ctx w.va.toNat
        let s := s.updCore c (fun k => { k with walks := k.walks.eraseIdx i })
        match r.fault with
        | some _ => .next (s.updCore c (fun k => k.count 0x1A18 63 0 1))
        | none =>
          match s.leafFault w.ctx w.acc r.leaf (r.leaf.base + w.va.toNat % 2 ^ r.leaf.sh) with
          | some _ => .next (s.updCore c (fun k => (k.tlbInstall r).count 0x1A18 63 0 1))
          | none => .next (s.updCore c (fun k => k.tlbInstall r))

/-! ## Invalidation (R222 to R227) -/

/-- Fields of an invalidation request (R222). -/
def invVpn (v : W64) : Nat := bitsOf v.toNat 22 0
def invCtx (v : W64) : BitVec 4 := BitVec.ofNat 4 (bitsOf v.toNat 27 24)
def invAllCtx (v : W64) : Bool := v.getLsbD 28
def invAllVa (v : W64) : Bool := v.getLsbD 29
def invCount (v : W64) : Nat := bitsOf v.toNat 47 32 + 1
def invSeq (v : W64) : Nat := bitsOf v.toNat 63 48
def invBad (v : W64) : Bool := v.getLsbD 23 || v.getLsbD 30 || v.getLsbD 31

/-- A context and n bytes from address a (both in units of the whole space) meet a request's range. -/
def invHits (v : W64) (ctx : BitVec 4) (a n : Nat) : Bool :=
  (invAllCtx v || ctx == invCtx v) &&
    (invAllVa v || (decide (a < (invVpn v + invCount v) * 2 ^ 25) && decide (invVpn v * 2 ^ 25 < a + n)))

/-- The mark of a request from the doorbell, or from TRINV. -/
def invBit (doorbell : Bool) : BitVec 2 := if doorbell then 1 else 2

/-- R223 steps 1 and 2: a unit drops what the range meets; walks in progress there install nothing; requests already translated
are waited for (step 3). -/
def Core.invReceive (k : Core) (v : W64) (doorbell : Bool) : Core :=
  let bit := invBit doorbell
  { k with
    tlb := k.tlb.filter (fun e => !(invHits v e.ctx (e.vpn * 2 ^ e.sh) (2 ^ e.sh))),
    walkCache := k.walkCache.filter (fun w => !(invHits v w.ctx (w.vpn * 2 ^ lvShift (w.lv - 1)) (2 ^ lvShift (w.lv - 1)))),
    walks := k.walks.map (fun w => if invHits v w.ctx w.va.toNat 1 then { w with stale := true } else w),
    lateLoads := k.lateLoads.map (fun l => if invHits v l.ctx l.va.toNat l.size then { l with inv := l.inv ||| bit } else l),
    storeBuf := k.storeBuf.map (fun e => if invHits v e.ctx e.va.toNat e.bytes.length then { e with inv := e.inv ||| bit } else e),
    txReqs := k.txReqs.map (fun q => if q.vas.any (fun x => invHits v x.1 x.2 1) then { q with inv := q.inv ||| bit } else q),
    invPend := k.invPend ++ [{ req := v, doorbell := doorbell }] }

/-- R223: a unit receives a request; its stores on their way to other packages are old requests too. -/
def State.invReceive (s : State) (c : CoreId) (v : W64) (doorbell : Bool) : State :=
  let old (x : Sent) : Sent := match x.who with
    | .store d ctx va n inv => if d == c && invHits v ctx va n then { x with who := .store d ctx va n (inv ||| invBit doorbell) } else x
    | _ => x
  { (s.updCore c (fun k => k.invReceive v doorbell)) with sendChs := s.sendChs.map (fun (ch : SendCh) => { ch with unacked := ch.unacked.map old }) }

/-- R223 step 3: every old translated request that a request of a kind waits for has completed. -/
def Core.invClear (k : Core) (doorbell : Bool) : Bool :=
  let waits (b : BitVec 2) : Bool := (b &&& invBit doorbell) != 0
  !(k.lateLoads.any (fun l => waits l.inv)) && !(k.storeBuf.any (fun e => waits e.inv)) && !(k.txReqs.any (fun q => waits q.inv))

def State.invClear (s : State) (c : CoreId) (doorbell : Bool) : Bool :=
  (s.core c).invClear doorbell && !(s.sendChs.any (fun ch => ch.unacked.any (fun x => match x.who with
    | .store d _ _ _ inv => d == c && (inv &&& invBit doorbell) != 0
    | _ => false)))

/-- R222: a write to INV.DB. -/
def State.invDoorbell (s : State) (v : W64) : State :=
  if invBad v || decide (16 ≤ s.invQ.length) then
    ((s.setPkgFld 0x500108 8 8 1).pkgCount 0x500120 15 0 1).dieReport 0 0x7051 true 0
  else { s with invQ := s.invQ ++ [v] }

def execInvDbWrite (v : W64) (s : State) : Host.Outcome State Fault Refusal := .next (s.invDoorbell v)

/-- R232: INV.STAT.BCAST: the broadcast path is usable. -/
def State.bcastOn (s : State) : Bool := s.pkgFld 0x500108 9 9 = 1

/-- R223, R224: the head request is broadcast, while the path is usable. -/
def execInvBroadcast (s : State) : Host.Outcome State Fault Refusal :=
  .next (if s.invQ.isEmpty || s.invRun || !s.bcastOn then s else { s with invRun := true, invGot := 0, invAck := 0, invTimed := false })

/-- R223: unit c receives the broadcast; a core in reset takes it when its reset ends. -/
def execInvUnitReceipt (c : CoreId) (s : State) : Host.Outcome State Fault Refusal :=
  match s.invQ with
  | [] => .next s
  | v :: _ =>
    if !s.invRun || s.invGot.getLsbD c.val || (s.core c).run == .inReset then .next s
    else .next ({ s with invGot := s.invGot ||| BitVec.ofNat 64 (2 ^ c.val) }.invReceive c v true)

/-- R223: INV.DONE takes the request's SEQ when all 64 units have acknowledged. -/
def execInvDone (s : State) : Host.Outcome State Fault Refusal :=
  match s.invQ with
  | [] => .next s
  | v :: r => .next (if s.invRun && s.invAck == BitVec.allOnes 64 then { (s.setPkgFld 0x500110 15 0 (invSeq v)) with invQ := r, invRun := false } else s)

/-- R226. -/
def execInvTimeout (s : State) : Host.Outcome State Fault Refusal :=
  .next (if s.invRun && !s.invTimed && s.invAck != BitVec.allOnes 64 && s.pkgFld 0x500118 15 0 != 0 then
    ({ s with invTimed := true }.pkgCount 0x500120 31 16 1).dieReport 0 0x7050 true 0 (BitVec.ofNat 128 (~~~s.invAck).toNat) else s)

/-- R7: a rejected write that TR.CNT counts. -/
def State.trReject (s : State) (off : Nat) : State :=
  let s := s.pkgCount 0x500128 15 0 1
  if s.pkgFld 0x500128 32 32 = 1 then s.dieReport 0 0xB042 true (BitVec.ofNat 64 off) else s

/-- R7, R231: a write to TRINV that Cretas did not make counts in TR.CNT, and its event names the core. -/
def State.trinvReject (s : State) (c : CoreId) : State :=
  let s := s.pkgCount 0x500128 15 0 1
  if s.pkgFld 0x500128 32 32 = 1 then s.coreReport c 0xB042 true 0x1A20 else s

/-- R227, R231: a write to TRINV: by Cretas it starts an invalidation, by any other it is ignored and counted. -/
def State.trinv (s : State) (w : Writer) (c : CoreId) (v : W64) : State :=
  if w == .cretas then s.updCore c (fun k => k.setFld 0x1A28 0 0 0) |>.invReceive c v false else s.trinvReject c

/-! INVAL_RANGE (R227): JSlot.stream counts the turns: 2i while unit i's TRINV is to be written, 2i + 1 while its TRINVACK is awaited. -/

def JSlot.invalTurn (x : JSlot) : Option Nat :=
  if x.entry.toNat % 2 ^ 16 == 0x12 && x.started && x.done.isNone && x.record.isNone then x.stream else none

def State.invalStep (s : State) (j n : Nat) : State :=
  { s with journal := s.journal.map (fun (p : Nat × JSlot) => if p.1 = j then (p.1, { p.2 with stream := some n }) else p) }

/-- R227: Cretas writes the next unit's TRINV, one command at a time; a core in reset is written when its reset ends (R223). -/
def State.invalTurn (s : State) : State :=
  let l := s.journal.filterMap (fun p => p.2.invalTurn.map (fun n => (p.1, n, p.2)))
  if l.any (fun p => p.2.1 % 2 == 1) then s
  else match l.find? (fun p => decide (p.2.1 < 128)) with
    | none => s
    | some (j, n, x) =>
      let c : CoreId := Fin.ofNat 64 (n / 2)
      if (s.core c).run == .inReset then s
      else (s.trinv .cretas c (BitVec.ofNat 64 (bitsOf x.entry.toNat 191 128))).invalStep j (n + 1)

/-- R227: unit c has acknowledged its TRINV. -/
def State.invalAck (s : State) (c : CoreId) : State :=
  match s.journal.find? (fun p => p.2.invalTurn == some (2 * c.val + 1)) with
  | some p => (s.invalStep p.1 (2 * c.val + 2)).invalTurn
  | none => s

/-- R223 step 4: what core c's unit has waited for is complete; each kind of request has an acknowledgement of its own. -/
def State.invAcked (s : State) (c : CoreId) (doorbell : Bool) : State :=
  if !(s.core c).invPend.any (fun p => p.doorbell == doorbell) || !s.invClear c doorbell then s
  else
    let s := s.updCore c (fun k => { k with invPend := k.invPend.filter (fun p => p.doorbell != doorbell) })
    if doorbell then { s with invAck := s.invAck ||| BitVec.ofNat 64 (2 ^ c.val) }
    else (s.updCore c (fun k => k.setFld 0x1A28 0 0 1)).invalAck c

/-- R221, R232: a parity error in the acknowledgement tree: fault 0x7052, and the broadcast path is disabled. The acknowledgement is
lost with it (log 105). -/
def State.ackParity (s : State) (c : CoreId) : State :=
  ((s.updCore c (fun k => { k with invPend := k.invPend.filter (fun p => !p.doorbell) })).setPkgFld 0x500108 9 9 0).dieReport 0 0x7052 false 0

/-- R223 step 4; parity: the acknowledgement meets a parity error in its tree. -/
def execInvUnitAck (c : CoreId) (s : State) (parity : Bool := false) : Host.Outcome State Fault Refusal :=
  let due := (s.core c).invPend.any InvReq.doorbell && s.invClear c true
  .next ((if parity && due then s.ackParity c else s.invAcked c true).invAcked c false)

def execTrinvWrite (w : Writer) (c : CoreId) (v : W64) (s : State) : Host.Outcome State Fault Refusal := .next (s.trinv w c v)

/-! ## Windows (R228 to R230) -/

def winOff (w : Nat) : Nat := 0x501000 + 0x20 * w
def State.winFld (s : State) (w hi lo : Nat) : Nat := s.pkgFld (winOff w) hi lo
def State.winOpen (s : State) (w : Nat) : Bool := s.winFld w 0 0 = 1
def State.winSpan (s : State) (w : Nat) : Nat × Nat := (s.winFld w 43 32, s.winFld w 55 44 + 1)
def State.winLocal (s : State) (w : Nat) : Nat := s.pkgFld (winOff w + 8) 39 25

/-- What a remote request does (R228). -/
inductive WinOp where
  | read | write | acc
deriving DecidableEq, Repr

/-- R228: a lookup's answer: the local address with the window's context, or a refusal. -/
inductive WinRes where
  | ok (w : Fin 64) (pa : Nat) (ctx : BitVec 4)
  | refused (w : Option (Fin 64)) (code : BitVec 16)
deriving DecidableEq, Repr

def State.winLookup (s : State) (off : Nat) (src : BitVec 10) (op : WinOp) : WinRes :=
  match (List.finRange 64).find? (fun w => s.winOpen w.val && decide ((s.winSpan w.val).1 * 2 ^ 25 ≤ off) &&
      decide (off < ((s.winSpan w.val).1 + (s.winSpan w.val).2) * 2 ^ 25)) with
  | none => .refused none 0x7040
  | some w =>
    let allowed := match op with | .read => s.winFld w 1 1 | .write => s.winFld w 2 2 | .acc => s.winFld w 3 3
    if (s.winFld w 8 8 = 0 && s.winFld w 25 16 != src.toNat) || allowed = 0 then .refused (some w) 0x7041
    else .ok w (s.winLocal w * 2 ^ 25 + (off - (s.winSpan w).1 * 2 ^ 25)) (BitVec.ofNat 4 (s.winFld w 7 4))

/-- R228: a refusal is counted at its entry, or in TR.CNT.NOWIN. -/
def State.winRefuse (s : State) (w : Option (Fin 64)) : State :=
  match w with
  | some w => s.pkgCount (winOff w.val + 0x10) 31 0 1
  | none => s.pkgCount 0x500128 31 16 1

/-- R229: an entry that a write would open: overlap, or a local range outside the device memory of one die. -/
def State.winOpenBad (s : State) (w : Nat) (offBase len loc : Nat) : Bool :=
  let lap := (List.range 64).any (fun v => v != w && s.winOpen v && decide (offBase < (s.winSpan v).1 + (s.winSpan v).2) &&
    decide ((s.winSpan v).1 < offBase + len))
  let inDie := loc % 2 ^ 14
  lap || decide (Config.dieBytes / 2 ^ 25 < inDie + len)

/-- R230: OPEN = 0 closes an entry at once; its earlier requests may still be landing. -/
def State.winClose (s : State) (w : Fin 64) : State :=
  if s.winOpen w then { (s.setPkgFld (winOff w.val) 0 0 0) with winDrain := s.winDrain ||| BitVec.ofNat 64 (2 ^ w.val) } else s

/-- R230: DRAIN returns to 0 once no request that passed the entry waits at its home. -/
def execWindowDrainEnd (w : Fin 64) (s : State) : Host.Outcome State Fault Refusal :=
  if s.homeWait.any (fun r => match r with | .msg _ _ (some x) => x.w == w | _ => false) then .next s
  else .next { s with winDrain := s.winDrain &&& ~~~(BitVec.ofNat 64 (2 ^ w.val)) }

end Sys2Proof.Machine
end

