-- ==== Sys2Proof/Machine/TxOps.lean ====
section
/-! DEFINITION. The transfer engine (chapter 08): lasts and their checks, stream contexts, halts, resumes and aborts, and the
meanings of tx.last, tx.wait and tx.test. -/

namespace Sys2Proof.Machine

/-! ## The last (R183, R184) -/

/-- Bytes of an element at the destination: the widened words of OP 2 (R281). -/
def Last.dsz (l : Last) : Nat := if l.op = 2 then 4 else l.esz
/-- Elements, and bytes at the source. -/
def Last.count (l : Last) : Nat := l.counts.foldl (· * ·) 1
def Last.total (l : Last) : Nat := l.count * l.esz

/-- R183: the indices of element n in the mixed radix of the counts. -/
def mixedRadix : List Nat → Nat → List Nat
  | [], _ => []
  | c :: r, n => n % max c 1 :: mixedRadix r (n / max c 1)

def Last.idx (l : Last) (n : Nat) : List Nat := mixedRadix l.counts n
def Last.strideAt (l : Last) (n : Nat) : Int := ((l.idx n).zip l.strides).foldl (fun a p => a + p.1 * p.2) 0
/-- R183: where element n lies. -/
def Last.srcAt (l : Last) (n : Nat) : Nat := if l.scatter then l.src + n * l.esz else (l.src + l.strideAt n).toNat
def Last.dstAt (l : Last) (n : Nat) : Nat := if l.scatter then (l.dst + l.strideAt n).toNat else l.dst + n * l.dsz

/-- R184: the span of one side. -/
def Last.span (l : Last) (addr : Nat) (strided : Bool) (sz : Nat) : Int × Int :=
  if strided then
    (l.counts.zip l.strides).foldl (fun a p => (a.1 + min 0 ((p.1 - 1 : Int) * p.2), a.2 + max 0 ((p.1 - 1 : Int) * p.2))) ((addr : Int), (addr + sz : Int))
  else (addr, addr + l.count * sz)

/-- R184: the fields that make a last malformed; srcOk and dstOk say which spaces the command allows. -/
def lastBad (off x : Nat) (srcOk dstOk : Nat → Bool) : Bool :=
  let nd := bitsOf x 5 3 + 1
  let op := bitsOf x 13 12
  let ez := bitsOf x 2 0
  let dim (d : Nat) : Nat := bitsOf x (64 * (4 + d) + 63) (64 * (4 + d))
  off % 32 != 0 || decide (4 < ez) || decide (5 < nd) || bitsOf x 31 24 != 0 || bitsOf x 63 48 != 0 || bitsOf x 255 215 != 0 ||
    x >>> 576 != 0 || (List.range 5).any (fun d => if d < nd then dim d % 2 ^ 32 == 0 else dim d != 0) ||
    !srcOk (bitsOf x 9 8) || !dstOk (bitsOf x 11 10) || (op != 0 && bitsOf x 11 10 != 0) || ((op == 1 || op == 3) && ez != 2) ||
    (op == 2 && ez != 1) || bitsOf x 214 192 % 64 != 0

/-- R183: the fields of a last, with the contexts of its two capabilities. -/
def lastOf (k : Core) (off x : Nat) : Last :=
  let nd := min 5 (bitsOf x 5 3 + 1)
  let dim (d : Nat) : Nat := bitsOf x (64 * (4 + d) + 63) (64 * (4 + d))
  { off := off, esz := 2 ^ bitsOf x 2 0, counts := (List.range nd).map (fun d => dim d % 2 ^ 32),
    strides := (List.range nd).map (fun d => (BitVec.ofNat 32 (dim d >>> 32)).toInt), scatter := x.testBit 6, irq := x.testBit 7,
    bulk := x.testBit 14, prio := x.testBit 15, srcSp := bitsOf x 9 8, dstSp := bitsOf x 11 10, op := bitsOf x 13 12,
    tag := BitVec.ofNat 16 (bitsOf x 47 32), src := bitsOf x 127 64, dst := bitsOf x 191 128, resume := bitsOf x 214 192,
    sctx := (k.getC (BitVec.ofNat 4 (bitsOf x 19 16))).ctx, dctx := (k.getC (BitVec.ofNat 4 (bitsOf x 23 20))).ctx }

/-- R184, R160, R161: a capability allows a span in a space. -/
def xferAllows (m : Cap) (p sp : Nat) (span : Int × Int) : Bool :=
  m.tile == (sp == 1) && decide (0 ≤ span.1) && m.allows [pXFER, p] span.1.toNat (span.2 - span.1).toNat &&
    (sp != 1 || decide (span.2 ≤ Config.tileBytes))

/-- R184: the checks of a last at offset off under cM: a fault and its address, or the captured last. -/
def checkLast (k : Core) (cm : Cap) (off : Nat) (srcOk dstOk : Nat → Bool) : Except (BitVec 16 × Nat) Last :=
  let x := k.tileNat off 96
  let l := lastOf k off x
  let ss := l.span l.src (!l.scatter) l.esz
  let ds := l.span l.dst l.scatter l.dsz
  if off % 32 ≠ 0 then .error (0x6010, off)
  else if !tileSpanOk cm pLD off 96 then .error (0x6011, off)
  else if lastBad off x srcOk dstOk then .error (0x6010, off)
  else if l.srcSp ≠ 2 && !xferAllows (k.getC (BitVec.ofNat 4 (bitsOf x 19 16))) pLD l.srcSp ss then .error (0x6011, ss.1.toNat)
  else if l.dstSp ≠ 2 && !xferAllows (k.getC (BitVec.ofNat 4 (bitsOf x 23 20))) pST l.dstSp ds then .error (0x6011, ds.1.toNat)
  else if !tileSpanOk cm pST l.resume 64 then .error (0x6011, l.resume)
  else .ok l

/-! ## Stream contexts (R189) -/

def Core.ctxFree (k : Core) (i : Nat) : Bool := match k.stream i with | some x => x.free | none => true
def Core.freeCtxs (k : Core) : List Nat := (List.range 16).filter k.ctxFree

/-- Start a stream in a context. -/
def Core.openStream (k : Core) (i : Nat) (x : Stream) : Core := { (k.setStream i { x with gen := k.txGen }) with txGen := k.txGen + 1 }

def covered (l : List (Nat × Nat)) (lo hi : Nat) : Bool := decide (hi ≤ lo) || l.any (fun p => decide (p.1 ≤ lo) && decide (hi ≤ p.2))

/-- R200: elements wholly delivered. -/
def Stream.delivered (x : Stream) : Nat :=
  match x.last with
  | some l => x.landed.foldl (fun n p => n + (p.2 / l.esz - (p.1 + l.esz - 1) / l.esz)) 0
  | none => 0

def Stream.total (x : Stream) : Nat := match x.last with | some l => l.total | none => 0

/-- Requests of a stream that have not completed. -/
def Core.outstanding (k : Core) (gen : Nat) : Bool := k.txReqs.any (fun q => q.gen == gen)

/-- R178, R179: the darn record of a stream at element n. -/
def Stream.darn (x : Stream) (c : CoreId) (flags : Nat) (code : BitVec 16) (prog n : Nat) : List Byte :=
  match x.last with
  | none => List.replicate 64 0
  | some l =>
    let idx := l.idx n
    [4, BitVec.ofNat 8 flags] ++ leBytes 2 code.toNat ++ leBytes 4 x.syl.toNat ++ leBytes 4 0 ++
      [BitVec.ofNat 8 (if l.srcSp = 0 then l.sctx.toNat else l.dctx.toNat), BitVec.ofNat 8 (coreLocal c), 0, 0] ++ leBytes 8 prog ++
      leBytes 8 x.va.toNat ++ leBytes 4 l.off ++ [BitVec.ofNat 8 ((x.parent.map Prod.snd).getD 0), BitVec.ofNat 8 l.counts.length, 0, 0] ++
      ((List.range 5).flatMap (fun d => leBytes 4 (idx.getD d 0))) ++ List.replicate 4 0

/-- The report of a stream: TAG, the stream number and the offset of its record (R346); a fault record raises FAULTREC (R167). -/
def State.streamReport (s : State) (c : CoreId) (i : Nat) (x : Stream) (code : BitVec 16) (event answer : Bool) (detail : Nat) : State :=
  let s := if event then s else s.updCore c (fun k => k.setFld rEXPEND 4 4 1)
  s.post { code := code, event := event, answer := answer, level := 0, num := c.val, die := c.val / 32, addr := x.va,
           tag := match x.last, x.fused with | some l, _ => l.tag | none, some u => u.tag | none, none => 0,
           slot := BitVec.ofNat 8 i, off := BitVec.ofNat 32 ((x.last.map Last.resume).getD 0), detail := BitVec.ofNat 128 detail }

/-- R198 step 1: request issue fails translation at byte p of the source. -/
def Core.haltStream (k : Core) (i : Nat) (code : BitVec 16) (va p : Nat) : Core :=
  k.updStream i (fun x => { x with st := .halting, code := code, va := BitVec.ofNat 64 va, pos := p, issued := p })

/-- R200: a stream aborts: its record, fault record 0x6020 with the cause in its detail, and the abort of its stage. resumed says
that the record of a halt stands already. -/
def State.abortStream (s : State) (c : CoreId) (i : Nat) (cause : BitVec 16) (va : Nat) (p : Nat) (halted : Bool) : State :=
  match (s.core c).stream i with
  | none => s
  | some x0 =>
    if x0.st == .aborting || x0.st == .ended then s
    else
      let x : Stream := { x0 with st := .aborting, aborted := true, code := cause, va := BitVec.ofNat 64 va, pos := p }
      let n := match x.last with | some l => p / l.esz | none => 0
      let s := s.updCore c (fun k =>
        let k := k.setStream i x
        let k := match x.last with
          | some l => k.tileWrite l.resume (x.darn c (if halted then 7 else 5) cause x.delivered n)
          | none => k
        let k := match x.parent with
          | some (u, g) => k.updStage u g (fun z => { z with aborted := true })
          | none => k
        k.count 0x1918 31 16 1)
      s.streamReport c i x 0x6020 false false cause.toNat

/-! ## Tags (R185, R188) -/

/-- The lowest free tag. -/
def Core.freeTag (k : Core) : Option Nat := (List.range Config.txTags).find? (fun t => !k.txReqs.any (fun q => q.tag == t))

/-- R188: a stream may take one more tag; the bulk class holds TXCTL.BULKTAGS at most. -/
def Core.tagFor (k : Core) (bulk : Bool) : Option Nat :=
  if bulk && decide (k.fld 0x1908 9 0 ≤ (k.txReqs.filter TxReq.bulk).length) then none else k.freeTag

/-! ## tx.last, tx.wait, tx.test (R184, R189) -/

def mTxLast (c : CoreId) (gD : GReg) (cM : CReg) (gA : GReg) (s : State) : Issue :=
  let k := s.core c
  match checkLast k (k.getC cM) (k.getG gA).toNat (fun x => decide (x < 2)) (fun x => decide (x < 2)) with
  | .error (code, a) => .fault code (BitVec.ofNat 64 a)
  | .ok l =>
    match k.freeCtxs with
    | [] => .hold .txFull
    | i :: _ => goCore c (fun k => (k.openStream i { gen := 0, last := some l, limit := l.total }).setG gD (BitVec.ofNat 64 i))

/-- R189: the number of a stream is the low four bits of gA (DESIGN CHOICE, log 48). -/
def streamNo (v : W64) : Nat := v.toNat % 16

/-- R189: tx.wait or tx.test has returned the end of stream i; the contexts of its stages are free with it. -/
def Core.collect (k : Core) (i : Nat) : Core :=
  let k := k.updStream i (fun x => { x with free := true })
  (List.range 16).foldl (fun k j => k.updStream j (fun x => match x.parent with
    | some (u, _) => if u = i then { x with free := true } else x
    | none => x)) k

def Stream.result (x : Stream) : W64 := if x.aborted then 1 else 0

def mTxWait (c : CoreId) (gD gA : GReg) (s : State) : Issue :=
  let k := s.core c
  let i := streamNo (k.getG gA)
  match k.stream i with
  | none => goCore c (fun k => k.setG gD 0)
  | some x => if x.st == .ended then goCore c (fun k => (k.collect i).setG gD x.result) else .hold .txWait

def mTxTest (c : CoreId) (gD gA : GReg) (s : State) : Issue :=
  let k := s.core c
  let i := streamNo (k.getG gA)
  match k.stream i with
  | none => goCore c (fun k => k.setG gD 0)
  | some x =>
    match x.st with
    | .ended => goCore c (fun k => (k.collect i).setG gD x.result)
    | .halted => goCore c (fun k => k.setG gD 3)
    | _ => goCore c (fun k => k.setG gD 2)

/-- R209: CORE.TXSTAT. -/
def Core.txStat (k : Core) : Nat :=
  let held := (List.range 16).any (fun i => match k.stream i with | some x => x.st == .halting && x.wrote | none => false)
  let busy := (List.range 16).foldl (fun n i => match k.stream i with | some x => if x.st == .ended then n else n + 2 ^ i | none => n) 0
  held.toNat * 2 ^ 26 + k.txReqs.length * 2 ^ 16 + busy

end Sys2Proof.Machine
end

