-- ==== Sys2Proof/Machine/Fused.lean ====
section
/-! DEFINITION. Fused commands (R190 to R197): the check of a command, its stages and edges at work, the spill ring, and the
meanings of tx.fuse, tx.stw and tx.stp with the sequencer's events. -/

namespace Sys2Proof.Machine

/-! ## The command (R190, R192) -/

/-- Byte i and the n bytes from it of the 576 bytes of a command. -/
def cmdAt (x i n : Nat) : Nat := bitsOf x (8 * (i + n) - 1) (8 * i)

def kindOf (n : Nat) : Option StageKind :=
  match n with
  | 1 => some .load | 2 => some .store | 3 => some .cvt | 4 => some .mx | 5 => some .prog | _ => none

/-- Fields of the 48 bytes that a stage's kind gives (R190); offsets count from byte 16 of the stage. -/
def StageS.fld (z : StageS) (i n : Nat) : Nat := bitsOf z.body.toNat (8 * (i - 16 + n) - 1) (8 * (i - 16))
def StageS.lastOff (z : StageS) : Nat := z.fld 16 3 % 2 ^ 23
def StageS.mask (z : StageS) : BitVec 4 := BitVec.ofNat 4 (z.fld 16 1)
def StageS.nacc (z : StageS) : Nat := z.fld 28 2
def StageS.elems (z : StageS) : Nat := z.fld 20 4
def StageS.rate (z : StageS) (p : Nat) : Nat := z.inRate.getD p 0

def stageAt (k : Core) (x i : Nat) : Option StageS :=
  let b := 64 + 64 * i
  (kindOf (cmdAt x b 1)).map (fun kind =>
    let body := BitVec.ofNat 384 (cmdAt x (b + 16) 48)
    let z : StageS := { kind := kind, outRate := cmdAt x (b + 1) 1, inRate := (List.range 4).map (fun p => cmdAt x (b + 2 + p) 1),
                        firings := cmdAt x (b + 8) 8, body := body }
    if kind = .mx then
      { z with tdesc := BitVec.ofNat 256 (k.tileNat (z.fld 17 3) 32), adesc := some (opDescOf (k.tileNat (z.fld 20 3) 32)),
               bdesc := some (opDescOf (k.tileNat (z.fld 24 3) 32)) }
    else z)

def edgeAt (x i : Nat) : EdgeS :=
  let b := 448 + 16 * i
  { prod := cmdAt x b 1 % 8, cons := cmdAt x (b + 1) 1 % 8, port := cmdAt x (b + 1) 1 / 8 % 4, spill := (cmdAt x (b + 1) 1).testBit 5,
    slots := cmdAt x (b + 2) 1, size := 64 * cmdAt x (b + 4) 2, base := cmdAt x (b + 8) 3 }

/-- Ordinary slots of an edge, the offset of one, and of the escape slot (R193). -/
def EdgeS.ord (e : EdgeS) : Nat := e.slots - 1
def EdgeS.slotAt (e : EdgeS) (i : Nat) : Nat := e.base + e.size * ((e.rd + i) % max e.ord 1)
def EdgeS.escape (e : EdgeS) : Nat := e.base + e.size * e.ord
def EdgeS.used (e : EdgeS) : Nat := e.taken + e.full + e.resv
def EdgeS.bytes (e : EdgeS) : Nat := e.size * e.slots

/-- Reserved fields of an edge entry, and fields out of range. -/
def edgeBad (x i nstage : Nat) : Bool :=
  let b := 448 + 16 * i
  let e := edgeAt x i
  cmdAt x b 1 / 8 != 0 || cmdAt x (b + 1) 1 / 64 != 0 || cmdAt x (b + 3) 1 != 0 || cmdAt x (b + 6) 2 != 0 || cmdAt x (b + 11) 5 != 0 ||
    decide (e.slots < 3) || decide (64 < e.slots) || e.size == 0 || decide (65536 < e.size) || e.base % 64 != 0 || decide (2 ^ 23 ≤ e.base) ||
    decide (nstage ≤ e.prod) || decide (nstage ≤ e.cons)

/-- Bytes of an item of n elements in a format, with its block scales (R190). -/
def itemSize (code : BitVec 4) (n : Nat) : Nat := ceilDiv (n * fmtWidth code) 8 + (if isMx code then ceilDiv n 32 else 0)

/-- R190, R192, R196: a stage entry that is malformed. Where the spec's list is silent, the reading of log 46 applies. -/
def stageBad (k : Core) (x i : Nat) (edges : List EdgeS) : Bool :=
  let b := 64 + 64 * i
  match stageAt k x i with
  | none => true
  | some z =>
    let inp (p : Nat) := edges.find? (fun e => e.cons == i && e.port == p)
    let out := edges.find? (fun e => e.prod == i)
    let ports := (List.range 4).any (fun p => (z.rate p != 0) != (inp p).isSome)
    let only (l : List Nat) : Bool := (List.range 4).all (fun p => l.contains p || z.rate p == 0)
    let fmtBad (q : Nat) : Bool := (fmtOf (BitVec.ofNat 4 q)).isNone || q == 10 || decide (15 < q)
    cmdAt x (b + 6) 2 != 0 || ports ||
      match z.kind with
      | .load => z.outRate == 0 || out.isNone || !only [] || z.fld 19 45 != 0 || decide (2 ^ 23 ≤ z.fld 16 3)
      | .store => z.outRate != 0 || out.isSome || !only [0] || z.rate 0 == 0 || z.fld 19 45 != 0 || decide (2 ^ 23 ≤ z.fld 16 3)
      | .cvt =>
        z.outRate == 0 || out.isNone || !only [0] || z.rate 0 == 0 || fmtBad (z.fld 16 1) || fmtBad (z.fld 17 1) || decide (7 < z.fld 18 1) ||
          z.fld 19 1 != 0 || z.fld 24 40 != 0 ||
          decide (((inp 0).map EdgeS.size).getD 0 < itemSize (BitVec.ofNat 4 (z.fld 16 1)) z.elems) ||
          decide ((out.map EdgeS.size).getD 0 < itemSize (BitVec.ofNat 4 (z.fld 17 1)) (z.rate 0 * z.elems / max z.outRate 1))
      | .mx =>
        let ta := k.tileNat (z.fld 20 3) 32
        let tb := k.tileNat (z.fld 24 3) 32
        let span (a n al : Nat) : Bool := a % al != 0 || decide (Config.tileBytes < a + n)
        z.outRate == 0 || out.isNone || !only [0, 1] || z.rate 0 == 0 || z.mask == 0 || decide (15 < z.fld 16 1) || z.fld 23 1 != 0 ||
          z.fld 27 1 != 0 || z.fld 30 34 != 0 || span (z.fld 17 3) 64 64 || span (z.fld 20 3) 32 32 || span (z.fld 24 3) 32 32 ||
          tileDescBad (k.tileNat (z.fld 17 3) 64) || !outFmtOk (dFmt z.tdesc) || opDescBad ta || opDescBad tb ||
          !isMx (opDescOf ta).fmt || !isMx (opDescOf tb).fmt || (opDescOf ta).nblkM1 != (opDescOf tb).nblkM1 ||
          decide (z.rate 0 < z.nacc) || (z.rate 1 != 0 && decide (z.rate 1 < z.nacc))
      | .prog =>
        z.fld 16 48 != 0 || decide (1 < z.outRate) || (out.isSome && z.outRate == 0) ||
          (List.range 4).any (fun p => decide (1 < z.rate p)) || decide (1 < ((List.range 4).filter (fun p => z.rate p != 0)).length)

/-- R192: stages that lie on no cycle of the edges without SPILL are taken away, those that feed nothing first. -/
def peel : Nat → List EdgeS → List EdgeS
  | 0, es => es
  | n + 1, es => peel n (es.filter (fun e => es.any (fun f => f.prod == e.cons)))

/-- Two byte ranges meet. -/
def meets (a n b m : Nat) : Bool := decide (a < b + m) && decide (b < a + n) && n != 0 && m != 0

/-- What tx.fuse captures. -/
structure FusedPlan where
  fused : Fused
  lasts : List (Nat × Last)
deriving DecidableEq, Repr

/-- R190, R192: the checks of the command at offset a under cM. -/
def checkFused (k : Core) (cm : Cap) (a : Nat) : Except (BitVec 16 × Nat) FusedPlan :=
  let x := k.tileNat a 576
  let ns := cmdAt x 1 1
  let ne := cmdAt x 2 1
  let edges := (List.range ne).map (edgeAt x)
  let stages := (List.range ns).filterMap (stageAt k x)
  let two (f : EdgeS → EdgeS → Bool) : Bool := (List.range ne).any (fun i => (List.range ne).any (fun j =>
    i != j && f (edges.getD i (edgeAt x i)) (edges.getD j (edgeAt x j))))
  let tight (e : EdgeS) : Bool :=
    let o := match stages[e.prod]? with | some z => z.outRate | none => 0
    let r := match stages[e.cons]? with | some z => z.rate e.port | none => 0
    decide (e.ord < o + r - 1)
  let va := cmdAt x 8 8
  let kb := cmdAt x 16 4
  let sc := k.getC (BitVec.ofNat 4 (cmdAt x 20 1))
  let lasts := ((List.range ns).zip stages).filterMap (fun p =>
    match p.2.kind with
    | .load => some (p.1, checkLast k cm p.2.lastOff (fun q => decide (q < 2)) (fun q => q == 2))
    | .store => some (p.1, checkLast k cm p.2.lastOff (fun q => q == 2) (fun q => decide (q < 2)))
    | _ => none)
  let bad := lasts.filterMap (fun p => match p.2 with | .error e => some e | .ok _ => none)
  if a % 64 ≠ 0 then .error (0x6012, a)
  else if !tileSpanOk cm pLD a 576 then .error (0x6011, a)
  else if cmdAt x 0 1 ≠ 1 || ns = 0 || decide (6 < ns) || decide (8 < ne) || decide (1 < cmdAt x 3 1) || cmdAt x 6 2 ≠ 0 || va % 256 ≠ 0 ||
      decide (15 < cmdAt x 20 1) || cmdAt x 21 43 ≠ 0 || (List.range ne).any (fun i => edgeBad x i ns) ||
      two (fun e f => (e.cons == f.cons && e.port == f.port) || e.prod == f.prod) || (List.range ns).any (fun i => stageBad k x i edges) ||
      edges.any tight then .error (0x6012, a)
  else if !(peel 9 (edges.filter (fun e => !e.spill))).isEmpty || (edges.any EdgeS.spill && va = 0) then .error (0x6013, a)
  else if !cm.perm pST || edges.any (fun e => !tileSpanOk cm pST e.base e.bytes || !tileSpanOk cm pLD e.base e.bytes || meets e.base e.bytes a 576) ||
      two (fun e f => meets e.base e.bytes f.base f.bytes) then .error (0x6014, a)
  else if va ≠ 0 && !(xferAllows sc pLD 0 (va, va + 1024 * kb) && xferAllows sc pST 0 (va, va + 1024 * kb)) then .error (0x6011, va)
  else match bad with
    | e :: _ => .error e
    | [] => .ok { fused := { irq := cmdAt x 3 1 = 1, tag := BitVec.ofNat 16 (cmdAt x 4 2), spillVa := va, spillBytes := 1024 * kb, spillCtx := sc.ctx,
                             stages := stages, edges := edges },
                  lasts := lasts.filterMap (fun p => match p.2 with | .ok l => some (p.1, l) | .error _ => none) }

/-- R195: the arrays that running commands reserve. -/
def Core.reserve (k : Core) : Core :=
  { k with mxReserved := (List.range 16).foldl (fun m i => match k.stream i with
      | some x => if x.st == .ended then m else match x.fused with
        | some u => u.stages.foldl (fun m z => if z.kind == .mx then m ||| z.mask else m) m
        | none => m
      | none => m) 0 }

/-- Bytes of an item on a LOAD or STORE stage's edge (R190). -/
def Fused.itemBytes (u : Fused) (i : Nat) (l : Last) : Nat :=
  match u.edges.find? (fun e => e.prod == i || e.cons == i) with
  | some e => e.size / l.esz * l.esz
  | none => l.esz

/-- R189, R190: start a command in the contexts of the list: the first is its own. -/
def Core.openFused (k : Core) (p : FusedPlan) (ctxs : List Nat) : Core :=
  let i := ctxs.headD 0
  let kids := p.lasts.zip ctxs.tail
  let stages := (p.fused.stages.zipIdx).map (fun z => { z.1 with child := (kids.find? (fun q => q.1.1 == z.2)).map Prod.snd })
  let k := k.openStream i { gen := 0, fused := some { p.fused with stages := stages } }
  (kids.foldl (fun k q => k.openStream q.2 { gen := 0, last := some q.1.2, parent := some (i, q.1.1), itemBytes := p.fused.itemBytes q.1.1 q.1.2 }) k).reserve

def mTxFuse (c : CoreId) (gD : GReg) (cM : CReg) (gA : GReg) (s : State) : Issue :=
  let k := s.core c
  match checkFused k (k.getC cM) (k.getG gA).toNat with
  | .error (code, a) => .fault code (BitVec.ofNat 64 a)
  | .ok p =>
    if k.freeCtxs.length < p.lasts.length + 1 then .hold .txFull
    else goCore c (fun k => (k.openFused p k.freeCtxs).setG gD (BitVec.ofNat 64 (k.freeCtxs.headD 0)))

/-! ## Edges at work (R191, R193, R194) -/

def Fused.inEdge (u : Fused) (i p : Nat) : Option EdgeS := u.edges.find? (fun e => e.cons == i && e.port == p)
def Fused.outEdge (u : Fused) (i : Nat) : Option EdgeS := u.edges.find? (fun e => e.prod == i)
def Fused.updIn (u : Fused) (i p : Nat) (f : EdgeS → EdgeS) : Fused :=
  { u with edges := u.edges.map (fun e => if e.cons == i && e.port == p then f e else e) }
def Fused.updOut (u : Fused) (i : Nat) (f : EdgeS → EdgeS) : Fused := { u with edges := u.edges.map (fun e => if e.prod == i then f e else e) }
def Fused.updStage (u : Fused) (i : Nat) (f : StageS → StageS) : Fused := { u with stages := listUpd f u.stages i }
def StageS.ports (z : StageS) : List Nat := (List.range 4).filter (fun p => z.rate p != 0)

/-- Nothing more will come before the marker. -/
def EdgeS.drained (e : EdgeS) : Bool := e.resv == 0 && e.staged == 0 && e.ring.isEmpty
/-- R193: the marker that the consumer's port has received. -/
def EdgeS.received (e : EdgeS) (rate : Nat) : Option Bool := if e.drained && decide (e.full < max rate 1) then e.marker else none

/-- R191, R194: an edge has room for n more items. -/
def EdgeS.room (e : EdgeS) (n : Nat) : Bool :=
  if e.spill then e.staged == 0 else decide (e.used + n ≤ e.ord)

/-- Reserve n places: ordinary slots first, the rest pass through the escape slot on the way to the spill ring. -/
def EdgeS.reserve (e : EdgeS) (n : Nat) : EdgeS × List (Option Nat) :=
  let free := if e.ring.isEmpty && e.staged == 0 then min n (e.ord - e.used) else 0
  ({ e with resv := e.resv + free, staged := e.staged + (n - free) },
   (List.range free).map (fun j => some (e.slotAt (e.used + j))) ++ List.replicate (n - free) none)

/-- The slots that a firing takes from an edge, in slot order. -/
def EdgeS.takes (e : EdgeS) (n : Nat) : List Nat := (List.range n).map (fun j => e.slotAt (e.taken + j))

/-- R191: stage i may fire. -/
def Fused.ready (u : Fused) (i : Nat) (z : StageS) : Bool :=
  !z.fin && !z.aborted && (z.firings == 0 || decide (z.fired < z.firings)) &&
    z.ports.all (fun p => match u.inEdge i p with | some e => decide (z.rate p ≤ e.full) | none => false) &&
    (match u.outEdge i with | some e => e.room z.outRate | none => true)

/-- The inputs of a firing leave their edges' hand-over points; its output places are reserved. -/
def Fused.begin (u : Fused) (i : Nat) (z : StageS) (outs : Nat) : Fused × List (Option Nat) :=
  let u := z.ports.foldl (fun u p => u.updIn i p (fun e => { e with taken := e.taken + z.rate p, full := e.full - z.rate p })) u
  match u.outEdge i with
  | some e => let r := e.reserve outs; (u.updOut i (fun _ => r.1), r.2)
  | none => (u, [])

/-! ## The second issuer (R195) -/

/-- R195: a program bundle is held for a place in the queue that a slot's syllables use. -/
def Core.waitsFor (k : Core) (slot : Nat) : Bool :=
  match k.held with
  | some h => (h.why == .queueFull || h.why == .stopFull) && h.slot == slot
  | none => false

/-- R195: entries enter their queue at once when it has room, nothing is held before them, and no program bundle waits for the place. -/
def Core.seqPushM (k : Core) (e : MqE) : Core :=
  if k.seqHeldM.isEmpty && decide (k.mq.length < 8) && !k.waitsFor 6 then { k with mq := k.mq ++ [{ e with sq := k.mxSq }], mxSq := k.mxSq + 1 }
  else { k with seqHeldM := k.seqHeldM ++ [e] }

/-- A conversion takes its draws of stream 0 as it enters the queue (R48). -/
def Core.seqEnterV (k : Core) (e : VEntry) : Core :=
  match e.seq with
  | some v =>
    let vr := BitVec.ofNat 2 (k.fld rNUMCTL 1 0)
    let sr := v.rnd == 2 || (v.rnd == 3 && vr == 2)
    let k := { k with vq := k.vq ++ [{ e with hem := k.reg (rHEM 0 2), drew := sr }] }
    if sr then k.advanceHem 0 v.draws else k
  | none => k

def Core.seqPushV (k : Core) (e : VEntry) : Core :=
  if k.seqHeldV.isEmpty && decide (k.vq.length < 8) && !k.waitsFor 5 then k.seqEnterV e else { k with seqHeldV := k.seqHeldV ++ [e] }

/-- The queue entry of a conversion. -/
def seqEntry (c : CoreId) (v : SeqV) : VEntry :=
  { instr := .vxCvt c (seqReg 1) v.ext, vl := v.per, hem := 0, x := 0, y := 0, beats := 0, drew := false, done := false, gval := 0,
    seq := some v }

/-- R191: the operations of a firing of an MX stage. -/
def mxOps (s i : Nat) (z : StageS) (out : Nat) (a b : List Nat) : List MqE :=
  let t : Fin 2 := ⟨z.fired % 2, by omega⟩
  let d := BitVec.ofNat 256 (setBits z.tdesc.toNat 86 64 out)
  let e (op : MOp) : MqE := { src := some (s, i), sq := 0, m := z.mask, t := t, op := op }
  match z.adesc, z.bdesc with
  | some oa, some ob =>
    [e (.mopen d 0)] ++ (List.range z.nacc).map (fun j =>
      e (.acc { oa with panel := BitVec.ofNat 23 (a.getD j 0) } (if b.isEmpty then ob else { ob with panel := BitVec.ofNat 23 (b.getD j 0) }) none 0)) ++
      [e .close]
  | _, _ => []

/-! ## Firing (R191) -/

/-- How many items the child's last still has to fill or to empty. -/
def Stream.itemsLeft (x : Stream) : Nat := ceilDiv (x.total - x.limit) (max x.itemBytes 1)

/-- R191: stage i of the command in context s fires. -/
def Core.fireStage (k : Core) (c : CoreId) (s i : Nat) : Core :=
  match k.stream s with
  | some x =>
    match x.fused with
    | some u =>
      match u.stages[i]? with
      | some z =>
        let child := (z.child.bind k.stream).getD { gen := 0, st := .ended }
        let kid := z.kind == .load || z.kind == .store
        if x.st != .running || z.kind == .prog || !u.ready i z || (kid && (child.st != .running || child.itemsLeft == 0)) then k
        else
          let ins := z.ports.map (fun p => match u.inEdge i p with | some e => e.takes (z.rate p) | none => [])
          let n := if z.kind == .load then min z.outRate child.itemsLeft else z.outRate
          let (u1, outs) := u.begin i z n
          let esc := ((u.outEdge i).map EdgeS.escape).getD 0
          let size := ((u.outEdge i).map EdgeS.size).getD 0
          let offs := outs.map (fun o => o.getD esc)
          let fl : List Firing := if z.kind == .load then outs.map (fun o => ⟨[o], false⟩) else [⟨outs, false⟩]
          let k := k.updStream s (fun x => { x with fused := some (u1.updStage i (fun z => { z with fired := z.fired + 1, flight := z.flight ++ fl })) })
          match z.kind, z.child with
          | .load, some j =>
            -- items that pass through the escape slot are filled one after another (log 46)
            let now := min n ((outs.takeWhile Option.isSome).length + 1)
            k.updStream j (fun y => { y with items := y.items ++ offs, limit := min y.total (y.limit + now * y.itemBytes) })
          | .store, some j =>
            let a := ins.headD []
            k.updStream j (fun y => { y with items := y.items ++ a, limit := min y.total (y.limit + a.length * y.itemBytes) })
          | .cvt, _ =>
            let v : SeqV :=
              { s := s, stage := i, f1 := BitVec.ofNat 4 (z.fld 16 1), f2 := BitVec.ofNat 4 (z.fld 17 1), rnd := BitVec.ofNat 2 (z.fld 18 1),
                g := (z.fld 18 1).testBit 2, n := z.elems, ins := ins.headD [], outs := offs,
                esc := if outs.contains none then some (esc, size) else none }
            k.seqPushV (seqEntry c v)
          | .mx, _ => (mxOps s i z (offs.headD 0) (ins.headD []) (ins.getD 1 [])).foldl Core.seqPushM k
          | _, _ => k
      | none => k
    | none => k
  | none => k

/-! ## Completing a firing (R191, R193, R194) -/

/-- Stage i's oldest firing is complete: its requests have landed, its close or its conversion has ended. -/
def Core.firingDone (k : Core) (z : StageS) (f : Firing) : Bool :=
  match z.kind, z.child.bind k.stream with
  | .load, some y => covered y.landed (y.item0 * y.itemBytes) (min y.total ((y.item0 + 1) * y.itemBytes))
  | .store, some y => covered y.landed (y.item0 * y.itemBytes) (min y.total ((y.item0 + z.rate 0) * y.itemBytes))
  | .cvt, _ => f.done
  | .mx, _ => (named z.mask).all (fun a => decide (z.completed < z.ended.getD a.val 0))
  | .prog, _ => f.done
  | _, _ => false

/-- R194: a place in the spill ring for n bytes: the lowest that no spilled item of the command takes. live: offset and size. -/
def ringPlace (live : List (Nat × Nat)) (total n : Nat) : Option Nat :=
  ((0 :: live.map (fun p => p.1 + p.2)).filter (fun o => decide (o + n ≤ total) && live.all (fun p => !meets o n p.1 p.2))).min?

/-- The lines of n bytes of device or host memory. -/
def spanKeys (host : Bool) (a n : Nat) : List Nat := (List.range ((a + max n 1 - 1) / 64 + 1 - a / 64)).map (fun i => lineKey host (a / 64 + i))

/-- R251, R363: a write of the package's own that covers a span waits: for the back-invalidation of its lines (then only that leaves) or
for the host link. -/
def State.spanWait (s : State) (host : Bool) (a n : Nat) : Option State := s.gate none (spanKeys host a n) true

/-- R194: where spilled bytes lie: the ring is device or host memory (log 46). -/
def State.spillPlace (s : State) (c : CoreId) (ctx : BitVec 4) (va : Nat) (acc : Acc) : Except (BitVec 16) (Xlate × State) :=
  match s.translate c ctx va acc with
  | .fault f => .error f
  | .ok x w =>
    if x.host then .ok (x, s.noteWalk c w)
    else if paKind x.pa != .dev then .error 0x7011
    else if !s.frameOk (some ctx) x.pa then .error 0x7031
    else .ok (x, s.noteWalk c w)

/-- R194, R185: write an item to the spill ring through SPILLCAP's context; none: a back-invalidation or the host link keeps it
waiting. -/
def State.spillWrite (s : State) (c : CoreId) (ctx : BitVec 4) (va : Nat) (bs : List Byte) (pois : Bool) : Except (BitVec 16) (Bool × State) :=
  match s.spillPlace c ctx va .store with
  | .error f => .error f
  | .ok (x, s) =>
    match s.spanWait x.host x.pa bs.length with
    | some s => .ok (false, s)
    | none => .ok (true, s.cohPut x.host x.pa bs pois)

/-- Spill bytes by runs that no page boundary cuts; false where a run waits. -/
def spillAll : Nat → State → CoreId → BitVec 4 → Nat → List Byte → Bool → Except (BitVec 16) (Bool × State)
  | 0, s, _, _, _, _, _ => .ok (true, s)
  | n + 1, s, c, ctx, va, bs, pois =>
    if bs.isEmpty then .ok (true, s)
    else
      let m := 256 - va % 256
      match s.spillWrite c ctx va (bs.take m) pois with
      | .error f => .error f
      | .ok (true, s) => spillAll n s c ctx (va + m) (bs.drop m) pois
      | .ok (false, s) => .ok (false, s)

/-- R193, R194, R200: every stage of a command aborts; its streams stop, each with ABORTED in its record and a count of its own. -/
def State.abortCommand (s : State) (c : CoreId) (i : Nat) (code : BitVec 16) (va : Nat) : State :=
  match (s.core c).stream i with
  | some x =>
    match x.fused with
    | some u =>
      let s := s.updCore c (fun k =>
        let k := k.updStream i (fun x => { x with aborted := true, fused := some { u with stages := u.stages.map (fun z => { z with aborted := true }) } })
        let k := k.count 0x1918 31 16 1
        (u.stages.filterMap StageS.child).foldl (fun k j =>
          match k.stream j with
          | some y =>
            if y.st == .ended || y.st == .aborting then k
            else
              let k := k.setStream j { y with st := .aborting, aborted := true, code := code }
              let k := match y.last with
                | some l => k.tileWrite l.resume (y.darn c 5 code y.delivered (y.issued / l.esz))
                | none => k
              k.count 0x1918 31 16 1
          | none => k) k)
      s.streamReport c i { x with va := BitVec.ofNat 64 va } code false false 0
    | none => s
  | none => s

/-- R194: the oldest complete item that passes through the escape slot goes to the spill ring, under a bulk-class tag (R188); a
full ring aborts the command with 0x6022, and a fault of the write aborts it with 0x6020. A LOAD stage then fills its next one. -/
def State.spillOut (s : State) (c : CoreId) (i st : Nat) : State :=
  match (s.core c).stream i with
  | some x =>
    match x.fused with
    | some u =>
      match u.outEdge st with
      | some e =>
        let k := s.core c
        let item := match e.stash with | b :: _ => b | [] => (k.tileRead e.escape e.size, k.tilePois e.escape e.size)
        let live := u.edges.flatMap (fun f => f.ring.map (fun o => (o, f.size)))
        let drop (e : EdgeS) : EdgeS := { e with staged := e.staged - 1, due := e.due - 1, stash := e.stash.drop 1 }
        let next (k : Core) : Core := match u.stages[st]? with
          | some z => (match z.kind, z.child with
            | .load, some j => if 1 < e.staged then k.updStream j (fun y => { y with limit := min y.total (y.limit + y.itemBytes) }) else k
            | _, _ => k)
          | none => k
        if e.due = 0 || (k.tagFor true).isNone then s
        else match ringPlace live u.spillBytes e.size with
        | none => (s.updCore c (fun k => k.updFused i (fun u => u.updOut st drop))).abortCommand c i 0x6022 u.spillVa
        | some o =>
          match spillAll (e.size / 64 + 2) s c u.spillCtx (u.spillVa + o) item.1 item.2 with
          | .error f => ((s.updCore c (fun k => k.updFused i (fun u => u.updOut st drop))).noteXFault c u.spillCtx (u.spillVa + o)).abortCommand c i 0x6020 (u.spillVa + o)
          | .ok (false, s) => s
          | .ok (true, s) => s.updCore c (fun k => next (k.updFused i (fun u => u.updOut st (fun e => { drop e with ring := e.ring ++ [o] }))))
      | none => s
    | none => s
  | none => s

/-- R194: the items of the command's edges that await the spill ring go on. -/
def State.spillDue (s : State) (c : CoreId) (i : Nat) : State :=
  match ((s.core c).stream i).bind Stream.fused with
  | some u => u.edges.foldl (fun s e => (List.range e.due).foldl (fun s _ => s.spillOut c i e.prod) s) s
  | none => s

/-- R191, R193: a stage's oldest firing ends: its inputs are freed and its outputs handed over. -/
def State.completeFiring (s : State) (c : CoreId) (i st : Nat) : State :=
  match (s.core c).stream i with
  | some x =>
    match x.fused with
    | some u =>
      match u.stages[st]? with
      | some z =>
        match z.flight with
        | f :: r =>
          let u := z.ports.foldl (fun u p => u.updIn st p (fun e => { e with taken := e.taken - z.rate p, rd := (e.rd + z.rate p) % max e.ord 1 })) u
          let u := (f.outs.filter Option.isSome).foldl (fun u _ => u.updOut st (fun e => { e with resv := e.resv - 1, full := e.full + 1 })) u
          let u := u.updStage st (fun z => { z with flight := r, completed := z.completed + 1 })
          let n := if z.kind == .load then 1 else z.rate 0
          let s := s.updCore c (fun k =>
            let k := k.updStream i (fun x => { x with fused := some u })
            match z.child with
            | some j => k.updStream j (fun y => { y with items := y.items.drop n, item0 := y.item0 + n })
            | none => k)
          let n := (f.outs.filter Option.isNone).length
          if n = 0 then s
          else (s.updCore c (fun k => k.updFused i (fun u => u.updOut st (fun e => { e with due := e.due + n })))).spillDue c i
        | [] => s
      | none => s
    | none => s
  | none => s

/-! ## Markers (R193) -/

/-- R193: what a stage has received or done decides whether it places END or ABORT now. -/
def Core.stageEnds (k : Core) (u : Fused) (i : Nat) (z : StageS) : Bool :=
  let child := z.child.bind k.stream
  let loadDone := z.kind == .load && (match child with | some y => y.itemsLeft == 0 | none => false)
  let fired := z.firings != 0 && decide (z.firings ≤ z.fired)
  let ends := !z.ports.isEmpty && z.ports.all (fun p => match u.inEdge i p with | some e => (e.received (z.rate p)).isSome | none => true)
  let noInput := z.ports.isEmpty && z.kind == .prog && z.firings == 0
  z.flight.isEmpty && (z.aborted || loadDone || fired || (z.kind != .prog && ends) || noInput)

/-- R193: a stage whose input received ABORT aborts; a STORE stage writes every item it took first (R200). A PROG stage learns of it
from tx.stw. -/
def Fused.hearAbort (u : Fused) (i : Nat) (z : StageS) : StageS :=
  if z.kind != .prog && (z.kind != .store || z.flight.isEmpty) && z.ports.any (fun p => match u.inEdge i p with | some e => e.received (z.rate p) == some true | none => false) then
    { z with aborted := true }
  else z

/-- R200: the slots that an aborted LOAD or STORE holds are freed without being handed over once its requests have completed. -/
def Core.dropHeld (k : Core) (u : Fused) (i : Nat) (z : StageS) : Fused :=
  match z.child.bind k.stream with
  | some y =>
    let stopped := y.st == .aborting || y.st == .ended
    if z.aborted && stopped && !k.outstanding y.gen && !(match z.flight with | f :: _ => k.firingDone z f | [] => false) then
      let u := u.updStage i (fun z => { z with flight := [] })
      if z.kind == .load then
        let n := (z.flight.flatMap Firing.outs).filter Option.isSome
        u.updOut i (fun e => { e with resv := e.resv - n.length, staged := 0, due := 0, stash := [] })
      else u.updIn i 0 (fun e => { e with taken := e.taken - z.flight.length * z.rate 0, rd := (e.rd + z.flight.length * z.rate 0) % max e.ord 1 })
    else u
  | none => u

/-- One round of markers over the stages. -/
def Core.settleStage (k : Core) (u : Fused) (i : Nat) : Fused :=
  match u.stages[i]? with
  | some z =>
    if z.fin then u
    else
      let u := u.updStage i (u.hearAbort i)
      let u := match u.stages[i]? with | some z => k.dropHeld u i z | none => u
      match u.stages[i]? with
      | some z =>
        if k.stageEnds u i z then (u.updStage i (fun z => { z with fin := true })).updOut i (fun e => { e with marker := some z.aborted })
        else u
      | none => u
  | none => u

/-- R193: markers go as far as they can. -/
def Core.settleFused (k : Core) (s : Nat) : Core :=
  match k.stream s with
  | some x =>
    match x.fused with
    | some u =>
      let u := (List.range 36).foldl (fun u j => k.settleStage u (j % 6)) u
      k.setStream s { x with fused := some u, aborted := x.aborted || u.stages.any StageS.aborted }
    | none => k
  | none => k

/-- R193: every sink has received its marker or made its firings. -/
def Fused.sinksDone (u : Fused) : Bool := (u.stages.zipIdx).all (fun p => (u.outEdge p.2).isSome || p.1.fin)

/-- The requests and the queued work of a command have ended. -/
def Core.fusedQuiet (k : Core) (u : Fused) : Bool :=
  u.stages.all (fun z => match z.child.bind k.stream with
    | some y => !k.outstanding y.gen
    | none => z.kind == .prog || z.flight.isEmpty)

/-! ## PROG stages (R196) -/

/-- The PROG stage that a tx.stw or tx.stp names. -/
def Core.progStage (k : Core) (s i : Nat) : Option (Fused × StageS) :=
  match k.stream s with
  | some x =>
    if x.st != .running then none
    else match x.fused with
      | some u => match u.stages[i]? with
        | some z => if z.kind == .prog then some (u, z) else none
        | none => none
      | none => none
  | none => none

/-- R196: what tx.stw returns: a marker, or the slots of the next firing. -/
inductive StwRes where
  | wait | marker (abort : Bool) | fire (inp out : Nat)
deriving DecidableEq, Repr

def stwResult (u : Fused) (i : Nat) (z : StageS) : StwRes :=
  let inp := z.ports.head?.bind (u.inEdge i)
  let got := inp.bind (fun e => e.received 1)
  if z.fin then .marker z.aborted
  else if z.aborted then .marker true
  else if !z.flight.isEmpty then .wait
  else match got with
    | some m => .marker m
    | none =>
      if u.ready i z then .fire ((inp.map (fun e => (e.takes 1).headD 0)).getD 0)
        (((u.outEdge i).map (fun e => ((e.reserve 1).2.headD none).getD e.escape)).getD 0)
      else .wait

/-- R196: the command after tx.stw. -/
def Core.stw (k : Core) (s i : Nat) (u : Fused) (z : StageS) : Core :=
  match stwResult u i z with
  | .wait => k
  | .marker a =>
    (k.updFused s (fun u => (u.updStage i (fun z => { z with fin := true, aborted := z.aborted || a })).updOut i (fun e => { e with marker := some a }))).settleFused s
  | .fire _ _ =>
    let (u1, outs) := u.begin i z (if (u.outEdge i).isSome then 1 else 0)
    k.updFused s (fun _ => u1.updStage i (fun z => { z with fired := z.fired + 1, flight := [⟨outs, false⟩] }))

def mTxStw (c : CoreId) (gD gA gB : GReg) (s : State) : Issue :=
  let k := s.core c
  let t := streamNo (k.getG gA)
  let i := (k.getG gB).toNat
  match k.progStage t i with
  | none => .fault 0x6015 0
  | some (u, z) =>
    match stwResult u i z with
    | .wait => .hold .txWait
    | .marker a => goCore c (fun k => (k.stw t i u z).setG gD (BitVec.ofNat 64 ((if a then 2 else 1) * 2 ^ 60)))
    | .fire a b => goCore c (fun k => (k.stw t i u z).setG gD (BitVec.ofNat 64 (a % 2 ^ 23 + b % 2 ^ 23 * 2 ^ 32)))

def mTxStp (c : CoreId) (gA gB : GReg) (s : State) : Issue :=
  let k := s.core c
  let t := streamNo (k.getG gA)
  let i := (k.getG gB).toNat
  match k.progStage t i with
  | none => .fault 0x6015 0
  | some _ => .go (fun s => (s.completeFiring c t i).updCore c (fun k => k.settleFused t))

/-! ## The events (R191 to R197) -/

def execStageFire (c : CoreId) (s : StreamId) (stage : Fin 6) (st : State) : Host.Outcome State Fault Refusal :=
  .next ((st.spillDue c s.val).updCore c (fun k => (k.fireStage c s.val stage.val).settleFused s.val))

def execSlotHandover (c : CoreId) (s : StreamId) (stage : Fin 6) (st0 : State) : Host.Outcome State Fault Refusal :=
  let st := st0.spillDue c s.val
  let k := st.core c
  match (k.stream s.val).bind Stream.fused with
  | none => .next st
  | some u =>
    match u.stages[stage.val]? with
    | none => .next st
    | some z =>
      match z.flight with
      | [] => .next (st.updCore c (fun k => k.settleFused s.val))
      | f :: _ =>
        if z.kind == .prog || !k.firingDone z f then .next (st.updCore c (fun k => k.settleFused s.val))
        else .next ((st.completeFiring c s.val stage.val).updCore c (fun k => k.settleFused s.val))

/-- R194, R235: read spilled bytes back, uncached where their page is; none for bytes that a back-invalidation or the host link
keeps waiting. -/
def spillIn : Nat → State → CoreId → BitVec 4 → Nat → Nat → Except (BitVec 16) (Option (List Byte × Bool) × State)
  | 0, s, _, _, _, _ => .ok (some ([], false), s)
  | k + 1, s, c, ctx, va, n =>
    if n = 0 then .ok (some ([], false), s)
    else
      let m := min n (256 - va % 256)
      match s.spillPlace c ctx va .load with
      | .error f => .error f
      | .ok (x, s) =>
        match s.gate (some (coreCluster c)) (spanKeys x.host x.pa m) false with
        | some s => .ok (none, s)
        | none =>
          let (bs, p, s) := readLines (fun s key =>
            if x.nc then s.cohReadCur (coreCluster c) key else s.cohRead (coreCluster c) key false true) (m / 64 + 2) s x.host x.pa m
          match spillIn k s c ctx (va + m) (n - m) with
          | .error f => .error f
          | .ok (some (r, q), s) => .ok (some (bs ++ r, p || q), s)
          | .ok (none, s) => .ok (none, s)

def execSpillReadback (c : CoreId) (s : StreamId) (edge : Fin 8) (st0 : State) : Host.Outcome State Fault Refusal :=
  let st := st0.spillDue c s.val
  match ((st.core c).stream s.val).bind Stream.fused with
  | none => .next st
  | some u =>
    match u.edges[edge.val]? with
    | none => .next st
    | some e =>
      match e.ring with
      | [] => .next st
      | o :: r =>
        if e.resv ≠ 0 || e.ord ≤ e.used || ((st.core c).tagFor true).isNone then .next st
        else match spillIn (e.size / 64 + 2) st c u.spillCtx (u.spillVa + o) e.size with
          | .error _ => .next ((st.noteXFault c u.spillCtx (u.spillVa + o)).abortCommand c s.val 0x6020 (u.spillVa + o))
          | .ok (none, st) => .next st
          | .ok (some (bs, p), st) =>
            .next (st.updCore c (fun k => ((k.tileWrite (e.slotAt e.used) bs p).updFused s.val (fun u =>
              { u with edges := listUpd (fun e => { e with ring := r, full := e.full + 1 }) u.edges edge.val })).settleFused s.val))

/-- R195: held sequencer entries enter their queues; they have been held for a number of A-cycles. -/
def Core.seqEnter (k : Core) (held : Nat) : Core :=
  let goV := decide (k.vq.length < 8) && (!k.waitsFor 5 || decide (16 ≤ held))
  let goM := decide (k.mq.length < 8) && (!k.waitsFor 6 || decide (16 ≤ held))
  let any := (goV && !k.seqHeldV.isEmpty) || (goM && !k.seqHeldM.isEmpty)
  let k := if any then k.count 0x1930 63 0 held else k
  let k := match k.seqHeldV with
    | e :: r => if goV then ({ k with seqHeldV := r } : Core).seqEnterV e else k
    | [] => k
  match k.seqHeldM with
  | e :: r => if goM then { k with seqHeldM := r, mq := k.mq ++ [{ e with sq := k.mxSq }], mxSq := k.mxSq + 1 } else k
  | [] => k

def execSequencerQueueEntry (c : CoreId) (held : Nat) (s : State) : Host.Outcome State Fault Refusal := .next (s.updCore c (fun k => k.seqEnter held))

/-- R197: event 0x6021. -/
def execFusedStall (c : CoreId) (s : StreamId) (st : State) : Host.Outcome State Fault Refusal :=
  match (st.core c).stream s.val with
  | some x => .next (if x.fused.isSome && x.st == .running && (st.core c).fld 0x1908 31 16 ≠ 0 then st.streamReport c s.val x 0x6021 true false 0 else st)
  | none => .next st

end Sys2Proof.Machine
end

