-- ==== Sys2Proof/Machine/Links.lean ====
section
/-! DEFINITION. Seam links (chapter 12): flits and their check, the states of a port, link sequence and replay, credits, routes,
and the sender's channels with resends and voids. -/

namespace Sys2Proof.Machine

/-! ## Parts and registers -/

def State.port (s : State) (p : PortId) : Port := s.ports.get p
def State.updPort (s : State) (p : PortId) (f : Port → Port) : State := { s with ports := s.ports.set p.val (f (s.port p)) p.isLt }

/-- R289: the die and the die port of a package port. -/
def portDie (p : PortId) : DieId := ⟨p.val / 3, by omega⟩
/-- R308: offset o of a port's registers. -/
def slOff (p : PortId) (o : Nat) : Nat := 0x700000 + 0x10000 * (p.val % 3) + o
def State.slFld (s : State) (p : PortId) (o hi lo : Nat) : Nat := (s.die (portDie p)).fld (slOff p o) hi lo
def State.slCount (s : State) (p : PortId) (o n : Nat) : State := s.updDie (portDie p) (fun d => d.count (slOff p o) 63 0 n)
def State.slEn (s : State) (p : PortId) : Bool := s.slFld p 8 0 0 = 1

def slFECCORR : Nat := 0x10
def slFECUNC : Nat := 0x18
def slCRCERR : Nat := 0x20
def slREPLAY : Nat := 0x28
def slRETRAIN : Nat := 0x30
def slLANEDROP : Nat := 0x38
def slDOWN : Nat := 0x40
def slTXFLITS : Nat := 0x48
def slRXFLITS : Nat := 0x50

def State.portReport (s : State) (p : PortId) (code : BitVec 16) (event : Bool) (detail : Nat) : State :=
  s.post { code := code, event := event, level := 3, num := p.val, die := p.val / 3, addr := 0, detail := BitVec.ofNat 128 detail }

/-- Counters of the transport (R309). -/
def smE2ERETX : Nat := 0x740100
def smDUP : Nat := 0x740108
def smOOO : Nat := 0x740110
def smVOIDED : Nat := 0x740118
def smTTLEXP : Nat := 0x740120
def smNOROUTE : Nat := 0x740128
def smUNREACH : Nat := 0x740130
def smMALFORMED : Nat := 0x740138
def State.smCount (s : State) (o n : Nat) : State := s.pkgCount o 63 0 n
def State.incarn (s : State) : BitVec 8 := BitVec.ofNat 8 (s.pkgFld 0x740010 7 0)
/-- R309: a field of SEAM.CTL where 0 acts as 1. -/
def State.seamFld (s : State) (hi lo : Nat) : Nat := max 1 (s.pkgFld 0x740000 hi lo)

/-- Numbers in link order (R294). -/
def beNat (l : List Byte) : Nat := l.foldl (fun n b => 256 * n + b.toNat) 0

/-! ## Flits (R293, R294, R299) -/

/-- R294: the CRC of bytes. -/
def crc32 (l : List Byte) : Nat := (l.foldl (fun c b => crcStep c b.toNat 1 0xEDB88320) 0xFFFFFFFF) ^^^ 0xFFFFFFFF

/-- R299: units of a message: its header, and its data where it carries any. -/
def carriesData (opc : BitVec 8) : Bool := [0x02#8, 0x03#8, 0x04#8, 0x05#8, 0x11#8, 0x81#8, 0x90#8].contains opc
def msgLen (m : Msg) (opc : BitVec 8) : Nat := if m.void then 0 else if carriesData opc then m.len.toNat else 0
def msgUnits (m : Msg) (opc : BitVec 8) : Nat := 1 + (msgLen m opc + 15) / 16

def msgHeader (m : Msg) (opc : BitVec 8) : Nat :=
  opc.toNat * 2 ^ 120 + m.vc.toNat * 2 ^ 116 + m.ttl.toNat * 2 ^ 111 + m.dst.toNat * 2 ^ 101 + m.src.toNat * 2 ^ 91 +
    m.tsn.toNat * 2 ^ 59 + m.len.toNat * 2 ^ 50 + m.offset.toNat * 2 ^ 13 + m.be.toNat * 2 ^ 12 + m.pois.toNat * 2 ^ 11 +
    m.void.toNat * 2 ^ 10 + m.incarn.toNat * 4 + m.rsv.toNat

def msgBytes (m : Msg) (opc : BitVec 8) : List Byte :=
  let n := msgLen m opc
  beBytes 16 (msgHeader m opc) ++ (m.data ++ List.replicate n 0).take n ++ List.replicate (16 * (msgUnits m opc - 1) - n) 0

/-- A header read back, with its opcode. -/
def msgOf (x : Nat) : BitVec 8 × Msg :=
  (BitVec.ofNat 8 (bitsOf x 127 120),
   { vc := BitVec.ofNat 4 (bitsOf x 119 116), ttl := BitVec.ofNat 5 (bitsOf x 115 111), dst := BitVec.ofNat 10 (bitsOf x 110 101),
     src := BitVec.ofNat 10 (bitsOf x 100 91), tsn := BitVec.ofNat 32 (bitsOf x 90 59), len := BitVec.ofNat 9 (bitsOf x 58 50),
     offset := BitVec.ofNat 37 (bitsOf x 49 13), be := x.testBit 12, pois := x.testBit 11, void := x.testBit 10,
     incarn := BitVec.ofNat 8 (bitsOf x 9 2), rsv := BitVec.ofNat 2 (bitsOf x 1 0), data := [] })

/-- R299: the messages of a flit's body, in order: a unit whose first byte is 0 ends them. -/
def msgsOf : Nat → List Byte → List (BitVec 8 × Msg)
  | 0, _ => []
  | n + 1, l =>
    let h := l.take 16
    if h.length < 16 || h.headD 0 == 0 then []
    else
      let (opc, m) := msgOf (beNat h)
      let k := 16 * msgUnits m opc
      (opc, { m with data := (l.drop 16).take (msgLen m opc) }) :: msgsOf n (l.drop k)

/-- Fields of a flit (R293). -/
def flitType (f : List Byte) : Nat := (f.headD 0).toNat % 16
def flitNum (f : List Byte) (i n : Nat) : Nat := beNat ((f.drop i).take n)
def flitAckv (f : List Byte) : Bool := (flitNum f 6 1).testBit 0
def flitNak (f : List Byte) : Bool := (flitNum f 6 1).testBit 1

/-- R293, R289: a flit that is not discarded for its CRC, an uncorrectable codeword, a reserved type or a reserved field. -/
def flitGood (f : List Byte) (uncorrectable : Bool) : Bool :=
  let t := flitType f
  !uncorrectable && f.length == 320 && flitNum f 316 4 == crc32 (f.take 316) && decide (flitNum f 0 1 < 16) && decide (t < 3) &&
    flitNum f 1 1 == 0 && decide (flitNum f 6 1 < 4) && decide (flitNum f 7 1 < 16) && decide (flitNum f 8 2 < 4096) && flitNum f 10 2 == 0 &&
    (t == 1 || flitNum f 2 2 == 0)

/-- A DATA flit as this port sends it: sequence number, acknowledgement, credits of one VC and the body. -/
def Port.flit (p : Port) (body : List Byte) : List Byte :=
  let vc := ((List.finRange 16).find? (fun v => p.owed.get v != 0)).getD 0
  let n := min 4095 (p.owed.get vc)
  let h := [(1 : Byte), 0] ++ beBytes 2 p.lseq ++ beBytes 2 ((p.expect + 65535) % 65536) ++
    [BitVec.ofNat 8 (p.ackv.toNat + 2 * p.nakDue.toNat), BitVec.ofNat 8 vc.val] ++ beBytes 2 n ++ [0, 0]
  let b := h ++ (body ++ List.replicate 304 0).take 304
  b ++ beBytes 4 (crc32 b)

/-- What sending that flit leaves: the credits and the NAK it carried are gone, and the flit is held for a replay (R295). -/
def Port.sendFlit (p : Port) (body : List Byte) : Port :=
  let vc := ((List.finRange 16).find? (fun v => p.owed.get v != 0)).getD 0
  let n := min 4095 (p.owed.get vc)
  { p with replay := p.replay ++ [(p.lseq, p.flit body)], lseq := (p.lseq + 1) % 65536, nakDue := false,
           owed := p.owed.set vc.val (p.owed.get vc - n) vc.isLt }

def Port.owe (p : Port) (vc : BitVec 4) (n : Nat) : Port :=
  { p with owed := p.owed.set vc.toNat ((p.owed[vc.toNat]'(by have := vc.isLt; omega)) + n) (by have := vc.isLt; omega) }

/-- R298: the messages that may go now: each VC in its order, with credits for every unit. -/
def sendable : List OutMsg → Vector Nat 16 → List (BitVec 4) → Nat → List OutMsg × List OutMsg
  | [], _, _, _ => ([], [])
  | x :: r, cr, stuck, room =>
    let n := msgUnits x.m x.opc
    let have_ := cr[x.m.vc.toNat]'(by have := x.m.vc.isLt; omega)
    if n ≤ room ∧ n ≤ have_ ∧ !stuck.contains x.m.vc then
      let y := sendable r (cr.set x.m.vc.toNat (have_ - n) (by have := x.m.vc.isLt; omega)) stuck (room - n)
      (x :: y.1, y.2)
    else
      let y := sendable r cr (x.m.vc :: stuck) room
      (y.1, x :: y.2)

/-- Credits that messages take (R298). -/
def spend : Vector Nat 16 → List OutMsg → Vector Nat 16
  | v, [] => v
  | v, x :: r =>
    spend (v.set x.m.vc.toNat ((v[x.m.vc.toNat]'(by have := x.m.vc.isLt; omega)) - msgUnits x.m x.opc) (by have := x.m.vc.isLt; omega)) r

/-- One flit of waiting messages leaves, while the port is Active and the replay buffer has room. -/
def State.pump : Nat → State → PortId → State
  | 0, s, _ => s
  | n + 1, s, p =>
    let k := s.port p
    let (go, stay) := sendable k.out k.credits [] 19
    if k.st != .active || decide (Config.replayFlits ≤ k.replay.length) || go.isEmpty then s
    else
      let s := s.updPort p (fun k =>
        let k := { k with out := stay, credits := spend k.credits go }
        k.sendFlit (go.flatMap (fun x => msgBytes x.m x.opc)))
      let s := s.slCount p slTXFLITS 1
      let s := go.foldl (fun s x => match x.src with
        | some q => s.updPort q (fun k => k.owe x.m.vc (msgUnits x.m x.opc))
        | none => s) s
      pump n s p

/-- R293: with no DATA flit to send, IDLE flits carry the credits and the NAK that are due. -/
def Port.idle (k : Port) : Port := if k.st == .active then { k with nakDue := false, owed := .replicate 16 0 } else k

def State.flush (s : State) (p : PortId) : State := (s.pump ((s.port p).out.length) p).updPort p Port.idle

/-! ## Routes (R306) -/

/-- R310: a port that an entry names; 6 and 7 are invalid. -/
def portNo (n : Nat) : Option PortId := if h : n < 6 then some ⟨n, h⟩ else none

def State.portUsable (s : State) (p : PortId) : Bool := (s.port p).st == .active || (s.port p).st == .retrain

/-- R306: the port that a message to a position takes now. -/
def State.route (s : State) (dst : BitVec 10) : Option PortId :=
  let e := s.pkgFld (0x750000 + 8 * dst.toNat) 7 0
  let pri := if e.testBit 3 then portNo (e % 8) else none
  let alt := if e.testBit 7 then portNo (e / 16 % 8) else none
  let altOk := match alt with | some q => if s.portUsable q then some q else none | none => none
  match pri with
  | none => altOk
  | some q => if s.portUsable q then some q else if (s.port q).st == .down then altOk else none

/-- A message waits at a port and leaves as credits allow. -/
def State.putOut (s : State) (p : PortId) (x : OutMsg) : State := (s.updPort p (fun k => { k with out := k.out ++ [x] })).flush p

/-- R298: units that the port src brought are passed on or dropped. -/
def State.unitsGone (s : State) (src : Option PortId) (opc : BitVec 8) (m : Msg) : State :=
  match src with | some q => s.updPort q (fun k => k.owe m.vc (msgUnits m opc)) | none => s

/-- R306: forward a message, or drop and count it. -/
def State.forward (s : State) (src : Option PortId) (opc : BitVec 8) (m : Msg) : State :=
  if m.ttl = 0 then ((s.smCount smTTLEXP 1).pkgReport 0x9030 false 0).unitsGone src opc m
  else
    let m := { m with ttl := m.ttl - 1 }
    match s.route m.dst with
    | none => ((s.smCount smNOROUTE 1).pkgReport 0x9031 false 0).unitsGone src opc m
    | some p => s.putOut p { opc := opc, m := m, src := src }

def execMessageForward (opc : BitVec 8) (m : Msg) (s : State) : Host.Outcome State Fault Refusal :=
  .next (if m.dst == s.straps.pos then s else s.forward none opc m)

/-! ## The sender's channels (R301, R304, R305) -/

def findCh (l : List SendCh) (dst : BitVec 10) (vc : BitVec 4) : SendCh := (l.find? (fun c => c.dst == dst && c.vc == vc)).getD { dst := dst, vc := vc }
def State.sendCh (s : State) (dst : BitVec 10) (vc : BitVec 4) : SendCh := findCh s.sendChs dst vc
def State.setSendCh (s : State) (c : SendCh) : State :=
  { s with sendChs := if s.sendChs.any (fun x => x.dst == c.dst && x.vc == c.vc) then
      s.sendChs.map (fun x => if x.dst == c.dst && x.vc == c.vc then c else x) else s.sendChs ++ [c] }

/-- R305: barrier and window messages belong to no stream. -/
def serviceOpc (opc : BitVec 8) : Bool := [0x10#8, 0x11#8, 0x20#8, 0x21#8].contains opc
def accumOpc (opc : BitVec 8) : Bool := [0x03#8, 0x04#8, 0x05#8].contains opc

/-- R304: the bytes of a write or accumulate as its source holds them now. -/
def State.refresh (s : State) (x : Sent) : Sent :=
  match x.who with
  | .tx c tag =>
    match (s.core c).txReqs.find? (fun q => q.tag == tag) with
    | some q =>
      if x.opc = 0x01 || x.m.void then x
      else
        let rd (a : SAddr) : Byte × Bool :=
          match a.sp with
          | .tile => ((s.core c).tileByte a.a, (s.core c).tilePois a.a 1)
          | .pa => let r := s.peek false a.a 1; (r.1.headD 0, r.2)
          | .host => ((s.peek true a.a 1).1.headD 0, false)
        let bs := q.units.flatMap (fun u => (List.range q.unit).map (fun i => rd { u.1 with a := u.1.a + i }))
        if bs.length = x.m.data.length then { x with m := { x.m with data := bs.map Prod.fst, pois := bs.any Prod.snd } } else x
    | none => x
  | _ => x

/-- R304: resend every unacknowledged message of a channel in order; n counts toward the retry limits. -/
def State.resend (s : State) (c : SendCh) (n : Nat) : State :=
  match s.route c.dst with
  | none => s
  | some p =>
    let l := c.unacked.map (fun x => { s.refresh x with tries := x.tries + n })
    let s := (s.setSendCh { c with unacked := l }).smCount smE2ERETX l.length
    let s := s.updPort p (fun k => { k with out := k.out.filter (fun o => !(o.kept && o.m.dst == c.dst && o.m.vc == c.vc)) })
    l.foldl (fun s x => s.putOut p { opc := x.opc, m := x.m, kept := true }) s

/-- Change the first element that satisfies p. -/
def updFirst {α : Type} (p : α → Bool) (f : α → α) : List α → List α
  | [] => []
  | x :: r => if p x then f x :: r else x :: updFirst p f r

/-- R142, R300: one part of a late load is answered: its offset, bytes and poison, or none where another package refused it (R221:
the data are then poisoned). -/
def Core.partDone (k : Core) (toCap : Bool) (reg : BitVec 6) (x : Option (Nat × List Byte × Bool)) : Core :=
  { k with lateLoads := updFirst (fun l => l.toCap == toCap && l.reg == reg && l.need != 0) (fun l =>
      match x with
      | some y => { l with need := l.need - 1, got := l.got ++ [(y.1, y.2.1)], pois := l.pois || y.2.2 }
      | none => { l with need := l.need - 1, pois := true }) k.lateLoads }

/-- R381: a write of the replication aborted. -/
def State.replFail (s : State) (code : BitVec 16) : State :=
  { s with rs := { s.rs with repl := s.rs.repl.map (fun (r : Repl) => { r with fail := r.fail.orElse (fun _ => some code) }) } }

/-- R379: the read that a command waits for brings no answer. -/
def State.unanswered (s : State) (j : Nat) (tsn : BitVec 32) : State :=
  s.updJob j (fun y => if y.started && y.done.isNone && y.stream == some tsn.toNat then { y with done := some (0xB032, 0) } else y)

/-- R304: a void request: best-effort accumulates complete without effect and the stream goes on; any other aborts its stream with the code's
fault record, or (a scalar access) is reported with its core. -/
def State.voidAsker (s : State) (x : Sent) (code : BitVec 16) : State :=
  let det := x.m.dst.toNat + x.m.offset.toNat * 2 ^ 16
  if accumOpc x.opc && x.m.be then
    let s := s.pkgReport (if code = 0x9050 then 0x9051 else code) true 0 (BitVec.ofNat 128 det)
    match x.who with
    | .tx c tag => (match (s.core c).txReqs.find? (fun q => q.tag == tag) with | some q => s.txDone c q | none => s)
    | _ => s
  else
    match x.who with
    | .tx c tag =>
      match (s.core c).txReqs.find? (fun q => q.tag == tag) with
      | some q => (s.coreFault c code 0 (BitVec.ofNat 128 det)).abortStream c q.s code (((q.vas.head?).map Prod.snd).getD 0) (q.e0) false
      | none => s
    | .load c toCap reg _ => (s.updCore c (fun k => k.partDone toCap reg none)).coreFault c code 0 (BitVec.ofNat 128 det)
    | .store c _ _ _ _ => s.coreFault c code 0 (BitVec.ofNat 128 det)
    | .repl => s.replFail code
    | .cmd j => s.unanswered j x.m.tsn
    | _ => s

/-- A service message that cannot go is reported once (R305); a command that waits for its answer is told so. -/
def State.noteStuck (s : State) (x : Sent) : State :=
  s.pkgReport 0x9053 false 0 (BitVec.ofNat 128 (x.opc.toNat + x.m.dst.toNat * 2 ^ 16 + x.m.vc.toNat * 2 ^ 32 + x.m.tsn.toNat * 2 ^ 64))

/-- R304, R306: with no usable route every request to a destination completes with 0x9052, and a service message waits and is
reported once. -/
def State.unreachable (s : State) (c : SendCh) : State :=
  c.unacked.foldl (fun s x =>
    if serviceOpc x.opc then
      if x.noted then s
      else
        let s := s.noteStuck x
        s.setSendCh { (s.sendCh c.dst c.vc) with unacked := (s.sendCh c.dst c.vc).unacked.map (fun y => if y.m.tsn = x.m.tsn then { y with noted := true } else y) }
    else if x.m.void then s
    else
      let s := (s.voidAsker x 0x9052).smCount smUNREACH 1
      let s := if accumOpc x.opc && x.m.be then s.smCount smVOIDED 1 else s
      s.setSendCh { (s.sendCh c.dst c.vc) with unacked := (s.sendCh c.dst c.vc).unacked.map (fun y =>
        if y.m.tsn = x.m.tsn then { y with m := { y.m with void := true, data := [] } } else y) }) s

/-- R301: send a sequenced message on its channel. -/
def State.sendSeq (s : State) (opc : BitVec 8) (m : Msg) (who : Asker) : State :=
  let c := s.sendCh m.dst m.vc
  let m := { m with tsn := c.next, src := s.straps.pos, ttl := BitVec.ofNat 5 (s.seamFld 12 8), incarn := s.incarn }
  let s := s.setSendCh { c with next := c.next + 1, unacked := c.unacked ++ [{ opc := opc, m := m, who := who }] }
  match s.route m.dst with
  | some p => s.putOut p { opc := opc, m := m, kept := true }
  | none => s.unreachable (s.sendCh m.dst m.vc)

/-- R297: a response is not sequenced; it leaves by the route of its destination, or is lost. -/
def State.sendPlain (s : State) (opc : BitVec 8) (m : Msg) : State :=
  let m := { m with src := s.straps.pos, ttl := BitVec.ofNat 5 (s.seamFld 12 8), incarn := s.incarn }
  match s.route m.dst with
  | some p => s.putOut p { opc := opc, m := m }
  | none => (s.smCount smNOROUTE 1).pkgReport 0x9031 false 0

/-- A message with nothing but its destination, channel and offset. -/
def plainMsg (vc : BitVec 4) (dst : BitVec 10) (len off : Nat) : Msg :=
  { vc := vc, ttl := 0, dst := dst, src := 0, tsn := 0, len := BitVec.ofNat 9 len, offset := BitVec.ofNat 37 off, be := false, pois := false,
    void := false, incarn := 0, rsv := 0, data := [] }

/-- R297: the VC and the best-effort bit of a context's requests. -/
def State.vcOf (s : State) (ctx : BitVec 4) : BitVec 4 × Bool :=
  let x := bitsOf ((s.die 0).reg 0x740008).toNat (4 * ctx.toNat + 3) (4 * ctx.toNat)
  (BitVec.ofNat 4 (x % 8), x.testBit 3)

/-- R300: a request of context ctx to a remote address. -/
def State.sendReq (s : State) (opc : BitVec 8) (ctx : BitVec 4) (pos : BitVec 10) (off len : Nat) (data : List Byte) (pois : Bool) (who : Asker) : State :=
  let (vc, be) := s.vcOf ctx
  s.sendSeq opc { plainMsg vc pos len off with data := data, pois := pois, be := be && accumOpc opc } who

/-- R304: the oldest message of a channel has waited E2ETMO, counted while its first-hop port is Active. -/
def execE2eTimeout (dst : BitVec 10) (vc : BitVec 4) (s : State) : Host.Outcome State Fault Refusal :=
  let c := s.sendCh dst vc
  match c.unacked, s.route dst with
  | x :: _, some p =>
    if (s.port p).st != .active then .next s
    else
      let spent := decide (s.seamFld 39 32 ≤ x.tries)
      if spent && serviceOpc x.opc then
        let s := if x.noted then s else s.noteStuck x
        .next (s.resend { c with unacked := listUpd (fun y => { y with noted := true }) c.unacked 0 } 1)
      else if spent && !x.m.void then
        let s := (s.voidAsker x 0x9050).smCount smVOIDED 1
        .next (s.resend { c with unacked := listUpd (fun y => { y with m := { y.m with void := true, data := [] } }) c.unacked 0 } 1)
      else .next (s.resend c 1)
  | _ :: _, none => .next (s.unreachable c)
  | [], _ => .next s

/-- R305: messages that waited for a route are sent when one becomes usable. -/
def State.wakeHeld (s : State) : State :=
  s.sendChs.foldl (fun s c =>
    if (c.unacked.any (fun x => x.noted && serviceOpc x.opc)) && (s.route c.dst).isSome then s.resend (s.sendCh c.dst c.vc) 0 else s) s

/-! ## The states of a port (R291) -/

def popLanes (x : BitVec 8) : Nat := ((List.range 8).filter x.getLsbD).length

/-- R290: the width of a number of trained lanes. -/
def State.widthOf (s : State) (locked : BitVec 8) : Nat :=
  let n := min (popLanes locked) (if s.straps.linkw then 4 else 8)
  if 8 ≤ n then 8 else if 4 ≤ n then 4 else if 2 ≤ n then 2 else n

/-- The lowest w of the locked lanes are in use (R290). -/
def lowLanes (locked : BitVec 8) (w : Nat) : BitVec 8 :=
  BitVec.ofNat 8 ((((List.range 8).filter locked.getLsbD).take w).foldl (fun n i => n + 2 ^ i) 0)

def freshPort (k : Port) (st : PortSt) : Port := { k with st := st, width := 0, lanes := 0, left := 0, fails := 0, cfgGood := 0, cfgLast := [], selfLoop := false }

/-- R291: link sequence numbers, the replay buffer and the credits begin anew. -/
def freshLink (k : Port) : Port :=
  { k with lseq := 0, expect := 0, ackv := false, discard := false, nakDue := false, replay := [], replays := 0,
           credits := .replicate 16 0, owed := .replicate 16 0 }

/-- R291, R295, R296: enter Retrain; a lane that caused it is left out. -/
def State.retrain (s : State) (p : PortId) (lane : Option Nat) : State :=
  if (s.port p).st != .active then s
  else
    let m := BitVec.ofNat 8 (s.slFld p 8 23 16)
    let s := s.updPort p (fun k => { k with st := .retrain, fails := 0, replays := 0, mask := m,
                                            left := match lane with | some l => BitVec.ofNat 8 (2 ^ l) | none => 0 })
    let s := s.slCount p slRETRAIN 1
    (if lane.isSome then s.slCount p slLANEDROP 1 else s).portReport p 0x9010 true 0

/-- R291, R304: enter Down: the replay buffer is discarded, what this package keeps is sent again along the routes of now, and
other waiting messages take theirs. -/
def State.portDown (s : State) (p : PortId) : State :=
  let out := (s.port p).out
  let mine := s.sendChs.filter (fun c => !c.unacked.isEmpty && s.route c.dst == some p)
  let s := s.updPort p (fun k => { (freshLink (freshPort k .down)) with out := [] })
  let s := (s.slCount p slDOWN 1).portReport p 0x9012 false 0
  let s := mine.foldl (fun s c => if (s.route c.dst).isNone then s.unreachable (s.sendCh c.dst c.vc) else s.resend (s.sendCh c.dst c.vc) 0) s
  (out.filter (fun o => !o.kept)).foldl (fun s o => match s.route o.m.dst with
    | some q => s.putOut q o
    | none => ((s.smCount smNOROUTE 1).pkgReport 0x9031 false 0).unitsGone o.src o.opc o.m) s

/-- R291: energy on a lane of LANEMASK. -/
def execLinkDetect (p : PortId) (energy : BitVec 8) (s : State) : Host.Outcome State Fault Refusal :=
  let k := s.port p
  let m := BitVec.ofNat 8 (s.slFld p 8 23 16)
  .next (if s.slEn p && (k.st == .detect || k.st == .disabled) then
    if (energy &&& m) != 0 then s.updPort p (fun k => { freshPort k .train with mask := m }) else s.updPort p (fun k => freshPort k .detect)
  else s)

/-- R292: the payload of the CONFIG flits that a port sends: position, port, locked lanes, proposed width, incarnation, replay buffer size,
receive credits. -/
def State.configPayload (s : State) (p : PortId) (locked : BitVec 8) (w : Nat) : List Byte :=
  beBytes 2 s.straps.pos.toNat ++ [BitVec.ofNat 8 p.val, locked, BitVec.ofNat 8 w, s.incarn] ++ beBytes 2 Config.replayFlits ++
    (List.range 16).flatMap (fun v => beBytes 2 (if v = 15 then 0 else Config.rxCredits v % 2 ^ 16)) ++ List.replicate 264 0

/-- R290, R291: training ends. -/
def execLinkTrainEnd (p : PortId) (locked : BitVec 8) (s : State) : Host.Outcome State Fault Refusal :=
  let k := s.port p
  let ok := locked &&& k.mask
  let w := s.widthOf ok
  .next (if k.st == .train then
    s.updPort p (fun k => if w = 0 then { freshPort k .detect with good := ok } else { freshPort k .config with good := ok, width := w, lanes := lowLanes ok w, cfgSent := s.configPayload p ok w })
  else s)

/-- R295: an ACKSEQ covers flits of the replay buffer, up to and with number n. -/
def Port.acked (k : Port) (n : Nat) : Port :=
  match k.replay.findIdx? (fun x => x.1 == n) with
  | some i => { k with replay := k.replay.drop (i + 1), replays := 0 }
  | none => k

/-- R293: what every good flit carries: ACKSEQ and credits. -/
def Port.heard (k : Port) (f : List Byte) : Port :=
  let k := if flitAckv f then k.acked (flitNum f 4 2) else k
  let vc := flitNum f 7 1 % 16
  { k with credits := k.credits.set vc (k.credits[vc]'(by omega) + flitNum f 8 2) (by omega) }

/-- R295: resend from ACKSEQ + 1; after REPLAYMAX replays in a row without progress the port enters Retrain. -/
def State.replay (s : State) (p : PortId) : State :=
  let k := s.port p
  if k.st != .active || k.replay.isEmpty then s
  else
    let s := (s.updPort p (fun k => { k with replays := k.replays + 1 })).slCount p slREPLAY 1
    if max 1 (s.slFld p 8 11 8) ≤ (s.port p).replays then s.retrain p none else s

/-- R293, R295: a good flit's ACKSEQ and credits are taken, and its NAK replays what is held. -/
def State.hear (s : State) (p : PortId) (f : List Byte) : State :=
  let s := s.updPort p (fun k => k.heard f)
  if flitNak f then s.replay p else s

/-- R289, R308: codewords that the code corrected, and the uncorrectable one that a flit touches. -/
def State.fecCount (s : State) (p : PortId) (corrected : Nat) (uncorrectable : Bool) : State :=
  let s := s.slCount p slFECCORR corrected
  if uncorrectable then s.slCount p slFECUNC 1 else s

/-- A flit is discarded: counted, and on the first one NAK goes out once (R295). -/
def State.discardFlit (s : State) (p : PortId) : State :=
  (s.updPort p (fun k => { k with nakDue := k.nakDue || !k.discard, discard := true })).slCount p slCRCERR 1

/-- R292: what two CONFIG flits must agree on: their payload. -/
def configBody (f : List Byte) : List Byte := (f.drop 12).take 304

/-- R292. -/
def execConfigFlitRx (p : PortId) (flit : List Byte) (uncorrectable : Bool) (s : State) (corrected : Nat := 0) : Host.Outcome State Fault Refusal :=
  let s := s.fecCount p corrected uncorrectable
  let k := s.port p
  let b := configBody flit
  if k.st != .config then .next (if k.st == .active && flitGood flit uncorrectable then (s.hear p flit).flush p else s)
  else if k.selfLoop then .next s
  else if !flitGood flit uncorrectable || flitType flit != 2 then .next ((s.updPort p (fun k => { k with cfgGood := 0, cfgLast := [] })).slCount p slCRCERR 1)
  else
    let pos : BitVec 10 := BitVec.ofNat 10 (flitNum flit 12 2)
    if pos == s.straps.pos then .next ((s.updPort p (fun k => { k with selfLoop := true, cfgGood := 0 })).portReport p 0x9013 false 0)
    else
      let n := if k.cfgLast == b then k.cfgGood + 1 else 1
      let w := min k.width (flitNum flit 16 1)
      let s := s.updPort p (fun k => { k with cfgGood := n, cfgLast := b, npos := pos, nport := BitVec.ofNat 3 (flitNum flit 14 1) })
      if n < 4 || w = 0 then .next s
      else
        let s := s.updPort p (fun k => { (freshLink k) with
          st := .active, width := w, lanes := lowLanes k.lanes w, credits := .ofFn (fun v => flitNum flit (20 + 2 * v.val) 2) })
        let s := s.flush p
        .next s.wakeHeld

/-- R293, R295: an IDLE flit, or the fields that every flit carries. -/
def execIdleFlitRx (p : PortId) (flit : List Byte) (uncorrectable : Bool) (s : State) (corrected : Nat := 0) : Host.Outcome State Fault Refusal :=
  let s := s.fecCount p corrected uncorrectable
  if (s.port p).st != .active then .next s
  else if !flitGood flit uncorrectable || flitType flit != 0 then .next (s.discardFlit p)
  else .next ((s.hear p flit).flush p)

/-- R295: ACKSEQ has not advanced for 2 µs while flits are held. -/
def execLinkReplay (p : PortId) (s : State) : Host.Outcome State Fault Refusal := .next (s.replay p)

/-- R295: an active lane loses lock. -/
def execLaneLockLoss (p : PortId) (lane : Fin 8) (s : State) : Host.Outcome State Fault Refusal :=
  .next (if (s.port p).lanes.getLsbD lane.val then s.retrain p (some lane.val) else s)

/-- R295: more than 16 uncorrectable codewords on one lane within 1 ms. -/
def execUncorrectableCwBurst (p : PortId) (lane : Fin 8) (count : Nat) (s : State) : Host.Outcome State Fault Refusal :=
  let s := s.slCount p slFECUNC count
  .next (if 16 < count && (s.port p).lanes.getLsbD lane.val then s.retrain p (some lane.val) else s)

/-- R295: SL.CTL.RETRAIN forces Retrain from Active. -/
def execSlRetrain (p : PortId) (s : State) : Host.Outcome State Fault Refusal := .next (s.retrain p none)

/-- R291, R292: a write of SL.CTL.EN. -/
def State.portEnable (s : State) (p : PortId) (en : Bool) : State :=
  let s := s.updDie (portDie p) (fun d => d.setFld (slOff p 8) 0 0 en.toNat)
  let k := s.port p
  if !en then s.updPort p (fun k => freshLink (freshPort k .disabled))
  else if k.st == .disabled then s.updPort p (fun k => freshPort k .detect)
  else if k.selfLoop then s.updPort p (fun k => { k with selfLoop := false, cfgGood := 0, cfgLast := [] })
  else s

def execSlEnable (p : PortId) (en : Bool) (s : State) : Host.Outcome State Fault Refusal := .next (s.portEnable p en)

/-- R291, R295: one attempt of a Retrain ends; the lanes that caused it stay out. -/
def execRetrainAttemptEnd (p : PortId) (ok : Bool) (locked : BitVec 8) (s : State) : Host.Outcome State Fault Refusal :=
  let k := s.port p
  let good := locked &&& k.mask &&& ~~~k.left
  let w := s.widthOf good
  if k.st != .retrain then .next s
  else if ok && w != 0 then
    let s := s.updPort p (fun k => { k with st := .active, good := good, width := w, lanes := lowLanes good w, left := 0, fails := 0 })
    let s := ((List.range 8).filter k.left.getLsbD).foldl (fun s l => s.portReport p 0x9011 false (l + 256 * w)) s
    .next (s.flush p)
  else
    let s := s.updPort p (fun k => { k with fails := k.fails + 1 })
    .next (if max 1 (s.slFld p 8 15 12) ≤ (s.port p).fails then s.portDown p else s)

/-- R291: 100 ms in Down have passed. -/
def execLinkDownExpiry (p : PortId) (s : State) : Host.Outcome State Fault Refusal :=
  .next (if (s.port p).st == .down && s.slEn p then s.updPort p (fun k => freshPort k .detect) else s)

/-- R308: SL.STAT. -/
def portStCode : PortSt → Nat
  | .disabled => 0
  | .detect => 1
  | .train => 2
  | .config => 3
  | .active => 4
  | .retrain => 5
  | .down => 6

def Port.stat (k : Port) : Nat :=
  k.npos.toNat * 2 ^ 32 + k.nport.toNat * 2 ^ 29 + k.good.toNat * 2 ^ 16 + k.width * 16 + portStCode k.st

end Sys2Proof.Machine
end

