-- ==== Sys2Proof/Machine/Gauge.lean ====
section
/-! DEFINITION. The wear gauge (R367 to R370): the risk, its thresholds and when a resole is due. -/

namespace Sys2Proof.Machine

def State.updRs (s : State) (f : Resole → Resole) : State := { s with rs := f s.rs }

/-- R367: the value and the limits of input n. -/
def State.wgIn (s : State) (n : Nat) : Int := (s.pkgFld (0x800060 + 8 * n) 31 0 : Int)
def State.wgLo (s : State) (n : Nat) : Int := (s.pkgFld (0x800020 + 8 * n) 31 0 : Int)
def State.wgHi (s : State) (n : Nat) : Int := (s.pkgFld (0x800020 + 8 * n) 63 32 : Int)

/-- R368: one sub-score. The spec gives no result where HI = LO, so there it is a free value (log 49). -/
def subScore (x lo hi : Int) (fr : Nat) : Nat :=
  if hi = lo then fr % 1001
  else
    let v := (1000 * (x - lo)).tdiv (hi - lo)
    if v < 0 then 0 else if 1000 < v then 1000 else v.toNat

/-- R368: the risk of five sub-scores. -/
def riskOf (l : List Nat) : Nat :=
  let mx := l.foldl max 0
  let sum := l.foldl (· + ·) 0
  min 1000 (mx + (sum - mx) / 4)

def State.risk (s : State) : Nat := s.pkgFld 0x800000 9 0
def State.wgThresh (s : State) : Nat := s.pkgFld 0x800010 9 0
def State.wgHyst (s : State) : Nat := s.pkgFld 0x800010 19 10
def State.wgAlarm (s : State) : Nat := s.pkgFld 0x800010 29 20
def State.wgRepeat (s : State) : Nat := s.pkgFld 0x800010 37 30
def State.wgArmed (s : State) : Bool := s.pkgFld 0x800010 38 38 = 1

/-- The gauge's detail: the risk, then s0 to s4, 16 bits each (log 50). -/
def gaugeDetail (risk : Nat) (l : List Nat) : BitVec 128 := BitVec.ofNat 128 (leNat ((risk :: l).flatMap (leBytes 2)))

/-- R368, R369: recompute from the latest inputs, and act on the thresholds of the standing list. -/
def State.gaugeRun (s : State) : State :=
  let (fr, s) := s.free
  let l := (List.range 5).map (fun n => subScore (s.wgIn n) (s.wgLo n) (s.wgHi n) fr)
  let r := riskOf l
  let s := (s.setPkgFld 0x800000 9 0 r).updDie 0 (fun d => d.setReg 0x800008 (BitVec.ofNat 64 ((l.zipIdx).foldl (fun n p => n + p.1 * 2 ^ (10 * p.2)) 0)))
  if s.rs.standing.isNone then s
  else
    let fires := s.wgArmed && decide (s.wgThresh ≤ 1000) && decide (s.wgThresh ≤ r)
    let s1 := if fires then
        ((s.setPkgFld 0x800010 38 38 0).updRs (fun z => { z with due := true })).pkgReport 0xC110 true 0 (gaugeDetail r l)
      else if !s.wgArmed && decide ((r : Int) < (s.wgThresh : Int) - s.wgHyst) then s.setPkgFld 0x800010 38 38 1 else s
    if !s1.rs.alarmed && decide (s1.wgAlarm ≤ 1000) && decide (s1.wgAlarm ≤ r) then
      (s1.updRs (fun z => { z with alarmed := true })).pkgReport 0xC111 false 0 (gaugeDetail r l)
    else if s1.rs.alarmed && decide ((r : Int) < (s1.wgAlarm : Int) - s1.wgHyst) then s1.updRs (fun z => { z with alarmed := false })
    else s1

/-- R367: the counters of the CE input: MC.CE of every channel, and CORR of every L2 with its hamper and of every region cache. -/
def State.ceCounters (s : State) : List Nat :=
  (List.finRange 8).flatMap (fun r => (List.finRange 17).map (fun p => ((s.region r).reg (mcOff p cCE)).toNat) ++ [(s.region r).fld 0x20030 15 0]) ++
    (List.finRange 16).map (fun c => (s.cluster c).fld 0x48 15 0)

/-- R367: the counters of the REPLAY input. -/
def State.replayCounters (s : State) : List Nat := (List.finRange 6).map (fun p => s.slFld p slREPLAY 63 0)

/-- What counters have counted since they were last seen; one that was cleared counts from 0. -/
def countedSince (now seen : List Nat) : Nat :=
  ((now.zipIdx).map (fun p => let old := seen.getD p.2 0; if old ≤ p.1 then p.1 - old else p.1)).sum

/-- R367: the inputs of the last second, and the recompute of every 100 ms. CE, REPLAY and DROOP are counted in ten bins of 100 ms; the
temperature and the watchdog margin come as measured (log 62). -/
def execGaugeRecompute (x : Vector (BitVec 32) 5) (s : State) : Host.Outcome State Fault Refusal :=
  let ce := s.ceCounters
  let now := ce ++ s.replayCounters
  let bins := ((countedSince ce s.pwr.gaugeSeen, countedSince s.replayCounters (s.pwr.gaugeSeen.drop ce.length)) :: s.pwr.gaugeBins).take 10
  let s : State := { s with pwr := { s.pwr with gaugeBins := bins, gaugeSeen := now } }
  let x := x.set 3 (BitVec.ofNat 32 (min (2 ^ 32 - 1) (s.pwr.droops.take 10).sum))
  let x := (x.set 0 (BitVec.ofNat 32 (min (2 ^ 32 - 1) (bins.map Prod.fst).sum))).set 1 (BitVec.ofNat 32 (min (2 ^ 32 - 1) (bins.map Prod.snd).sum))
  let s := (List.finRange 5).foldl (fun s n => s.setPkgFld (0x800060 + 8 * n.val) 31 0 (x.get n).toNat) s
  .next ({ s with pwr := { s.pwr with droops := 0 :: s.pwr.droops.take 9 } } : State).gaugeRun

/-- R369: at a completion of the standing channel, the recompute and the repeats. -/
def State.gaugeAt (s : State) (ch : PressId) : State :=
  match s.rs.standing with
  | none => s
  | some (n, _) =>
    if n ≠ ch then s
    else
      let was := s.wgArmed
      let s := s.gaugeRun
      let k := s.rs.since + 1
      let again := !was && !s.wgArmed && s.wgRepeat != 0 && decide (s.wgThresh ≤ s.risk) && k % s.wgRepeat == 0
      s.updRs (fun z => { z with since := k, due := z.due || again })

/-- R374: the SNAP that waits on a channel, or the standing list where the gauge has made a resole due. -/
def State.resoleDue (s : State) (ch : PressId) : Option (Option Nat × RList) :=
  match s.rs.snaps.find? (fun x => x.2.1 == ch) with
  | some x => some (some x.1, x.2.2)
  | none =>
    match s.rs.standing with
    | some (n, l) => if s.rs.due && n == ch then some (none, l) else none
    | none => none

/-- R381: a resole that becomes due in a replication is deferred; one that is deferred already is not counted again. -/
def State.resoleDefer (s : State) (snap : Option Nat) : State :=
  if s.rs.deferred.contains snap then s
  else ((s.pkgCount 0x800110 31 16 1).pkgReport 0xC124 true 0).updRs (fun z => { z with deferred := z.deferred ++ [snap] })

/-- R387: RS.STAT. Bits 5:3 and 25:16 are kept where they are written. -/
def State.rsStat (s : State) : Nat :=
  let kept := s.pkgFld 0x800100 25 16 * 2 ^ 16 + s.pkgFld 0x800100 5 3 * 8
  let ch := match s.rs.standing with | some (n, _) => n.val | none => 0
  kept + ch * 64 + (s.rs.due || !s.rs.snaps.isEmpty).toNat * 4 + s.rs.repl.isSome.toNat * 2 + s.rs.capture.isSome.toNat

end Sys2Proof.Machine
end

