-- ==== Sys2Proof/Machine/Press.lean ====
section
/-! DEFINITION. The press tree with its barriers across packages (R205 to R210, R307), and the mangle ring (R201 to R204). -/

namespace Sys2Proof.Machine

/-! ## Press channels -/

def chOff (ch : PressId) (o : Nat) : Nat := 0x400100 + 0x20 * ch.val + o
def State.members (s : State) (ch : PressId) : W64 := (s.die 0).reg (chOff ch 0)
def State.isMember (s : State) (c : CoreId) (ch : PressId) : Bool := (s.members ch).getLsbD c.val
def State.system (s : State) (ch : PressId) : Bool := s.pkgFld (chOff ch 8) 0 0 = 1
def State.epoch (s : State) (ch : PressId) : W64 := (s.die 0).reg (chOff ch 0x18)
def Core.press (k : Core) (ch : PressId) : PrCh := k.pr.get ch
def Core.updPress (k : Core) (ch : PressId) (f : PrCh → PrCh) : Core := { k with pr := k.pr.set ch.val (f (k.press ch)) ch.isLt }

/-- Package cores that a test picks, as a mask. -/
def coreMask (f : CoreId → Bool) : W64 := BitVec.ofNat 64 ((List.finRange 64).foldl (fun n c => if f c then n + 2 ^ c.val else n) 0)

/-- R210: CHn.ARRIVED: the pending arrivals. -/
def State.arrived (s : State) (ch : PressId) : W64 := coreMask (fun c => ((s.core c).press ch).pending && s.isMember c ch)

/-- R206: the arrivals that have entered the tree. -/
def State.entered (s : State) (ch : PressId) : W64 := coreMask (fun c => ((s.core c).press ch).entered)

/-- R210: the channel runs while any arrival is pending. -/
def State.pressRuns (s : State) (ch : PressId) : Bool := (List.finRange 64).any (fun c => ((s.core c).press ch).pending && s.isMember c ch)

/-- R205, R207: every member has arrived. A channel left without members is complete while its barrier is out (R208). -/
def State.localDone (s : State) (ch : PressId) : Bool :=
  (s.members ch != 0 || s.barSent.getLsbD ch.val) && (s.members ch &&& s.entered ch) == s.members ch

def chOfImm (imm : BitVec 6) : PressId := ⟨imm.toNat % 4, by omega⟩

/-- The core is held in pr.wait or pr.sync on a channel. -/
def Core.pressWaits (k : Core) (ch : PressId) : Bool :=
  match k.held with
  | some h => (h.why == .prWait || h.why == .prSync) && h.syl.toNat % 4 == ch.val
  | none => false

/-- R206: the streams that a DRAIN arrival waits for, by their generation. -/
def Core.openGens (k : Core) : List Nat :=
  (List.range 16).filterMap (fun i => match k.stream i with
    | some x => if x.st == .ended && !k.outstanding x.gen then none else some x.gen
    | none => none)

def Core.arrive (k : Core) (ch : PressId) (drain bySync : Bool) : Core :=
  k.updPress ch (fun _ => { pending := true, entered := false, drain := drain, waits := if drain then k.openGens else [], bySync := bySync })

/-- R205. -/
def mPrArrive (c : CoreId) (imm : BitVec 6) (s : State) : Issue :=
  let ch := chOfImm imm
  if !s.isMember c ch then .fault 0x6041 0
  else if ((s.core c).press ch).pending then .hold .prArrive
  else goCore c (fun k => k.arrive ch (imm.getLsbD 2) false)

/-- R189. -/
def mPrWait (c : CoreId) (imm : BitVec 6) (s : State) : Issue :=
  if ((s.core c).press (chOfImm imm)).pending then .hold .prWait else .go id

/-- R206: pr.sync arrives once, holds until that arrival is released, then issues and its record is cleared. -/
def mPrSync (c : CoreId) (imm : BitVec 6) (s : State) : Issue :=
  let ch := chOfImm imm
  let p := (s.core c).press ch
  if p.bySync then
    if p.pending then .hold .prSync else goCore c (fun k => k.updPress ch (fun x => { x with bySync := false }))
  else if !s.isMember c ch then .fault 0x6041 0
  else if p.pending then .hold .prSync
  else .holdGo .prSync (fun s => s.updCore c (fun k => k.arrive ch (imm.getLsbD 2) true))

/-- R206, R207: the release of a channel: each arrival is released, a core that does not wait is interrupted, the epoch counts. -/
def State.pressRelease (s : State) (ch : PressId) : State :=
  let s := (List.finRange 64).foldl (fun s c =>
    let p := (s.core c).press ch
    if p.pending && (p.entered || !s.isMember c ch) then
      s.updCore c (fun k =>
        let waits := k.pressWaits ch
        let k := k.updPress ch (fun x => { x with pending := false, entered := false, waits := [] })
        if waits then k else k.raiseInt 3)
    else s) s
  let s := { s with barSent := s.barSent &&& ~~~(BitVec.ofNat 4 (2 ^ ch.val)) }
  s.updDie 0 (fun d => d.setReg (chOff ch 0x18) (BitVec.ofNat 64 (satAdd 64 (d.reg (chOff ch 0x18)).toNat 1)))

/-- R374 step 1, R373: completion of a channel: the release is held where a resole is due and no replication runs. -/
def State.pressComplete (s : State) (ch : PressId) : State :=
  let s := s.gaugeAt ch
  match s.resoleDue ch with
  | none => s.pressRelease ch
  | some (snap, l) =>
    if s.rs.repl.isSome || s.rs.capture.isSome then
      (s.resoleDefer snap).pressRelease ch
    else s.updRs (fun z => { z with capture := some { ch := ch, snap := snap, list := l, epoch := s.epoch ch },
                                    deferred := z.deferred.filter (· != snap) })

/-! ## Barriers across packages (R307) -/

def barOff (ch : PressId) : Nat := 0x740200 + 0x10 * ch.val
def State.barRoot (s : State) (ch : PressId) : BitVec 10 := BitVec.ofNat 10 (s.pkgFld (barOff ch) 41 32)
def State.barMembs (s : State) (ch : PressId) : Nat := s.pkgFld (barOff ch) 10 0
def State.arrivals (s : State) (ch : PressId) (e : BitVec 32) : List (BitVec 10) :=
  (((s.barArr.get ch).find? (fun a => a.epoch == e)).map BarArr.srcs).getD []
def State.epoch32 (s : State) (ch : PressId) : BitVec 32 := (s.epoch ch).setWidth 32
def barMsg (dst : BitVec 10) (ch : PressId) (e : BitVec 32) : Msg := plainMsg 14 dst 0 (ch.val * 2 ^ 32 + e.toNat)

/-- R307: the root has NMEMB arrivals of its current epoch: BARREL to each arrived position, and its own channel completes. -/
def State.barCheck (s : State) (ch : PressId) : State :=
  let e := s.epoch32 ch
  let l := s.arrivals ch e
  if s.barRoot ch != s.straps.pos || !s.system ch || s.barMembs ch = 0 || decide (l.length < s.barMembs ch) ||
      (match s.rs.capture with | some x => x.ch == ch | none => false) then s
  else
    let s := { s with barArr := s.barArr.set ch.val ((s.barArr.get ch).filter (fun (a : BarArr) => a.epoch != e)) ch.isLt }
    let s := (l.filter (· != s.straps.pos)).foldl (fun s p => s.sendSeq 0x21 (barMsg p ch e) .nobody) s
    s.pressComplete ch

/-- R307: the root counts an arrival of its current or next epoch; false for any other, which is malformed. -/
def State.barArrive (s : State) (ch : PressId) (src : BitVec 10) (e : BitVec 32) : State × Bool :=
  let now := s.epoch32 ch
  if e != now && e != now + 1 then (s, false)
  else
    let l := s.arrivals ch e
    let l' := if l.contains src then l else l ++ [src]
    let rest : List BarArr := (s.barArr.get ch).filter (fun (a : BarArr) => a.epoch != e)
    let s := { s with barArr := s.barArr.set ch.val (rest ++ [({ epoch := e, srcs := l' } : BarArr)]) ch.isLt }
    (s.barCheck ch, true)

/-- R206, R207, R307: what follows when every local member has arrived. cfg: a PRESS_CFG has removed members, perhaps all (R208). -/
def State.pressCheck (s : State) (ch : PressId) (cfg : Bool := false) : State :=
  let held := match s.rs.capture with | some x => x.ch == ch | none => false
  if !(s.localDone ch || (cfg && s.members ch == 0)) || held then s
  else if !s.system ch then s.pressComplete ch
  else if s.barSent.getLsbD ch.val then s
  else
    let s := { s with barSent := s.barSent ||| BitVec.ofNat 4 (2 ^ ch.val) }
    if s.barRoot ch = s.straps.pos then (s.barArrive ch s.straps.pos (s.epoch32 ch)).1
    else s.sendSeq 0x20 (barMsg (s.barRoot ch) ch (s.epoch32 ch)) .nobody

/-- R307: BARREL with the current epoch completes a channel whose local members have arrived. -/
def State.barRelease (s : State) (ch : PressId) (e : BitVec 32) : State :=
  let held := match s.rs.capture with | some x => x.ch == ch | none => false
  if e == s.epoch32 ch && s.system ch && s.localDone ch && !held then s.pressComplete ch else s

/-- R374 step 6: the hold of a capture is lifted. -/
def State.liftHold (s : State) (ch : PressId) : State := ((s.updRs (fun z => { z with capture := none })).pressRelease ch).barCheck ch

/-- R206: an arrival enters the tree; a DRAIN arrival once its streams have ended and their requests have completed. -/
def execPressArrivalEnter (c : CoreId) (ch : PressId) (s : State) : Host.Outcome State Fault Refusal :=
  let k := s.core c
  let p := k.press ch
  let ready := p.waits.all (fun g => !k.openGens.contains g && !k.outstanding g)
  .next (if p.pending && !p.entered && ready && s.isMember c ch then
    (s.updCore c (fun k => k.updPress ch (fun x => { x with entered := true }))).pressCheck ch else s)

/-- R208: an arrival has been pending for TMO × 1,024 F-cycles. -/
def execPressTimeout (ch : PressId) (s : State) : Host.Outcome State Fault Refusal :=
  .next (if s.pressRuns ch && s.pkgFld 0x400000 15 0 != 0 then (s.pkgCount 0x400008 15 0 1).dieReport 0 0x6040 true 0 (BitVec.ofNat 128 ch.val) else s)

/-- R208: members leave a channel: a pending arrival is discarded; a removed core that waits is released with the others. -/
def State.removeMembers (s : State) (ch : PressId) (gone : W64) : State :=
  (List.finRange 64).foldl (fun s c =>
    if gone.getLsbD c.val then s.updCore c (fun k =>
      if k.pressWaits ch then k.updPress ch (fun x => { x with entered := false }) else k.updPress ch (fun _ => {}))
    else s) s

/-! ## The mangle ring -/

/-- R201: the core that a core sends to. -/
def ringNext (c : CoreId) : CoreId := ⟨c.val / 8 * 8 + (c.val % 8 + 1) % 8, by omega⟩

/-- R202: a ring descriptor: a fault with its address, or the area and the length. -/
def ringDesc (k : Core) (cm : Cap) (off : Nat) (perm : Nat) : Except (BitVec 16 × Nat) MgOp :=
  let x := k.tileNat off 32
  let area := bitsOf x 31 0
  let len := bitsOf x 63 32
  if !tileSpanOk cm pLD off 32 then .error (0x6011, off)
  else if decide (2 ^ 23 ≤ area) || area % 64 != 0 || len % 64 != 0 || decide (Config.tileBytes < len) || bitsOf x 255 96 != 0 then .error (0x6010, off)
  else if !tileSpanOk cm perm area len then .error (0x6011, area)
  else .ok { area := area, len := len, span := bitsOf x 95 64 }

def mMgPost (c : CoreId) (cM : CReg) (gA : GReg) (s : State) : Issue :=
  let k := s.core c
  match ringDesc k (k.getC cM) (k.getG gA).toNat pST with
  | .error (code, a) => .fault code (BitVec.ofNat 64 a)
  | .ok d => if k.mgPost.isSome then .hold .mgSlot else goCore c (fun k => { k with mgPost := some d })

def mMgRot (c : CoreId) (cM : CReg) (gA : GReg) (s : State) : Issue :=
  let k := s.core c
  match ringDesc k (k.getC cM) (k.getG gA).toNat pLD with
  | .error (code, a) => .fault code (BitVec.ofNat 64 a)
  | .ok d => if k.mgRot.isSome then .hold .mgSlot else goCore c (fun k => { k with mgRot := some d })

/-- R189, R202: both have ended; gD takes the fault code. -/
def mMgWait (c : CoreId) (gD : GReg) (s : State) : Issue :=
  let k := s.core c
  let l := k.mgPost.toList ++ k.mgRot.toList
  if l.all MgOp.ended then
    let code := (l.map MgOp.code).foldl (fun a b => if a = 0 then b else a) (0 : BitVec 16)
    goCore c (fun k => ({ k with mgPost := none, mgRot := none }).setG gD (code.setWidth 64))
  else .hold .mgWait

/-- R202, R204: a rotation starts when the next core has posted; it waits for a core in reset, and unequal lengths end both. -/
def execMgRotationStart (c : CoreId) (s : State) : Host.Outcome State Fault Refusal :=
  let n := ringNext c
  match (s.core c).mgRot with
  | none => .next s
  | some r =>
    if r.started || r.ended then .next s
    else if (s.core n).run == .inReset then
      .next (if r.held then s else (s.updCore c (fun k => { k with mgRot := some { r with held := true } })).updRegion (coreRegion c) (fun q => q.count 0x10008 15 0 1))
    else match (s.core n).mgPost with
      | none => .next s
      | some p =>
        if p.started || p.ended then .next s
        else if p.len ≠ r.len then
          let s := s.coreFault c 0x6030 0 (BitVec.ofNat 128 n.val)
          let s := s.updCore c (fun k => { k with mgRot := some { r with ended := true, held := false, code := 0x6030 } })
          let s := s.updCore n (fun k => { k with mgPost := some { p with ended := true, code := 0x6030 } })
          .next (s.updRegion (coreRegion c) (fun q => q.count 0x10008 31 16 1))
        else
          let s := s.updCore c (fun k => { k with mgRot := some { r with started := true, held := false } })
          .next (s.updCore n (fun k => { k with mgPost := some { p with started := true } }))

/-- R201: bytes move in words of 16 with their poison; tags are cleared (R159). -/
def ringCopy (src : Core) (a b : Nat) : Nat → Core → Core
  | 0, k => k
  | n + 1, k => (ringCopy src a b n k).tileWrite (b + 16 * n) (src.tileRead (a + 16 * n) 16) (src.tilePois (a + 16 * n) 16)

/-- R202: a rotation that has started ends. -/
def execMgRotationEnd (c : CoreId) (s : State) : Host.Outcome State Fault Refusal :=
  let n := ringNext c
  match (s.core c).mgRot, (s.core n).mgPost with
  | some r, some p =>
    if r.started && !r.ended && p.started && !p.ended then
      let src := s.core c
      let s := s.updCore n (fun k => { ringCopy src r.area p.area (r.len / 16) k with mgPost := some { p with ended := true } })
      let s := s.updCore c (fun k => { k with mgRot := some { r with ended := true } })
      .next (s.updRegion (coreRegion c) (fun q => q.count 0x10010 63 0 r.len))
    else .next s
  | _, _ => .next s

/-- R211: MG.STAT. -/
def State.mgStat (s : State) (r : RegionId) : Nat :=
  (List.range 8).foldl (fun n p =>
    let k := s.core ⟨(8 * r.val + p) % 64, by omega⟩
    let posted := match k.mgPost with | some x => !x.ended | none => false
    let held := match k.mgRot with | some x => x.held && !x.ended | none => false
    n + posted.toNat * 2 ^ (8 + p) + held.toNat * 2 ^ p) 0

end Sys2Proof.Machine
end

