-- ==== Sys2Proof/Machine/CoreRegs.lean ====
section
/-! DEFINITION. The registers of a core's block as they are read and written (R53 to R56, R84, R104, R129, R153, R181, R209, R231, R255,
R335): computed fields, classes, rejected writes, and what a write starts. -/

namespace Sys2Proof.Machine

/-! ## Reading -/

/-- R104: CORE.ACCTILE of tile i. -/
def Tile.stat (t : Tile) : Nat :=
  t.weltValid.toNat * 2 ^ 22 + t.anchSet.toNat * 2 ^ 21 + t.baseSet.toNat * 2 ^ 20 + t.anchor.toNat * 2 ^ 10 + t.base.toNat

/-- R104: CORE.ACCSTAT. FEQ counts one queued welt read for each vx.wrd, and none for a close, which holds its array till it has read
(DESIGN CHOICE, log 99). -/
def Core.accStat (k : Core) : Nat :=
  min 15 k.feq.length * 16 + arrays.foldl (fun n a => if (k.shadows.get a).isSome then n + 2 ^ a.val else n) 0

/-- R110, R129: CORE.VXSTAT. -/
def Core.vxStat (k : Core) : Nat :=
  let busy := (List.range k.vq.length).foldl (fun n i =>
    if vReady k i then n ||| 2 ^ ((k.vq[i]?).map (fun e => e.dep.unit)).getD 0 else n) 0
  let hold := match k.held with | some h => h.why == Held.tqEmpty | none => false
  hold.toNat * 2 ^ 9 + (busy &&& 0x1F0) + min 15 k.vq.length

/-- R153: CORE.SCSTAT. -/
def Core.scStat (k : Core) : Nat := k.storeBuf.length * 256 + k.pq.length * 32 + (k.products.any Product.divide).toNat * 16

/-- R231: CORE.TRSTAT. -/
def Core.trStat (k : Core) : Nat := k.tlb.length * 256 + min 4 k.walks.length * 16 + (!k.invPend.isEmpty).toNat

/-- R181: a word of a capability register in the register block. -/
def capWord (x : Cap) (hi : Bool) : W64 := BitVec.ofNat 64 (if hi then x.bits.toNat >>> 64 else x.bits.toNat)

/-- R6, R8: what a read of offset off returns: WO fields read 0, reserved offsets read 0. -/
def Core.readReg (k : Core) (off : Nat) : W64 :=
  if off = 0x1200 then BitVec.ofNat 64 k.mxStat
  else if off = 0x1308 then BitVec.ofNat 64 k.accStat
  else if 0x1340 ≤ off ∧ off < 0x1380 ∧ off % 8 = 0 then BitVec.ofNat 64 ((k.tiles.get (Fin.ofNat 8 ((off - 0x1340) / 8))).stat)
  else if off = 0x1408 then k.vl.setWidth 64
  else if off = 0x1410 then BitVec.ofNat 64 k.vxStat
  else if off = 0x1500 then BitVec.ofNat 64 k.scStat
  else if off = 0x1550 then BitVec.ofNat 64 k.rscap.addr
  else if off = 0x1638 ∨ off = 0x1640 then 0
  else if 0x1700 ≤ off ∧ off < 0x1800 ∧ off % 8 = 0 then capWord (k.getC (BitVec.ofNat 4 ((off - 0x1700) / 16))) (off / 8 % 2 = 1)
  else if 0x1800 ≤ off ∧ off < 0x1850 ∧ off % 8 = 0 then capWord (k.scap.get (Fin.ofNat 5 ((off - 0x1800) / 16))) (off / 8 % 2 = 1)
  else if off = 0x1900 then BitVec.ofNat 64 k.txStat
  else if off = 0x1A00 then BitVec.ofNat 64 k.trStat
  else k.reg off

/-! ## When the using blocks run (R50, R54, R84, R153) -/

/-- The hem stream that an entry of the vector queue draws from (R48). -/
def VEntry.hemUse (e : VEntry) : Option Nat :=
  match e.instr with
  | .vxDraw _ _ x | .vxDrawu _ _ x => some x.aux.toNat
  | _ => if e.drew then some 0 else none

/-- R50: a hem stream runs while something in flight draws from it. -/
def Core.hemRuns (k : Core) (s : Nat) : Bool :=
  k.vq.any (fun e => e.hemUse == some s) ||
    (s == 1 && arrays.any (fun a => match k.closes.get a with
      | some r => let f := dFld (k.tileAt a r.t).desc 0 5 4; f == 2 || (f == 3 && r.rnd == 2)
      | none => false))

/-- R7: the block that uses a Locked register of the core runs. -/
def Core.lockRuns (k : Core) (off : Nat) : Bool :=
  if 0x1100 ≤ off ∧ off < 0x1180 then k.hemRuns ((off - 0x1100) / 0x20)
  else if off = 0x1208 then k.mxRuns
  else if off = 0x1418 then !k.vq.isEmpty
  else k.run == .running

/-- R7: where rejected writes of a register are counted: the counter, its field and its REPORT bit. -/
def rejCounter (off : Nat) : Nat × Nat × Nat × Nat :=
  if off < 0x1200 then (rNUMREJ, 15, 0, 16)
  else if off < 0x1300 then (0x1210, 31, 16, 32)
  else if off < 0x1400 then (0x1320, 47, 32, 48)
  else if off < 0x1500 then (0x1420, 47, 32, 48)
  else if off < 0x1600 then (0x1580, 15, 0, 16)
  else if off < 0x1900 then (rEXCNT, 15, 0, 48)
  else (0x1918, 47, 32, 48)

def State.rejectReg (s : State) (c : CoreId) (off : Nat) : State :=
  let (r, hi, lo, rep) := rejCounter off
  s.rejectCore c r hi lo rep off

/-! ## Writing -/

/-- R54: Staged fields whose block is idle take effect at once. -/
def Core.numBoundary (k : Core) : Core :=
  let k := if k.vq.isEmpty then k.vBoundary else k
  if k.closes.toList.all Option.isNone then
    { k with aRnd := BitVec.ofNat 2 (k.fld rNUMCTL 3 2), aSat := k.fld rNUMCTL 4 4 = 1, aFit := k.fld rNUMCTL 5 5 = 1 }
  else k

/-- R46: the conversions in flight gather the beats they have finished, then VXAMAX is +0. -/
def Core.amaxClear (k : Core) (beats : List Nat) (fr : Nat) : Core := (k.vStop beats fr).setReg rVXAMAX 0

/-- R54: a write of 0b11 to VRND or ARND leaves that field unchanged and is rejected. -/
def State.writeNumctl (s : State) (c : CoreId) (new mask : Nat) : State :=
  let k := s.core c
  let bad (lo : Nat) : Bool := bitsOf new (lo + 1) lo == 3 && bitsOf mask (lo + 1) lo == 3
  let keep (lo : Nat) (m : Nat) : Nat := if bad lo then setBits m (lo + 1) lo 0 else m
  let m := keep 0 (keep 2 mask)
  let r := (findReg regsNum rNUMCTL).getD ⟨0, []⟩
  let w := regWrite r (fun _ => false) (k.reg rNUMCTL).toNat new m
  let s := s.updCore c (fun k => (k.setReg rNUMCTL (BitVec.ofNat 64 w.1)).numBoundary)
  let s := if (new &&& mask).testBit 6 then s.updCore c (fun k => k.amaxClear [] 0) else s
  if bad 0 || bad 2 then s.rejectReg c rNUMCTL else s

/-- R104: SLICES takes 1 to 8. -/
def State.writeAccctl (s : State) (c : CoreId) (new mask : Nat) : State :=
  let k := s.core c
  let n := bitsOf new 3 0
  let bad := bitsOf mask 3 0 == 15 && (n == 0 || decide (8 < n))
  let m := if bad then setBits mask 3 0 0 else mask
  let r := (findReg regsAcc 0x1300).getD ⟨0, []⟩
  let w := regWrite r (fun _ => false) (k.reg 0x1300).toNat new m
  let s := s.updCore c (fun k => (k.setReg 0x1300 (BitVec.ofNat 64 w.1)).mxBoundary)
  if bad then s.rejectReg c 0x1300 else s

/-- R181: a word of a capability. Cretas' write sets the tag; any other leaves the capability untagged (DEDUCED, log 51). -/
def capPut (x : Cap) (hi : Bool) (v mask : Nat) (tag : Bool) : Cap :=
  let old := (capWord x hi).toNat
  let w := (v &&& mask) ||| (old &&& (mask ^^^ (2 ^ 64 - 1)))
  { bits := BitVec.ofNat 128 (if hi then setBits x.bits.toNat 127 64 w else setBits x.bits.toNat 63 0 w), tag := tag }

def State.writeCapReg (s : State) (w : Writer) (c : CoreId) (off v mask : Nat) : State :=
  let k := s.core c
  let hi : Bool := off / 8 % 2 = 1
  let special := decide (0x1800 ≤ off)
  let x := if special then k.scap.get (Fin.ofNat 5 ((off - 0x1800) / 16)) else k.getC (BitVec.ofNat 4 ((off - 0x1700) / 16))
  let y := capPut x hi v mask (w == .cretas)
  if k.run == .running then (if y.bits = x.bits then s else s.rejectReg c off)
  else s.updCore c (fun k => if special then k.setScap (Fin.ofNat 5 ((off - 0x1800) / 16)) y else k.setC (BitVec.ofNat 4 ((off - 0x1700) / 16)) y)

/-- The bits of mask taken from new, the rest from old. -/
def mergeBits (old new mask : Nat) : Nat := (new &&& mask) ||| (old &&& (mask ^^^ (2 ^ 64 - 1)))

/-- R335: a core ends its part of the launch and halts. -/
def State.lexit (s : State) (c : CoreId) (v : W32) : State :=
  s.updCore c (fun k => { (k.setReg 0x1C00 (v.setWidth 64)) with run := .halted, held := none, launch := none })

/-- R6 to R8: a write of v to register offset off of a core's block, under the bits of mask. TXRES by Cretas has its own operation. -/
def State.writeCore (s : State) (w : Writer) (c : CoreId) (off : Nat) (v : W64) (mask : Nat) : State :=
  let k := s.core c
  let new := v.toNat
  if off = rNUMCTL then s.writeNumctl c new mask
  else if off = 0x1300 then s.writeAccctl c new mask
  else if off = rFRAMEKEYLO ∨ off = rFRAMEKEYHI then
    (if w == .cretas && k.run != .running then s.updCore c (fun k => k.setReg off (BitVec.ofNat 64 (mergeBits (k.reg off).toNat new mask)))
     else s.rejectReg c off)
  else if (0x1700 ≤ off ∧ off < 0x1850) ∧ off % 8 = 0 then s.writeCapReg w c off new mask
  else if off = 0x1910 then s.rejectReg c off
  else if off = 0x1A20 then s.trinv w c v
  else if off = 0x1C00 then s.lexit c (BitVec.ofNat 32 (mergeBits (k.reg off).toNat new mask))
  else match findReg coreRegs off with
    | none => s
    | some r =>
      let x := regWrite r (fun _ => k.lockRuns off) (k.reg off).toNat new mask
      let s := s.updCore c (fun k => k.setReg off (BitVec.ofNat 64 x.1))
      let s := if off = 0x1B00 && (new &&& mask).testBit 1 then s.updCore c Core.icinv else s
      let s := if off = 0x1B00 && (new &&& mask).testBit 0 then s.updCore c Core.dcinv else s
      if x.2 then s.rejectReg c off else s

def fullMask : Nat := 2 ^ 64 - 1

/-! ## Events -/

/-- R46. -/
def execAmaxclr (c : CoreId) (beats : List Nat) (s : State) : Host.Outcome State Fault Refusal :=
  let (fr, s) := s.free
  .next (s.updCore c (fun k => k.amaxClear beats fr))

/-- R335. -/
def execLexitWrite (c : CoreId) (v : W32) (s : State) : Host.Outcome State Fault Refusal := .next (s.lexit c v)

end Sys2Proof.Machine
end

