-- ==== Sys2Proof/Machine/Operands.lean ====
section
/-! DEFINITION. The operand forms: the addressing modes of slot 3 (R137), and the registers that each syllable reads and writes
(R130, R132, R141, R151). -/

namespace Sys2Proof.Machine

/-! ## Addressing modes (R137) -/

/-- The signed six-bit field, times the access size. -/
def memStep (m : MemF) (n : Nat) : W64 := BitVec.ofInt 64 (m.imm.toInt * n)

/-- R137: the effective address of an access of n bytes. -/
def memEa (m : MemF) (k : Core) (n : Nat) : W64 :=
  match m.mode.toNat with
  | 0 => k.getG m.gA + memStep m n
  | 1 => k.getG m.gA
  | 2 => k.getG m.gA - memStep m n
  | _ => k.getG m.gA + k.getG m.imm * BitVec.ofNat 64 n

/-- R137: the updated value of gA, in the modes that update it. -/
def memUpdate (m : MemF) (k : Core) (n : Nat) : Option W64 :=
  match m.mode.toNat with
  | 1 => some (k.getG m.gA + memStep m n)
  | 2 => some (memEa m k n)
  | _ => none

def memApply (m : MemF) (n : Nat) (old k : Core) : Core :=
  match memUpdate m old n with
  | some v => k.setG m.gA v
  | none => k

/-- R136: the size of a slot 3 access, and whether it stores. -/
def memSize : Instr → Nat
  | .ldB _ _ | .ldBu _ _ | .stB _ _ => 1
  | .ldH _ _ | .ldHu _ _ | .stH _ _ => 2
  | .ldW _ _ | .ldWu _ _ | .stW _ _ => 4
  | .ldD _ _ | .stD _ _ => 8
  | .ldC _ _ | .stC _ _ => 16
  | _ => 64

/-! ## Registers read and written -/

def memAddrRegs (m : MemF) : List GReg := m.gA :: (if m.mode = 3 then [m.imm] else [])
def memUpdRegs (m : MemF) : List GReg := if m.mode = 1 ∨ m.mode = 2 then [m.gA] else []

/-- The general registers that a syllable reads. -/
def srcRegs (i : Instr) : List GReg :=
  match i with
  | .jr _ a | .callr _ a | .bc _ a _ _ | .lpSet _ _ a _ | .ctlWr _ a _ => [a]
  | .add _ _ a b | .sub _ _ a b | .and _ _ a b | .or _ _ a b | .xor _ _ a b | .shl _ _ a b | .shr _ _ a b | .sra _ _ a b
  | .rotl _ _ a b | .min _ _ a b | .max _ _ a b | .minu _ _ a b | .maxu _ _ a b | .sel _ _ a b => [a, b]
  | .cmp _ _ a b _ => [a, b]
  | .addi _ _ a _ | .andi _ _ a _ | .ori _ _ a _ | .xori _ _ a _ | .shli _ _ a _ | .shri _ _ a _ | .srai _ _ a _
  | .cmpi _ _ a _ _ => [a]
  | .clz _ _ a | .ctz _ _ a | .popc _ _ a | .parity _ _ a => [a]
  | .brev _ _ a _ | .sext _ _ a _ | .zext _ _ a _ => [a]
  | .crc32c _ _ a b _ | .crc64 _ _ a b _ => [a, b]
  | .fcmp _ _ a b _ _ | .fmax _ _ a b _ | .fmin _ _ a b _ => [a, b]
  | .fcvt _ _ a _ _ _ => [a]
  | .movK _ d z _ _ => if z then [] else [d]
  | .capSeta _ _ _ b | .capAdda _ _ _ b | .capSetb _ _ _ b | .capSetbo _ _ _ b | .capAndp _ _ _ b => [b]
  | .capChk _ _ _ b _ => [b]
  | .ldB _ m | .ldBu _ m | .ldH _ m | .ldHu _ m | .ldW _ m | .ldWu _ m | .ldD _ m | .ldC _ m | .stC _ m | .pf _ m => memAddrRegs m
  | .stB _ m | .stH _ m | .stW _ m | .stD _ m => m.gD :: memAddrRegs m
  | .mulS _ a b | .mulU _ a b | .divS _ a b | .divU _ a b => [a, b]
  | .vxSetvl _ _ x | .vxExt _ _ x | .vxTqhdr _ _ x => [x.gY]
  | .vxLd _ _ x | .vxSt _ _ x | .vxLdx _ _ x | .vxStx _ _ x | .vxTqrd _ _ x | .vxBcst _ _ x | .vxSlc _ _ x => [x.gX]
  | .vxLds _ _ x | .vxSts _ _ x | .vxPackPnl _ _ x | .vxIns _ _ x | .vxWrd _ _ x => [x.gX, x.gY]
  | .mxLdd _ _ _ g | .mxOpen _ _ _ _ g | .mxStop _ _ g | .mxResume _ _ g => [g]
  | .txLast _ _ _ a | .txFuse _ _ _ a | .txWait _ _ a | .txTest _ _ a | .mgPost _ _ a | .mgRot _ _ a => [a]
  | .txStw _ _ a b | .txStp _ a b => [a, b]
  | _ => []

/-- The general registers that a syllable writes, the register that its addressing mode updates among them. -/
def dstRegs (i : Instr) : List GReg :=
  match i with
  | .ctlRd _ d _ => [d]
  | .add _ d _ _ | .sub _ d _ _ | .and _ d _ _ | .or _ d _ _ | .xor _ d _ _ | .shl _ d _ _ | .shr _ d _ _ | .sra _ d _ _
  | .rotl _ d _ _ | .min _ d _ _ | .max _ d _ _ | .minu _ d _ _ | .maxu _ d _ _ | .sel _ d _ _ => [d]
  | .cmp _ d _ _ _ => [d]
  | .addi _ d _ _ | .andi _ d _ _ | .ori _ d _ _ | .xori _ d _ _ | .shli _ d _ _ | .shri _ d _ _ | .srai _ d _ _
  | .cmpi _ d _ _ _ => [d]
  | .clz _ d _ | .ctz _ d _ | .popc _ d _ | .parity _ d _ => [d]
  | .brev _ d _ _ | .sext _ d _ _ | .zext _ d _ _ => [d]
  | .crc32c _ d _ _ _ | .crc64 _ d _ _ _ => [d]
  | .mfm _ d _ => [d]
  | .fcmp _ d _ _ _ _ | .fmax _ d _ _ _ | .fmin _ d _ _ _ => [d]
  | .fcvt _ d _ _ _ _ => [d]
  | .movK _ d _ _ _ => [d]
  | .capGetf _ d _ _ => [d]
  | .capChk _ d _ _ _ => [d]
  | .ldB _ m | .ldBu _ m | .ldH _ m | .ldHu _ m | .ldW _ m | .ldWu _ m | .ldD _ m => m.gD :: memUpdRegs m
  | .ldC _ m | .stB _ m | .stH _ m | .stW _ m | .stD _ m | .stC _ m | .pf _ m => memUpdRegs m
  | .vxSetvl _ _ x | .vxTqhdr _ _ x | .vxExt _ _ x | .vxMpop _ _ x | .vxMfirst _ _ x | .vxRsum _ _ x | .vxRmax _ _ x
  | .vxRmin _ _ x | .vxRsumi _ _ x => [x.gX]
  | .mxWait _ d _ _ => [d]
  | .mxStat _ d => [d]
  | .txLast _ d _ _ | .txFuse _ d _ _ => [d]
  | .txWait _ d _ | .txTest _ d _ => [d]
  | .txStw _ d _ _ => [d]
  | .mgWait _ d => [d]
  | _ => []

/-- The capability registers that a syllable reads or writes: one whose ld.c has not landed holds the bundle, as a general
register would (DEDUCED from R141, log 52). -/
def capRegs (i : Instr) : List CReg :=
  match i with
  | .capGetf _ _ a _ => [a]
  | .capChk _ _ a _ _ => [a]
  | .capSeta _ d a _ | .capAdda _ d a _ | .capSetb _ d a _ | .capSetbo _ d a _ | .capAndp _ d a _ => [d, a]
  | .capMv _ d a | .capClrt _ d a => [d, a]
  | .capSeal _ d a b | .capUnseal _ d a b => [d, a, b]
  | .capRds _ d _ => [d]
  | .capWrs _ _ a => [a]
  | .ldB _ m | .ldBu _ m | .ldH _ m | .ldHu _ m | .ldW _ m | .ldWu _ m | .ldD _ m | .stB _ m | .stH _ m | .stW _ m
  | .stD _ m | .pf _ m => [m.cM]
  | .ldC _ m | .stC _ m => [m.cM, m.gD.setWidth 4]
  | .vxLd _ _ x | .vxSt _ _ x | .vxLds _ _ x | .vxSts _ _ x | .vxLdx _ _ x | .vxStx _ _ x | .vxPackPnl _ _ x
  | .vxWrd _ _ x => [x.cM]
  | .mxLdd _ _ m _ => [m]
  | .mxOpen _ _ _ m _ => [m]
  | .mxStop _ m _ | .mxResume _ m _ => [m]
  | .txLast _ _ m _ | .txFuse _ _ m _ | .mgPost _ m _ | .mgRot _ m _ => [m]
  | _ => []

/-- A general register written other than g0. -/
def dstReal (i : Instr) : List GReg := (dstRegs i).filter (fun r => r != 0)

end Sys2Proof.Machine
end

