-- ==== Sys2Proof/Machine/Fetch.lean ====
section
/-! DEFINITION. Fetching bundles (R130 to R132, R139, R160): the words at a code address, the form of a bundle, and the prefetch
queue. -/

namespace Sys2Proof.Machine

/-- R56: a window offset of the hem registers of a core. -/
def hemOffset (off : Nat) : Bool :=
  decide (0x10000000 ≤ off) && decide (off < 0x11000000) && decide (0x1100 ≤ off % 0x80000) && decide (off % 0x80000 < 0x1180)

/-- R22: an access of n bytes at offset off of a die's on-chip window that completes as one to a reserved address. -/
def winReserved (d : DieId) (off n : Nat) : Bool :=
  if off < 0x10000000 then decide (0x600000 ≤ off % 0x800000) || decide (off % 0x800000 + n > 0x600000)
  else if off < 0x14800000 then
    !((n == 4 || n == 8) && off % n == 0) || (n != 8 && hemOffset off) || (d == 1 && decide (0x13000000 ≤ off) && decide (off < 0x13800000))
  else true

/-- R214: the frame mask refuses a fetch that the L1I does not serve. -/
def State.fetchRefused (s : State) (c : CoreId) (ctx : BitVec 4) (key : Nat) : Bool :=
  !(s.core c).l1i.any (fun l => l.key == key) && s.lineRefused (coreCluster c) ctx key

/-- One code word (R160): the PCC allows it, and its address translates for a fetch. A window's registers hold no code. The poisoned
data of a refused fetch have no stated value (R214, log 45). -/
def State.codeWord (s : State) (c : CoreId) (a : Nat) : Except (BitVec 16 × W64) W32 :=
  let k := s.core c
  if a % 4 ≠ 0 || !k.pcc.allows [pEX] a 4 then .error (0x1015, BitVec.ofNat 64 a)
  else if k.pcc.tile then
    (if a + 4 ≤ Config.tileBytes then .ok (BitVec.ofNat 32 (k.tileNat a 4)) else .error (0x1015, BitVec.ofNat 64 a))
  else match s.translate c k.pcc.ctx a .fetch with
    | .fault f => .error (f, BitVec.ofNat 64 a)
    | .ok x _ =>
      match paKind x.pa with
      | .dev =>
        if s.fetchRefused c k.pcc.ctx (x.pa / 64) then .ok (BitVec.ofNat 32 (Config.freeNat s.freeCtr / 2 ^ (8 * (a % 64))))
        else .ok (BitVec.ofNat 32 (leNat (s.peek false x.pa 4).1))
      | .win d off =>
        if off < 0x10000000 && !winReserved d off 4 then
          .ok (BitVec.ofNat 32 ((s.core (Fin.ofNat 64 (32 * d.val + off / 0x800000))).tileNat (off % 0x800000) 4))
        else .error (0x7011, BitVec.ofNat 64 a)
      | _ => .error (0x7011, BitVec.ofNat 64 a)

def stopBit (w : W32) : Bool := w.getLsbD 31
def slotOfW (w : W32) : Nat := bitsOf w.toNat 30 28

/-- The words of the bundle at a: up to the one with STOP = 1, at most eight. -/
def codeWords (rd : Nat → Except (BitVec 16 × W64) W32) : Nat → Nat → Except (BitVec 16 × W64) (List W32)
  | 0, _ => .ok []
  | n + 1, a =>
    match rd a with
    | .error e => .error e
    | .ok w =>
      if stopBit w then .ok [w]
      else match codeWords rd n (a + 4) with
        | .error e => .error e
        | .ok l => .ok (w :: l)

/-- A syllable of a bundle with its extension. -/
structure Syl where
  word : W32
  ext  : Option W32
deriving DecidableEq, Repr

def Syl.slot (y : Syl) : Nat := slotOfW y.word
def Syl.words (y : Syl) : Nat := if y.ext.isSome then 2 else 1
def Syl.dec (y : Syl) (c : CoreId) : DecRes := decodeSyl c y.slot (y.word.toNat % 2 ^ 28) (y.ext.map (fun e => e.toNat % 2 ^ 28))

/-- R131: the syllables of a bundle up to the first word at which its order, its extensions or its end break the rule, and that
word. prev: the slot of the syllable before, plus 1. -/
def syllables : List W32 → Nat → List Syl × Option W32
  | [], _ => ([], none)
  | [w], prev =>
    if slotOfW w < prev || (slotOfW w == 5 && w.getLsbD 27) || !stopBit w then ([], some w) else ([⟨w, none⟩], none)
  | w :: x :: r, prev =>
    if slotOfW w < prev then ([], some w)
    else if slotOfW w == 5 && w.getLsbD 27 then
      (if slotOfW x != 5 || (r.isEmpty && !stopBit x) then ([], some w)
       else let l := syllables r 6; (⟨w, some x⟩ :: l.1, l.2))
    else let l := syllables (x :: r) (slotOfW w + 1); (⟨w, none⟩ :: l.1, l.2)

/-- R131: a list of destination registers names one register twice. -/
def namesTwice : List GReg → Bool
  | [] => false
  | r :: l => l.contains r || namesTwice l

/-- R131, R151: the first syllable that writes a register already written in the bundle, or whose extension is missing or
superfluous. -/
def clash (c : CoreId) : List Syl → List GReg → Option W32
  | [], _ => none
  | y :: r, seen =>
    match y.dec c with
    | .illegal => some y.word
    | .reserved => clash c r seen
    | .ok i => if namesTwice (dstReal i ++ seen) then some y.word else clash c r (dstReal i ++ seen)

/-- A bundle that keeps R131, or the first syllable at which it breaks the rule. -/
def bundleOf (c : CoreId) (ws : List W32) : Except W32 (List Syl) :=
  let l := syllables ws 0
  match clash c l.1 [], l.2 with
  | some w, _ => .error w
  | none, some w => .error w
  | none, none => .ok l.1

/-! ## The prefetch queue (R139) -/

/-- The fetch of one bundle: its words, the lines of the L1I filled and the translation kept (R219, R235). -/
def State.fetchFill (s : State) (c : CoreId) (a n : Nat) : State :=
  let k := s.core c
  if k.pcc.tile then s
  else (List.range ((a + 4 * n - 1) / 64 + 1 - a / 64)).foldl (fun s i =>
    let va := max a (64 * (a / 64 + i))
    match s.translate c k.pcc.ctx va .fetch with
    | .fault _ => s
    | .ok x w =>
      let s := s.noteWalk c w
      if x.nc || x.host || paKind x.pa != .dev then s
      else
        let key := x.pa / 64
        if s.fetchRefused c k.pcc.ctx key then s.free.2.coreFault c 0x7031 (BitVec.ofNat 64 x.pa)
        else match (s.core c).l1i.find? (fun l => l.key == key) with
        | some l => s.updCore c (fun k => { k with l1i := l :: k.l1i.filter (fun y => y.key != key) })
        | none =>
          let (d, s) := s.cohRead (coreCluster c) key true true
          s.l1iFill c { key := key, d := d }) s

def State.fetchAt (s : State) (c : CoreId) (a : Nat) : Except (BitVec 16 × W64) (List W32) := codeWords (s.codeWord c) 8 a

/-- R139: up to m bundles stand in the queue from address a on, which holds 4 at most; a fetch that would fault is not made. -/
def State.fetchAhead : Nat → State → CoreId → Nat → State
  | 0, s, _, _ => s
  | m + 1, s, c, a =>
    match (s.core c).pq.find? (fun f => f.addr.toNat == a) with
    | some f => State.fetchAhead m s c (a + 4 * f.syls.length)
    | none =>
      if 4 ≤ (s.core c).pq.length then s
      else match s.fetchAt c a with
      | .error _ => s
      | .ok ws => State.fetchAhead m ((s.fetchFill c a ws.length).updCore c (fun k => { k with pq := k.pq ++ [⟨BitVec.ofNat 64 a, ws⟩] })) c (a + 4 * ws.length)

end Sys2Proof.Machine
end

