-- ==== Sys2Proof/Machine/Flags.lean ====
section
/-! DEFINITION. The conditions that scalar instructions compute: comparisons, signed overflow, the divide corners and the scalar
numeric flags (R133 to R135, R147, R51). -/

namespace Sys2Proof.Machine

/-- R133: the condition of bc.cc. -/
def bcHolds (cc : BitVec 3) (a : W64) : Bool :=
  match cc.toNat with
  | 0 => a == 0
  | 1 => a != 0
  | 2 => a.msb
  | 3 => !a.msb
  | 4 => !a.msb && a != 0
  | 5 => a.msb || a == 0
  | 6 => !a.getLsbD 0
  | _ => a.getLsbD 0

/-- R134: the condition of cmp.cc. -/
def cmpHolds (cc : BitVec 4) (a b : W64) : Bool :=
  match cc.toNat with
  | 0 => a == b
  | 1 => a != b
  | 2 => a.slt b
  | 3 => !(a.slt b)
  | 4 => a.ult b
  | _ => !(a.ult b)

def boolWord (b : Bool) : W64 := if b then 1 else 0

/-- R135: the signed sum, or difference, of two registers does not fit 64 bits. -/
def addOvf (a b : W64) : Bool := decide (a.toInt + b.toInt < -(2 ^ 63 : Int)) || decide ((2 ^ 63 : Int) ≤ a.toInt + b.toInt)
def subOvf (a b : W64) : Bool := decide (a.toInt - b.toInt < -(2 ^ 63 : Int)) || decide ((2 ^ 63 : Int) ≤ a.toInt - b.toInt)

/-- R181: the trap enables of CORE.ARITHCTL. -/
def Core.divTrap (k : Core) : Bool := k.fld rARITHCTL 0 0 = 1
def Core.ovfTrap (k : Core) : Bool := k.fld rARITHCTL 1 1 = 1

/-- R147: div.s of −2^63 by −1. -/
def divOvf (a b : W64) : Bool := a == BitVec.ofNat 64 (2 ^ 63) && b == BitVec.allOnes 64

/-- The format code of a scalar floating-point operand (R134). -/
def scalarFmt (f : Nat) : FFmt := if f = 0 then fp32 else if f = 1 then fp64 else if f = 2 then fp16 else bf16

/-- R134, R40: the condition of fcmp.cc, with the invalid flag (a signalling NaN). -/
def fcmpHolds (f : FFmt) (cc : BitVec 2) (x y : Nat) : Bool × Bool :=
  let a := f.decode x
  let b := f.decode y
  let un := a.isNaN || b.isNaN
  let r := match cc.toNat with
    | 0 => !un && cmpVal a b == .eq
    | 1 => !un && cmpVal a b == .lt
    | 2 => !un && cmpVal a b != .gt
    | _ => un
  (r, a.isSNaN || b.isSNaN)

/-- R134: round to an integer in 64 bits: a value out of range saturates with NV, a NaN gives 0 with NV. A finite value that saturates
sets OF and NX as well (R51: an integer conversion's overflow, every saturation). -/
def toInt64 (signed : Bool) (r : Rnd) (x : XRes) : Nat × NF :=
  let hi : Nat := if signed then 2 ^ 63 - 1 else 2 ^ 64 - 1
  let lo : Nat := if signed then 2 ^ 63 else 0        -- the magnitude of the least value
  let put (neg : Bool) (t : Nat) : Nat := if neg then (2 ^ 64 - t) % 2 ^ 64 else t
  match x with
  | .nan _ => (0, { nv := true })
  | .inf s _ => (if s then put true lo else hi, { nv := true })
  | .num s m e st =>
    let (t, lost) := roundAt r m e 0 st
    if s && decide (lo < t) then (put true lo, { nv := true, ov := true, nx := true })
    else if !s && decide (hi < t) then (hi, { nv := true, ov := true, nx := true })
    else (put s t, { nx := lost })

/-- R134: the value of fcvt's source: a float in the low bits, or an integer. -/
def fcvtSrc (from_ : Nat) (x : W64) : XRes :=
  if from_ = 4 then .num x.msb x.toInt.natAbs 0 false
  else if from_ = 5 then .num false x.toNat 0 false
  else ((scalarFmt from_).decode x.toNat).exact

/-- R134: fcvt. -/
def fcvtTo (from_ to_ : Nat) (rnd : BitVec 2) (x : W64) : Nat × NF :=
  let r : Rnd := if rnd = 0 then .rne else .rtz
  let v := fcvtSrc from_ x
  if to_ = 4 then toInt64 true r v
  else if to_ = 5 then toInt64 false r v
  else let e := (scalarFmt to_).write r false v; (e.bits, e.fl)

end Sys2Proof.Machine
end

