-- ==== Sys2Proof/Machine/Scalar.lean ====
section
/-! DEFINITION. The scalar instructions of slots 0, 1, 2 and 4 (R133 to R135, R138, R146 to R150, R163, R164), one meaning for
each: what it holds for, the fault it takes, or its effect. n is the length of the bundle in syllables. -/

namespace Sys2Proof.Machine

/-- The result v of an instruction that writes gD. -/
def putG (c : CoreId) (gD : GReg) (v : W64) : Issue := goCore c (fun k => k.setG gD v)

/-! ## Slot 0: branch and control -/

def Core.pc (k : Core) : Nat := k.pcc.addr

/-- R133: a target within the code capability, on a syllable boundary (DEDUCED from R130, log 53). -/
def Core.targetOk (k : Core) (t : Nat) : Bool := t % 4 == 0 && k.pcc.allows [pEX] t 4

/-- R133, R141: branch to t; the prefetch queue is flushed. -/
def branchTo (c : CoreId) (t : Nat) (upd : Core → Core) (s : State) : Issue :=
  let k := s.core c
  if k.targetOk t then goCore c (fun q => ((upd q).setScap 0 (k.pcc.moved t)).flushQueue) else .fault 0x1015 (BitVec.ofNat 64 t)

/-- The address d syllables from the bundle (R133). -/
def Core.disp (k : Core) (d : Int) : Nat := (BitVec.ofInt 64 ((k.pc : Int) + 4 * d)).toNat

def mNop (c : CoreId) (s : State) : Issue := .go id

def mBr (c : CoreId) (disp : BitVec 22) (s : State) : Issue := branchTo c ((s.core c).disp disp.toInt) id s

/-- R146: an entry of the return stack at a lies within RSCAP, in tile memory outside the emergency area (R160, R161). -/
def Core.retSlotOk (k : Core) (a : Int) : Bool :=
  let r := k.rscap
  decide (0 ≤ a) && r.tagged && r.seal == 0 && r.tile && decide ((r.base : Int) ≤ a) && decide (a + 8 ≤ r.top) &&
    decide (a + 8 ≤ Config.tileBytes) && !inEmergency a.toNat 8

/-- R146: push the address of the next bundle. -/
def Core.push (k : Core) (ret : Nat) : Core :=
  let a := k.rscap.addr - 8
  let q := (k.tileWrite a (leBytes 8 ret)).setScap 1 (k.rscap.moved a)
  { q with retBuf := (BitVec.ofNat 64 ret :: q.retBuf).take 8 }

def callTo (c : CoreId) (n t : Nat) (s : State) : Issue :=
  let k := s.core c
  if !k.retSlotOk ((k.rscap.addr : Int) - 8) then .fault 0x1020 0
  else branchTo c t (fun q => q.push ((k.pc + 4 * n) % 2 ^ 64)) s

def mCall (c : CoreId) (disp : BitVec 22) (n : Nat) (s : State) : Issue := callTo c n ((s.core c).disp disp.toInt) s

def mRet (c : CoreId) (s : State) : Issue :=
  let k := s.core c
  let a := k.rscap.addr
  if !k.retSlotOk a then .fault 0x1021 0
  else branchTo c (k.tileNat a 8) (fun q => { (q.setScap 1 (k.rscap.moved (a + 8))) with retBuf := q.retBuf.drop 1 }) s

def mJr (c : CoreId) (gA : GReg) (s : State) : Issue := branchTo c ((s.core c).getG gA).toNat id s

def mCallr (c : CoreId) (gA : GReg) (n : Nat) (s : State) : Issue := callTo c n ((s.core c).getG gA).toNat s

def mBc (c : CoreId) (gA : GReg) (cc : BitVec 3) (disp : BitVec 13) (s : State) : Issue :=
  let k := s.core c
  if bcHolds cc (k.getG gA) then branchTo c (k.disp disp.toInt) id s else .go id

/-- R138: start a counted loop, or branch past the bundle at its end when the count is 0. -/
def mLpSet (c : CoreId) (n : BitVec 1) (gA : GReg) (disp : BitVec 13) (len : Nat) (s : State) : Issue :=
  let k := s.core c
  let cnt := k.getG gA
  let le := (k.pc + 4 * disp.toNat) % 2 ^ 64
  let set (q : Core) : Core :=
    { (((q.setReg (rLC n.toNat) cnt).setReg (rLS n.toNat) (BitVec.ofNat 64 (k.pc + 4 * len))).setReg (rLE n.toNat) (BitVec.ofNat 64 le)) with
      lpLast := n == 1 }
  if cnt = 0 then
    match s.fetchAt c le with
    | .error (f, a) => .fault f a
    | .ok ws => branchTo c ((le + 4 * ws.length) % 2 ^ 64) set s
  else goCore c set

def ctlOff (idx : BitVec 12) : Nat := 0x1000 + 8 * idx.toNat

def mCtlRd (c : CoreId) (gD : GReg) (idx : BitVec 12) (s : State) : Issue := putG c gD ((s.core c).readReg (ctlOff idx))

/-- R181: the fields marked SYS of a core register. -/
def sysMask (off : Nat) : Nat := if off = rEXCTL then 0xFF01 else if off = rEXTIMER then fullMask else 0

/-- R141, R181: a ctl.wr that would change a SYS field needs a PCC with SYS; a loop address written flushes the prefetch queue. -/
def mCtlWr (c : CoreId) (gA : GReg) (idx : BitVec 12) (s : State) : Issue :=
  let k := s.core c
  let off := ctlOff idx
  let v := k.getG gA
  if !k.pcc.perm pSYS && (v.toNat &&& sysMask off) != ((k.reg off).toNat &&& sysMask off) then .fault 0x1043 0
  else .go (fun s =>
    let s := s.writeCore (.agent c) c off v fullMask
    if off ∈ [rLS 0, rLE 0, rLS 1, rLE 1] then s.updCore c Core.flushQueue else s)

/-- R166: a system call is an exception of class 1, taken after its bundle. -/
def mSys (c : CoreId) (imm : BitVec 16) (s : State) : Issue := goCore c (fun q => { q with exc := some { cls := 1, code := imm } })

def mFence (c : CoreId) (s : State) : Issue :=
  let k := s.core c
  if k.storeBuf.isEmpty && k.lateLoads.isEmpty then .go id else .hold .fence

/-- R133, R167: an interrupt is pending when CORE.EXPEND holds a source. -/
def mIdle (c : CoreId) (s : State) : Issue := if (s.core c).fld rEXPEND 7 0 = 0 then .hold .idle else .go id

/-! ## Slots 1 and 2: integer -/

/-- R135: a wrapping sum that traps on signed overflow where the trap is enabled. -/
def ovfPut (c : CoreId) (gD : GReg) (v : W64) (ovf : Bool) (s : State) : Issue :=
  if ovf && (s.core c).ovfTrap then .fault 0x1031 0 else putG c gD v

def mAdd (c : CoreId) (gD gA gB : GReg) (s : State) : Issue :=
  let a := (s.core c).getG gA
  let b := (s.core c).getG gB
  ovfPut c gD (a + b) (addOvf a b) s
def mSub (c : CoreId) (gD gA gB : GReg) (s : State) : Issue :=
  let a := (s.core c).getG gA
  let b := (s.core c).getG gB
  ovfPut c gD (a - b) (subOvf a b) s
def mAddi (c : CoreId) (gD gA : GReg) (imm : BitVec 10) (s : State) : Issue :=
  let a := (s.core c).getG gA
  ovfPut c gD (a + imm.signExtend 64) (addOvf a (imm.signExtend 64)) s

/-- An operation on two registers, or on a register and an immediate. -/
def alu2 (c : CoreId) (gD gA gB : GReg) (f : W64 → W64 → W64) (s : State) : Issue :=
  putG c gD (f ((s.core c).getG gA) ((s.core c).getG gB))
def aluI (c : CoreId) (gD gA : GReg) (b : W64) (f : W64 → W64 → W64) (s : State) : Issue := putG c gD (f ((s.core c).getG gA) b)
def alu1 (c : CoreId) (gD gA : GReg) (f : W64 → W64) (s : State) : Issue := putG c gD (f ((s.core c).getG gA))

/-- Shift amounts are taken mod 64 (R134). -/
def shlW (a b : W64) : W64 := a <<< (b.toNat % 64)
def shrW (a b : W64) : W64 := a >>> (b.toNat % 64)
def sraW (a b : W64) : W64 := a.sshiftRight (b.toNat % 64)
def rotlW (a b : W64) : W64 := a.rotateLeft (b.toNat % 64)
def minW (a b : W64) : W64 := if a.slt b then a else b
def maxW (a b : W64) : W64 := if a.slt b then b else a
def minuW (a b : W64) : W64 := if a.ult b then a else b
def maxuW (a b : W64) : W64 := if a.ult b then b else a

def mAnd (c : CoreId) (gD gA gB : GReg) (s : State) : Issue := alu2 c gD gA gB (· &&& ·) s
def mOr (c : CoreId) (gD gA gB : GReg) (s : State) : Issue := alu2 c gD gA gB (· ||| ·) s
def mXor (c : CoreId) (gD gA gB : GReg) (s : State) : Issue := alu2 c gD gA gB (· ^^^ ·) s
def mShl (c : CoreId) (gD gA gB : GReg) (s : State) : Issue := alu2 c gD gA gB shlW s
def mShr (c : CoreId) (gD gA gB : GReg) (s : State) : Issue := alu2 c gD gA gB shrW s
def mSra (c : CoreId) (gD gA gB : GReg) (s : State) : Issue := alu2 c gD gA gB sraW s
def mRotl (c : CoreId) (gD gA gB : GReg) (s : State) : Issue := alu2 c gD gA gB rotlW s
def mMin (c : CoreId) (gD gA gB : GReg) (s : State) : Issue := alu2 c gD gA gB minW s
def mMax (c : CoreId) (gD gA gB : GReg) (s : State) : Issue := alu2 c gD gA gB maxW s
def mMinu (c : CoreId) (gD gA gB : GReg) (s : State) : Issue := alu2 c gD gA gB minuW s
def mMaxu (c : CoreId) (gD gA gB : GReg) (s : State) : Issue := alu2 c gD gA gB maxuW s
def mCmp (c : CoreId) (gD gA gB : GReg) (cc : BitVec 4) (s : State) : Issue := alu2 c gD gA gB (fun a b => boolWord (cmpHolds cc a b)) s
/-- R134: gD = gB if gA ≠ 0; otherwise gD is unchanged. -/
def mSel (c : CoreId) (gD gA gB : GReg) (s : State) : Issue :=
  if (s.core c).getG gA = 0 then .go id else putG c gD ((s.core c).getG gB)
def mAndi (c : CoreId) (gD gA : GReg) (imm : BitVec 10) (s : State) : Issue := aluI c gD gA (imm.signExtend 64) (· &&& ·) s
def mOri (c : CoreId) (gD gA : GReg) (imm : BitVec 10) (s : State) : Issue := aluI c gD gA (imm.signExtend 64) (· ||| ·) s
def mXori (c : CoreId) (gD gA : GReg) (imm : BitVec 10) (s : State) : Issue := aluI c gD gA (imm.signExtend 64) (· ^^^ ·) s
def mShli (c : CoreId) (gD gA : GReg) (amt : BitVec 6) (s : State) : Issue := aluI c gD gA (amt.setWidth 64) shlW s
def mShri (c : CoreId) (gD gA : GReg) (amt : BitVec 6) (s : State) : Issue := aluI c gD gA (amt.setWidth 64) shrW s
def mSrai (c : CoreId) (gD gA : GReg) (amt : BitVec 6) (s : State) : Issue := aluI c gD gA (amt.setWidth 64) sraW s
def mCmpi (c : CoreId) (gD gA : GReg) (cc : BitVec 4) (imm : BitVec 6) (s : State) : Issue :=
  aluI c gD gA (imm.signExtend 64) (fun a b => boolWord (cmpHolds cc a b)) s

/-- Counts of bits. -/
def clzN (x : Nat) : Nat := if x = 0 then 64 else 63 - Nat.log2 x
def ctzN (x : Nat) : Nat := ((List.range 64).find? (fun i => x.testBit i)).getD 64
def popN (x : Nat) : Nat := ((List.range 64).filter (fun i => x.testBit i)).length
/-- R150: bits n − 1 to 0 in reverse order. -/
def brevN (x n : Nat) : Nat := (List.range n).foldl (fun r i => if x.testBit i then r + 2 ^ (n - 1 - i) else r) 0

def mClz (c : CoreId) (gD gA : GReg) (s : State) : Issue := alu1 c gD gA (fun a => BitVec.ofNat 64 (clzN a.toNat)) s
def mCtz (c : CoreId) (gD gA : GReg) (s : State) : Issue := alu1 c gD gA (fun a => BitVec.ofNat 64 (ctzN a.toNat)) s
def mPopc (c : CoreId) (gD gA : GReg) (s : State) : Issue := alu1 c gD gA (fun a => BitVec.ofNat 64 (popN a.toNat)) s
def mParity (c : CoreId) (gD gA : GReg) (s : State) : Issue := alu1 c gD gA (fun a => BitVec.ofNat 64 (popN a.toNat % 2)) s
def mBrev (c : CoreId) (gD gA : GReg) (imm : BitVec 6) (s : State) : Issue :=
  alu1 c gD gA (fun a => BitVec.ofNat 64 (brevN a.toNat (imm.toNat + 1))) s

/-- The width that SUB[1:0] names: 8, 16 or 32 bits. -/
def extBits (sz : BitVec 2) : Nat := 8 * 2 ^ sz.toNat
def mSext (c : CoreId) (gD gA : GReg) (sz : BitVec 2) (s : State) : Issue :=
  alu1 c gD gA (fun a => (BitVec.ofNat (extBits sz) a.toNat).signExtend 64) s
def mZext (c : CoreId) (gD gA : GReg) (sz : BitVec 2) (s : State) : Issue :=
  alu1 c gD gA (fun a => (BitVec.ofNat (extBits sz) a.toNat).setWidth 64) s

/-- R149: the state from gA and 1, 2, 4 or 8 bytes of gB. -/
def mCrc32c (c : CoreId) (gD gA gB : GReg) (sz : BitVec 2) (s : State) : Issue :=
  alu2 c gD gA gB (fun a b => BitVec.ofNat 64 (crcStep (a.toNat % 2 ^ 32) b.toNat (2 ^ sz.toNat) polyCrc32c)) s
def mCrc64 (c : CoreId) (gD gA gB : GReg) (sz : BitVec 2) (s : State) : Issue :=
  alu2 c gD gA gB (fun a b => BitVec.ofNat 64 (crcStep a.toNat b.toNat (2 ^ sz.toNat) polyCrc64)) s

/-- R148: what MLO or MHI holds in D; a product in flight has not landed, and one that lands while the bundle is held in M comes too
late. -/
def Core.readProduct (k : Core) : W64 × W64 := (k.held.bind HeldAt.prod).getD (k.reg rMLO, k.reg rMHI)

def mMfm (c : CoreId) (gD : GReg) (hi : Bool) (s : State) : Issue :=
  putG c gD (if hi then (s.core c).readProduct.2 else (s.core c).readProduct.1)

/-- A scalar floating-point result with its flags (R51). -/
def putF (c : CoreId) (gD : GReg) (v : Nat) (fl : NF) : Issue := goCore c (fun k => (k.setG gD (BitVec.ofNat 64 v)).raiseFlags 0 fl)

def mFcmp (c : CoreId) (gD gA gB : GReg) (fmt cc : BitVec 2) (s : State) : Issue :=
  let r := fcmpHolds (scalarFmt fmt.toNat) cc ((s.core c).getG gA).toNat ((s.core c).getG gB).toNat
  putF c gD r.1.toNat { nv := r.2 }

/-- The operand's low bits, in its format. -/
def Core.getF (k : Core) (f : FFmt) (r : GReg) : Nat := (k.getG r).toNat % 2 ^ f.width

def mFmax (c : CoreId) (gD gA gB : GReg) (fmt : BitVec 2) (s : State) : Issue :=
  let f := scalarFmt fmt.toNat
  let r := f.maxMin true ((s.core c).getF f gA) ((s.core c).getF f gB)
  putF c gD r.1 { nv := r.2 }
def mFmin (c : CoreId) (gD gA gB : GReg) (fmt : BitVec 2) (s : State) : Issue :=
  let f := scalarFmt fmt.toNat
  let r := f.maxMin false ((s.core c).getF f gA) ((s.core c).getF f gB)
  putF c gD r.1 { nv := r.2 }

def mFcvt (c : CoreId) (gD gA : GReg) (ffrom fto : BitVec 3) (rnd : BitVec 2) (s : State) : Issue :=
  let r := fcvtTo ffrom.toNat fto.toNat rnd ((s.core c).getG gA)
  putF c gD r.1 r.2

/-- R134: an immediate into one quarter of gD. -/
def mMovK (c : CoreId) (gD : GReg) (z : Bool) (pos : BitVec 2) (imm : BitVec 16) (s : State) : Issue :=
  let old := if z then 0 else ((s.core c).getG gD).toNat
  putG c gD (BitVec.ofNat 64 (setBits old (16 * pos.toNat + 15) (16 * pos.toNat) imm.toNat))

/-! ## Slot 4: multiply and divide (R147) -/

/-- A multiply or divide is held while a divide runs (R141); its result lands later (R148). -/
def issueProduct (c : CoreId) (p : Product) (f : Option (BitVec 16)) (s : State) : Issue :=
  if (s.core c).products.any Product.divide then .hold .divide
  else match f with
    | some code => .fault code 0
    | none => goCore c (fun k => { k with products := k.products ++ [p] })

def mMulS (c : CoreId) (gA gB : GReg) (s : State) : Issue :=
  let p := BitVec.ofInt 128 (((s.core c).getG gA).toInt * ((s.core c).getG gB).toInt)
  issueProduct c { lo := p.setWidth 64, hi := (p >>> 64).setWidth 64, divide := false } none s
def mMulU (c : CoreId) (gA gB : GReg) (s : State) : Issue :=
  let p := BitVec.ofNat 128 (((s.core c).getG gA).toNat * ((s.core c).getG gB).toNat)
  issueProduct c { lo := p.setWidth 64, hi := (p >>> 64).setWidth 64, divide := false } none s
def mDivS (c : CoreId) (gA gB : GReg) (s : State) : Issue :=
  let k := s.core c
  let a := k.getG gA
  let b := k.getG gB
  let q : W64 × W64 := if b = 0 then (0, a) else if divOvf a b then (a, 0) else (BitVec.ofInt 64 (a.toInt.tdiv b.toInt), BitVec.ofInt 64 (a.toInt.tmod b.toInt))
  issueProduct c { lo := q.1, hi := q.2, divide := true }
    (firstFault [(b == 0 && k.divTrap, 0x1030), (divOvf a b && k.ovfTrap, 0x1031)]) s
def mDivU (c : CoreId) (gA gB : GReg) (s : State) : Issue :=
  let k := s.core c
  let a := k.getG gA
  let b := k.getG gB
  issueProduct c { lo := if b = 0 then 0 else a / b, hi := if b = 0 then a else a % b, divide := true } (firstFault [(b == 0 && k.divTrap, 0x1030)]) s

/-! ## Capability operations (R163, R164) -/

def putC (c : CoreId) (cD : CReg) (x : Cap) : Issue := goCore c (fun k => k.setC cD x)

/-- A field of a capability (R163). -/
def Cap.field (x : Cap) (f : Nat) : Nat :=
  if f = 0 then x.addr else if f = 1 then x.base else if f = 2 then x.top - x.base else if f = 3 then x.top
  else if f = 4 then x.perms else if f = 5 then x.ctx.toNat else if f = 6 then x.seal else x.tagged.toNat

def mCapGetf (c : CoreId) (gD : GReg) (cA : CReg) (field : BitVec 3) (s : State) : Issue :=
  putG c gD (BitVec.ofNat 64 (((s.core c).getC cA).field field.toNat))

/-- Tagged and unsealed: a source that may be derived from. -/
def Cap.usable (x : Cap) : Bool := x.tagged && x.seal == 0

def Cap.reseat (x : Cap) (a : Nat) : Cap := let y := x.moved a; { y with tag := y.tag && x.usable }

def mCapSeta (c : CoreId) (cD cA : CReg) (gB : GReg) (s : State) : Issue :=
  putC c cD (((s.core c).getC cA).reseat ((s.core c).getG gB).toNat)
def mCapAdda (c : CoreId) (cD cA : CReg) (gB : GReg) (s : State) : Issue :=
  let x := (s.core c).getC cA
  putC c cD (x.reseat ((x.addr + ((s.core c).getG gB).toNat) % 2 ^ 64))

/-- R164: the least E that gives L < 2^17. -/
def leastE (len : Nat) : Nat := if len < 2 ^ 17 then 0 else Nat.log2 len - 16

/-- A capability with bounds of len bytes from base, both multiples of 2^e. -/
def Cap.withBounds (x : Cap) (e base len : Nat) : Cap :=
  { x with bits := BitVec.ofNat 128 (setBits x.bits.toNat 103 64 (e * 2 ^ 34 + (base / 2 ^ e % 2 ^ 17) * 2 ^ 17 + len / 2 ^ e)) }

def boundsResult (c : CoreId) (cD : CReg) (x : Cap) (e base len : Nat) : Issue :=
  if base < x.base || x.top < base + len || 47 < e then .fault 0x1042 0 else putC c cD (x.withBounds e base len)

def mCapSetb (c : CoreId) (cD cA : CReg) (gB : GReg) (s : State) : Issue :=
  let x := (s.core c).getC cA
  let len := ((s.core c).getG gB).toNat
  let e := leastE len
  if !x.usable then .fault 0x1040 0
  else if x.addr % 2 ^ e ≠ 0 || len % 2 ^ e ≠ 0 then .fault 0x1041 0
  else boundsResult c cD x e x.addr len

/-- R164: the base rounded down and the top rounded up to multiples of 2^e. -/
def roundOut (a len e : Nat) : Nat × Nat :=
  let lo := a / 2 ^ e * 2 ^ e
  let hi := (a + len + 2 ^ e - 1) / 2 ^ e * 2 ^ e
  (lo, hi - lo)

def mCapSetbo (c : CoreId) (cD cA : CReg) (gB : GReg) (s : State) : Issue :=
  let x := (s.core c).getC cA
  let len := ((s.core c).getG gB).toNat
  let e0 := leastE len
  let e := if 2 ^ 17 ≤ (roundOut x.addr len e0).2 / 2 ^ e0 then e0 + 1 else e0
  if !x.usable then .fault 0x1040 0
  else boundsResult c cD x e (roundOut x.addr len e).1 (roundOut x.addr len e).2

def Cap.setPerms (x : Cap) (p : Nat) : Cap := { x with bits := BitVec.ofNat 128 (setBits x.bits.toNat 115 104 p) }
def Cap.setSeal (x : Cap) (n : Nat) : Cap := { x with bits := BitVec.ofNat 128 (setBits x.bits.toNat 123 120 n) }

def mCapAndp (c : CoreId) (cD cA : CReg) (gB : GReg) (s : State) : Issue :=
  let x := (s.core c).getC cA
  if !x.usable then .fault 0x1040 0 else putC c cD (x.setPerms (x.perms &&& ((s.core c).getG gB).toNat))

def mCapMv (c : CoreId) (cD cA : CReg) (s : State) : Issue := putC c cD ((s.core c).getC cA)
def mCapClrt (c : CoreId) (cD cA : CReg) (s : State) : Issue := putC c cD { (s.core c).getC cA with tag := false }

/-- R164: cB may seal and unseal, and its address is a kind from 1 to 14. -/
def Cap.sealer (x : Cap) : Bool := x.usable && x.perm pSEAL && decide (1 ≤ x.addr) && decide (x.addr ≤ 14)

def mCapSeal (c : CoreId) (cD cA cB : CReg) (s : State) : Issue :=
  let x := (s.core c).getC cA
  let b := (s.core c).getC cB
  if !x.usable then .fault 0x1040 0 else if !b.sealer then .fault 0x1042 0 else putC c cD (x.setSeal b.addr)

def mCapUnseal (c : CoreId) (cD cA cB : CReg) (s : State) : Issue :=
  let x := (s.core c).getC cA
  let b := (s.core c).getC cB
  if !x.tagged then .fault 0x1040 0 else if !b.sealer || x.seal ≠ b.addr then .fault 0x1042 0 else putC c cD (x.setSeal 0)

def mCapChk (c : CoreId) (gD : GReg) (cA : CReg) (gB : GReg) (perm : BitVec 4) (s : State) : Issue :=
  let x := (s.core c).getC cA
  putG c gD (boolWord (x.allows [perm.toNat] x.addr ((s.core c).getG gB).toNat))

/-- The special capability that a field names (R162). -/
def scapIx (n : BitVec 3) : Fin 5 := Fin.ofNat 5 n.toNat

def mCapRds (c : CoreId) (cD : CReg) (n : BitVec 3) (s : State) : Issue :=
  let k := s.core c
  if 2 ≤ n.toNat && !k.pcc.perm pSYS then .fault 0x1043 0 else putC c cD (k.scap.get (scapIx n))

def mCapWrs (c : CoreId) (n : BitVec 3) (cA : CReg) (s : State) : Issue :=
  let k := s.core c
  let x := k.getC cA
  if !k.pcc.perm pSYS || n = 0 then .fault 0x1043 0
  else if n = 2 && !(x.perm pESTK && x.tile) then .fault 0x1042 0
  else goCore c (fun q => q.setScap (scapIx n) x)

end Sys2Proof.Machine
end

