-- ==== Sys2Proof/Machine/LoadStore.lean ====
section
/-! DEFINITION. The scalar loads and stores of slot 3 (R136, R137, R143 to R145, R159, R160, R237): their checks and translation,
forwarding from the store buffer, loads that complete at once and loads whose data arrive late. -/

namespace Sys2Proof.Machine

/-! ## Where an access goes -/

/-- A checked access: its bytes, whether it is uncached, whether a page holds a window or another package, and the walks made. -/
structure Span where
  bytes : List SAddr
  nc    : Bool
  walks : List WalkRes
deriving DecidableEq, Repr

def bytesAt (sp : Space) (a n : Nat) : List SAddr := (List.range n).map (fun i => ⟨sp, a + i⟩)

/-- R218, R221, R22: translate n bytes at va that lie in one page; a window access that its range refuses faults like a reserved
address. -/
def State.xlatePart (s : State) (c : CoreId) (ctx : BitVec 4) (va n : Nat) (acc : Acc) : Except (BitVec 16) Span :=
  match s.translate c ctx va acc with
  | .fault f => .error f
  | .ok x w =>
    let bad := match paKind x.pa with | .win d off => winReserved d off n | _ => false
    if !x.host && bad then .error 0x7011
    else .ok { bytes := bytesAt (if x.host then .host else .pa) x.pa n, nc := x.nc, walks := w.toList }

/-- R145: an access of n bytes; each half is translated, and the second walks again only where it lies in another page. -/
def State.xlateSpan (s : State) (c : CoreId) (ctx : BitVec 4) (va n : Nat) (acc : Acc) : Except (BitVec 16 × Nat) Span :=
  let m := min n (2 ^ 25 - va % 2 ^ 25)
  match s.xlatePart c ctx va m acc with
  | .error f => .error (f, va)
  | .ok a =>
    if m = n then .ok a
    else match s.xlatePart c ctx (va + m) (n - m) acc with
      | .error f => .error (f, va + m)
      | .ok b => .ok { bytes := a.bytes ++ b.bytes, nc := a.nc || b.nc, walks := a.walks ++ b.walks }

/-- The checks of a slot 3 access (R136, R160): alignment of a capability, then the capability, then translation. -/
def State.scalarSpan (s : State) (c : CoreId) (m : MemF) (n : Nat) (perm : Nat) (acc : Acc) : Except (BitVec 16 × Nat) Span :=
  let k := s.core c
  let cm := k.getC m.cM
  let ea := (memEa m k n).toNat
  if n = 16 && ea % 16 ≠ 0 then .error (0x1013, ea)
  else if !cm.allows [perm] ea n then .error (0x1014, ea)
  else if cm.tile then
    (if ea + n ≤ Config.tileBytes then .ok { bytes := bytesAt .tile ea n, nc := false, walks := [] } else .error (0x1014, ea))
  else s.xlateSpan c cm.ctx ea n acc

/-- R145: the access crosses a 64-byte boundary. -/
def splits (ea n : Nat) : Bool := decide (64 < ea % 64 + n)

def State.noteSpan (s : State) (c : CoreId) (x : Span) (ea n : Nat) : State :=
  let s := x.walks.foldl (fun s w => s.noteWalk c (some w)) s
  if splits ea n then s.updCore c (fun k => k.count rSCSPLIT 63 0 1) else s

/-! ## The store buffer (R143, R144) -/

def StoreE.has (e : StoreE) (a : SAddr) : Bool := e.bytes.any (fun x => x.1 == a)
def StoreE.byteAt (e : StoreE) (a : SAddr) : Byte := match e.bytes.find? (fun x => x.1 == a) with | some x => x.2 | none => 0

/-- The youngest buffered store that meets the bytes. -/
def Core.youngest (k : Core) (bs : List SAddr) : Option StoreE := k.storeBuf.reverse.find? (fun e => bs.any e.has)

/-! ## Loads -/

/-- The value of loaded bytes: extended from their size. -/
def loadWord (size : Nat) (sx : Bool) (bs : List Byte) : W64 :=
  let x := leNat bs
  if sx && x.testBit (8 * size - 1) then BitVec.ofInt 64 ((x : Int) - 2 ^ (8 * size)) else BitVec.ofNat 64 x

/-- R158, R159: the capability register takes the bits, and the tag where LDC keeps it and the data are sound (DEDUCED, log 54); a
malformed capability is loaded untagged. -/
def Core.landC (k : Core) (r : CReg) (bs : List Byte) (tag : Bool) : Core :=
  let x : Cap := { bits := BitVec.ofNat 128 (leNat bs), tag := tag }
  k.setC r { x with tag := x.tagged }

/-- What a load writes when its bytes are there. -/
def Core.landLoad (k : Core) (l : LateLoad) (bs : List Byte) (tag pois : Bool) : Core :=
  if l.toCap then k.landC (l.reg.setWidth 4) bs (tag && l.keepTag && !pois)
  else k.putG l.reg (loadWord l.size l.sx bs) pois

def remoteAddr (a : SAddr) : Bool := a.sp == .pa && a.a.testBit 47

/-- R300: the parts of a remote read: one for each 256-byte granule of the address that its remote bytes touch. -/
def remoteParts (bs : List SAddr) : List (Nat × Nat × Nat) :=
  let z := bs.zipIdx.filter (fun x => remoteAddr x.1)
  (z.map (fun x => x.1.a / 256)).eraseDups.filterMap (fun g =>
    match z.filter (fun x => x.1.a / 256 == g) with
    | [] => none
    | y :: r => some (y.2, y.1.a, r.length + 1))

/-- The lines of device or host memory that an access touches. -/
def lineKeys (bs : List SAddr) : List Nat := (bs.map (fun a => lineKey (a.sp == .host) (a.a / 64))).eraseDups

/-- An access that the caches serve: memory of this package or of the host, in a cacheable page. -/
def cacheable (x : Span) : Bool :=
  !x.nc && x.bytes.all (fun a => a.sp == .host || (a.sp == .pa && paKind a.a == .dev))

def Core.l1dHas (k : Core) (key : Nat) : Bool := k.l1d.any (fun l => l.key == key)

/-- Bytes of lines that the core's own caches supply, with their tag and poison. -/
def State.loadCached (s : State) (c : CoreId) (bs : List SAddr) : List Byte × Bool × Bool × State :=
  let r := (lineKeys bs).foldl (fun (a : List (Nat × LData) × State) key =>
    let y := a.2.loadLine c key; (a.1 ++ [(key, y.1)], y.2)) ([], s)
  let look (x : SAddr) : LData := match r.1.find? (fun p => p.1 == lineKey (x.sp == .host) (x.a / 64)) with | some p => p.2 | none => {}
  let a0 := bs.headD ⟨.tile, 0⟩
  (bs.map (fun x => ((look x).bytes (x.a % 64) 1).headD 0), (a0.sp != .host) && (look a0).tags.getLsbD (a0.a % 64 / 16),
    bs.any (fun x => (look x).bad (x.a % 64) 1), r.2)

/-- R142, R300: a load whose data come later; a remote one sends its requests now. -/
def State.startLate (s : State) (c : CoreId) (l : LateLoad) : State :=
  let parts := remoteParts l.bytes
  let s := s.updCore c (fun k =>
    let k := { k with lateLoads := k.lateLoads ++ [{ l with need := parts.length }] }
    if l.toCap then k else k.markG l.reg)
  let miss := if cacheable { bytes := l.bytes, nc := l.nc, walks := [] } then
    (l.bytes.filter (fun a => !(s.core c).l1dHas (lineKey (a.sp == .host) (a.a / 64)))).head? else none
  let s := match miss with
    | some a => s.updCore c (fun k => { k with stride := (k.stride ++ [a.a + (if a.sp == .host then 2 ^ 64 else 0)]).drop (k.stride.length - 2), strideCtx := l.ctx })
    | none => s
  parts.foldl (fun s p =>
    match paKind p.2.1 with
    | .remote pos off => s.sendReq 0x01 l.ctx pos off p.2.2 [] false (.load c l.toCap l.reg p.1)
    | _ => s) s

/-- A load of n bytes into gD, or into the capability register it names. -/
def loadIssue (c : CoreId) (m : MemF) (n : Nat) (sx toCap : Bool) (s : State) : Issue :=
  let k := s.core c
  let cm := k.getC m.cM
  let ea := (memEa m k n).toNat
  match s.scalarSpan c m n pLD .load with
  | .error (f, a) => .fault f (BitVec.ofNat 64 a)
  | .ok x =>
    let l : LateLoad := { toCap := toCap, reg := m.gD, size := n, sx := sx, keepTag := toCap && cm.perm pLDC, bytes := x.bytes, ctx := cm.ctx,
                          nc := x.nc, va := BitVec.ofNat 64 ea }
    let fin (s : State) : State := (s.noteSpan c x ea n).updCore c (memApply m n k)
    match k.youngest x.bytes with
    | some e =>
      if x.bytes.all e.has && k.fld 0x1508 0 0 = 1 then
        .go (fun s => (fin s).updCore c (fun q => q.landLoad l (x.bytes.map e.byteAt) (e.cap.getD false) false))
      else .hold .overlap
    | none =>
      if cm.tile then
        .go (fun s => (fin s).updCore c (fun q => q.landLoad l (k.tileRead ea n) (k.tileTag ea) (k.tilePois ea n)))
      else if cacheable x && (lineKeys x.bytes).all k.l1dHas then
        .go (fun s =>
          let r := (fin s).loadCached c x.bytes
          r.2.2.2.updCore c (fun q => q.landLoad l r.1 r.2.1 r.2.2.1))
      else .go (fun s => (fin s).startLate c l)

def mLdB (c : CoreId) (m : MemF) (s : State) : Issue := loadIssue c m 1 true false s
def mLdBu (c : CoreId) (m : MemF) (s : State) : Issue := loadIssue c m 1 false false s
def mLdH (c : CoreId) (m : MemF) (s : State) : Issue := loadIssue c m 2 true false s
def mLdHu (c : CoreId) (m : MemF) (s : State) : Issue := loadIssue c m 2 false false s
def mLdW (c : CoreId) (m : MemF) (s : State) : Issue := loadIssue c m 4 true false s
def mLdWu (c : CoreId) (m : MemF) (s : State) : Issue := loadIssue c m 4 false false s
def mLdD (c : CoreId) (m : MemF) (s : State) : Issue := loadIssue c m 8 false false s
def mLdC (c : CoreId) (m : MemF) (s : State) : Issue := loadIssue c m 16 false true s

/-! ## Stores -/

/-- R143: a store of bytes into the store buffer; bad: a further check that fails (R159). -/
def storeIssue (c : CoreId) (m : MemF) (bs : List Byte) (cap : Option Bool) (bad : Bool) (s : State) : Issue :=
  let k := s.core c
  let n := bs.length
  let ea := (memEa m k n).toNat
  match s.scalarSpan c m n pST .store with
  | .error (f, a) => .fault f (BitVec.ofNat 64 a)
  | .ok x =>
    if bad then .fault 0x1014 (BitVec.ofNat 64 ea)
    else if 8 ≤ k.storeBuf.length then .hold .storeBufFull
    else .go (fun s => ((s.noteSpan c x ea n).updCore c (memApply m n k)).updCore c (fun q =>
      { q with storeBuf := q.storeBuf ++ [{ bytes := x.bytes.zip bs, ctx := (k.getC m.cM).ctx, nc := x.nc, cap := cap, va := BitVec.ofNat 64 ea }] }))

def storeG (c : CoreId) (m : MemF) (n : Nat) (s : State) : Issue := storeIssue c m (leBytes n ((s.core c).getG m.gD).toNat) none false s

def mStB (c : CoreId) (m : MemF) (s : State) : Issue := storeG c m 1 s
def mStH (c : CoreId) (m : MemF) (s : State) : Issue := storeG c m 2 s
def mStW (c : CoreId) (m : MemF) (s : State) : Issue := storeG c m 4 s
def mStD (c : CoreId) (m : MemF) (s : State) : Issue := storeG c m 8 s

/-- R159: a tagged register needs STC. -/
def mStC (c : CoreId) (m : MemF) (s : State) : Issue :=
  let k := s.core c
  let x := k.getC (m.gD.setWidth 4)
  storeIssue c m (leBytes 16 x.bits.toNat) (some x.tagged) (x.tagged && !(k.getC m.cM).perm pSTC) s

/-! ## Prefetch -/

/-- R137, R237: the lines of 64 bytes at EA go to the basket; a prefetch that would fault, or that no cache may keep, is dropped. -/
def mPf (c : CoreId) (m : MemF) (s : State) : Issue :=
  let k := s.core c
  let ea := (memEa m k 64).toNat
  .go (fun s =>
    let s := s.updCore c (memApply m 64 k)
    match s.xlateSpan c (k.getC m.cM).ctx ea 64 .load with
    | .error _ => s
    | .ok x =>
      if (k.getC m.cM).tile || !(k.getC m.cM).allows [pLD] ea 64 || !cacheable x then s
      else (lineKeys x.bytes).foldl (fun s key => s.prefetchLine c (k.getC m.cM).ctx key) (s.noteSpan c x ea 64))

end Sys2Proof.Machine
end

