-- ==== Sys2Proof/Machine/Issue.lean ====
section
/-! DEFINITION. The passage of a bundle from D to W (R130 to R132, R138, R141): holds, the fault of the lowest faulting slot, and
retirement with the loops and the next bundle's address. A command that names one syllable is a bundle of that syllable alone. -/

namespace Sys2Proof.Machine

/-- What a syllable does, found on the state before its bundle; len is the bundle's length in syllables. -/
def issueOf (i : Instr) (len : Nat) (s : State) : Issue :=
  match i with
  | .nop c => mNop c s
  | .br c disp => mBr c disp s
  | .call c disp => mCall c disp len s
  | .ret c => mRet c s
  | .jr c gA => mJr c gA s
  | .callr c gA => mCallr c gA len s
  | .bc c gA cc disp => mBc c gA cc disp s
  | .lpSet c n gA disp => mLpSet c n gA disp len s
  | .ctlRd c gD idx => mCtlRd c gD idx s
  | .ctlWr c gA idx => mCtlWr c gA idx s
  | .sys c imm => mSys c imm s
  | .eret c => mEret c len s
  | .fence c => mFence c s
  | .idle c => mIdle c s
  | .add c gD gA gB => mAdd c gD gA gB s
  | .sub c gD gA gB => mSub c gD gA gB s
  | .and c gD gA gB => mAnd c gD gA gB s
  | .or c gD gA gB => mOr c gD gA gB s
  | .xor c gD gA gB => mXor c gD gA gB s
  | .shl c gD gA gB => mShl c gD gA gB s
  | .shr c gD gA gB => mShr c gD gA gB s
  | .sra c gD gA gB => mSra c gD gA gB s
  | .rotl c gD gA gB => mRotl c gD gA gB s
  | .min c gD gA gB => mMin c gD gA gB s
  | .max c gD gA gB => mMax c gD gA gB s
  | .minu c gD gA gB => mMinu c gD gA gB s
  | .maxu c gD gA gB => mMaxu c gD gA gB s
  | .cmp c gD gA gB cc => mCmp c gD gA gB cc s
  | .sel c gD gA gB => mSel c gD gA gB s
  | .addi c gD gA imm => mAddi c gD gA imm s
  | .andi c gD gA imm => mAndi c gD gA imm s
  | .ori c gD gA imm => mOri c gD gA imm s
  | .xori c gD gA imm => mXori c gD gA imm s
  | .shli c gD gA amt => mShli c gD gA amt s
  | .shri c gD gA amt => mShri c gD gA amt s
  | .srai c gD gA amt => mSrai c gD gA amt s
  | .cmpi c gD gA cc imm => mCmpi c gD gA cc imm s
  | .clz c gD gA => mClz c gD gA s
  | .ctz c gD gA => mCtz c gD gA s
  | .popc c gD gA => mPopc c gD gA s
  | .parity c gD gA => mParity c gD gA s
  | .brev c gD gA imm => mBrev c gD gA imm s
  | .sext c gD gA sz => mSext c gD gA sz s
  | .zext c gD gA sz => mZext c gD gA sz s
  | .crc32c c gD gA gB sz => mCrc32c c gD gA gB sz s
  | .crc64 c gD gA gB sz => mCrc64 c gD gA gB sz s
  | .mfm c gD hi => mMfm c gD hi s
  | .fcmp c gD gA gB fmt cc => mFcmp c gD gA gB fmt cc s
  | .fmax c gD gA gB fmt => mFmax c gD gA gB fmt s
  | .fmin c gD gA gB fmt => mFmin c gD gA gB fmt s
  | .fcvt c gD gA ffrom fto rnd => mFcvt c gD gA ffrom fto rnd s
  | .movK c gD z pos imm => mMovK c gD z pos imm s
  | .capGetf c gD cA field => mCapGetf c gD cA field s
  | .capSeta c cD cA gB => mCapSeta c cD cA gB s
  | .capAdda c cD cA gB => mCapAdda c cD cA gB s
  | .capSetb c cD cA gB => mCapSetb c cD cA gB s
  | .capSetbo c cD cA gB => mCapSetbo c cD cA gB s
  | .capAndp c cD cA gB => mCapAndp c cD cA gB s
  | .capMv c cD cA => mCapMv c cD cA s
  | .capClrt c cD cA => mCapClrt c cD cA s
  | .capSeal c cD cA cB => mCapSeal c cD cA cB s
  | .capUnseal c cD cA cB => mCapUnseal c cD cA cB s
  | .capChk c gD cA gB perm => mCapChk c gD cA gB perm s
  | .capRds c cD n => mCapRds c cD n s
  | .capWrs c n cA => mCapWrs c n cA s
  | .ldB c m => mLdB c m s
  | .ldBu c m => mLdBu c m s
  | .ldH c m => mLdH c m s
  | .ldHu c m => mLdHu c m s
  | .ldW c m => mLdW c m s
  | .ldWu c m => mLdWu c m s
  | .ldD c m => mLdD c m s
  | .stB c m => mStB c m s
  | .stH c m => mStH c m s
  | .stW c m => mStW c m s
  | .stD c m => mStD c m s
  | .ldC c m => mLdC c m s
  | .stC c m => mStC c m s
  | .pf c m => mPf c m s
  | .mulS c gA gB => mMulS c gA gB s
  | .mulU c gA gB => mMulU c gA gB s
  | .divS c gA gB => mDivS c gA gB s
  | .divU c gA gB => mDivU c gA gB s
  | .vxSetvl c f x => mVxSetvl c f x s
  | .vxSync c f => mVxSync c f s
  | .vxAdd c f x => mVxAdd c f x s
  | .vxSub c f x => mVxSub c f x s
  | .vxMul c f x => mVxMul c f x s
  | .vxFma c f x => mVxFma c f x s
  | .vxFms c f x => mVxFms c f x s
  | .vxDiv c f x => mVxDiv c f x s
  | .vxSqrt c f x => mVxSqrt c f x s
  | .vxMax c f x => mVxMax c f x s
  | .vxMin c f x => mVxMin c f x s
  | .vxAbs c f x => mVxAbs c f x s
  | .vxNeg c f x => mVxNeg c f x s
  | .vxCpsgn c f x => mVxCpsgn c f x s
  | .vxRndi c f x => mVxRndi c f x s
  | .vxLdexp c f x => mVxLdexp c f x s
  | .vxGetexp c f x => mVxGetexp c f x s
  | .vxCmp c f x => mVxCmp c f x s
  | .vxTwosum c f x => mVxTwosum c f x s
  | .vxMullo c f x => mVxMullo c f x s
  | .vxIadd c f x => mVxIadd c f x s
  | .vxIsub c f x => mVxIsub c f x s
  | .vxAnd c f x => mVxAnd c f x s
  | .vxOr c f x => mVxOr c f x s
  | .vxXor c f x => mVxXor c f x s
  | .vxShl c f x => mVxShl c f x s
  | .vxShr c f x => mVxShr c f x s
  | .vxSra c f x => mVxSra c f x s
  | .vxImin c f x => mVxImin c f x s
  | .vxImax c f x => mVxImax c f x s
  | .vxImul c f x => mVxImul c f x s
  | .vxLd c f x => mVxLd c f x s
  | .vxSt c f x => mVxSt c f x s
  | .vxLds c f x => mVxLds c f x s
  | .vxSts c f x => mVxSts c f x s
  | .vxLdx c f x => mVxLdx c f x s
  | .vxStx c f x => mVxStx c f x s
  | .vxPackPnl c f x => mVxPackPnl c f x s
  | .vxTqrd c f x => mVxTqrd c f x s
  | .vxTqhdr c f x => mVxTqhdr c f x s
  | .vxTqpop c f => mVxTqpop c f s
  | .vxMv c f => mVxMv c f s
  | .vxBcst c f x => mVxBcst c f x s
  | .vxExt c f x => mVxExt c f x s
  | .vxIns c f x => mVxIns c f x s
  | .vxPerm c f x => mVxPerm c f x s
  | .vxShuf c f x => mVxShuf c f x s
  | .vxPack c f x => mVxPack c f x s
  | .vxUnpack c f x => mVxUnpack c f x s
  | .vxCompress c f x => mVxCompress c f x s
  | .vxExpand c f x => mVxExpand c f x s
  | .vxMand c f => mVxMand c f s
  | .vxMor c f => mVxMor c f s
  | .vxMxor c f => mVxMxor c f s
  | .vxMnot c f => mVxMnot c f s
  | .vxMpop c f x => mVxMpop c f x s
  | .vxMfirst c f x => mVxMfirst c f x s
  | .vxCvt c f x => mVxCvt c f x s
  | .vxSlc c f x => mVxSlc c f x s
  | .vxWrd c f x => mVxWrd c f x s
  | .vxDraw c f x => mVxDraw c f x s
  | .vxDrawu c f x => mVxDrawu c f x s
  | .vxRsum c f x => mVxRsum c f x s
  | .vxRsumB c f x => mVxRsumB c f x s
  | .vxRmax c f x => mVxRmax c f x s
  | .vxRmaxB c f x => mVxRmaxB c f x s
  | .vxRmin c f x => mVxRmin c f x s
  | .vxRminB c f x => mVxRminB c f x s
  | .vxRsumi c f x => mVxRsumi c f x s
  | .vxRsumiB c f x => mVxRsumiB c f x s
  | .vxRmaxBlk c f x => mVxRmaxBlk c f x s
  | .vxRsumBlk c f x => mVxRsumBlk c f x s
  | .mxLdd c md cM gK => mMxLdd c md cM gK s
  | .mxOpen c m t cM gK => mMxOpen c m t cM gK s
  | .mxAcc c m t mdA mdB => mMxAcc c m t mdA mdB s
  | .mxAccs c m t mdA mdB i j fe => mMxAccs c m t mdA mdB i j fe s
  | .mxClose c m t => mMxClose c m t s
  | .mxWait c gD a t => mMxWait c gD a t s
  | .mxStat c gD => mMxStat c gD s
  | .mxStop c cM gK => mMxStop c cM gK s
  | .mxResume c cM gK => mMxResume c cM gK s
  | .txLast c gD cM gA => mTxLast c gD cM gA s
  | .txFuse c gD cM gA => mTxFuse c gD cM gA s
  | .txWait c gD gA => mTxWait c gD gA s
  | .txTest c gD gA => mTxTest c gD gA s
  | .txStw c gD gA gB => mTxStw c gD gA gB s
  | .txStp c gA gB => mTxStp c gA gB s
  | .prArrive c imm => mPrArrive c imm s
  | .prWait c imm => mPrWait c imm s
  | .prSync c imm => mPrSync c imm s
  | .mgPost c cM gA => mMgPost c cM gA s
  | .mgRot c cM gA => mMgRot c cM gA s
  | .mgWait c gD => mMgWait c gD s
  | _ => .go id

/-- The memory fields of a load or a store of slot 3. -/
def memOf : Instr → Option MemF
  | .ldB _ m | .ldBu _ m | .ldH _ m | .ldHu _ m | .ldW _ m | .ldWu _ m | .ldD _ m | .ldC _ m | .stB _ m | .stH _ m | .stW _ m | .stD _ m | .stC _ m => some m
  | _ => none

/-- A syllable of a bundle in its slot; i is none where its opcode or a field is reserved (R130). -/
structure Piece where
  i    : Option Instr
  slot : Nat
  syl  : W32
  ext  : W32
deriving DecidableEq, Repr

/-- R141: a source or a destination whose value has not been written holds the bundle. -/
def Piece.waits (p : Piece) (k : Core) : Bool :=
  match p.i with
  | none => false
  | some i => (srcRegs i ++ dstRegs i).any k.busyG || (capRegs i).any (fun r => k.lateLoads.any (fun l => l.toCap && l.reg.setWidth 4 == r))

/-- R130, R132, R141: what a syllable does in its bundle: a reserved one faults, as does the read of a poisoned register. -/
def Piece.issue (p : Piece) (len : Nat) (s : State) (c : CoreId) : Issue :=
  match p.i with
  | none => .fault 0x1011 0
  | some i => if (srcRegs i).any (s.core c).poisoned then .fault 0x1032 0 else issueOf i len s

/-- A slot 0 syllable that sets the next bundle's address itself. -/
def Piece.jumps (p : Piece) (k : Core) : Bool :=
  match p.i with
  | some (.br _ _) | some (.call _ _) | some (.ret _) | some (.jr _ _) | some (.callr _ _) | some (.eret _) => true
  | some (.bc _ gA cc _) => bcHolds cc (k.getG gA)
  | some (.lpSet _ _ gA _) => k.getG gA == 0
  | _ => false

/-- R138: what the loops do when the bundle at the core's address retires: the counters' new values, and the loop start where one
loops back. The loop set last is looked at first (DEDUCED, log 55). -/
def Core.loopStep (k : Core) : List (Nat × W64) × Option Nat :=
  let go (n : Nat) (r : List (Nat × W64) × Option Nat) : List (Nat × W64) × Option Nat :=
    let lc := k.reg (rLC n)
    if r.2.isSome || lc = 0 || (k.reg (rLE n)).toNat ≠ k.pc then r
    else if lc = 1 then (r.1 ++ [(n, 0)], none)
    else (r.1 ++ [(n, lc - 1)], some (k.reg (rLS n)).toNat)
  if k.lpLast then go 0 (go 1 ([], none)) else go 1 (go 0 ([], none))

/-- The syllable that a unit's new work came from (R178). -/
def Core.noteSyl (k : Core) (p : Piece) : Core :=
  if p.slot = 5 then { k with vq := k.vq.map (fun e => if e.syl = 0 && e.seq.isNone then { e with syl := p.syl, ext := p.ext } else e) }
  else if p.slot = 6 then { k with mq := k.mq.map (fun e => if e.syl = 0 && e.src.isNone then { e with syl := p.syl } else e) }
  else if p.slot = 7 then
    { k with streams := k.streams.map (fun x => x.map (fun y => if y.syl = 0 && y.parent.isNone then { y with syl := p.syl } else y)) }
  else k

/-- The bundle is held at a syllable; a wait on a partial overlap counts once (R144), a scoreboard hold counts its A-cycles. -/
def State.holdBundle (s : State) (c : CoreId) (ps : List Piece) (p : Piece) (why : Held) (len stall : Nat) : State :=
  s.updCore c (fun k =>
    let k := if why = .overlap && (k.held.map HeldAt.why) ≠ some .overlap then k.count rSCPOVL 63 0 1 else k
    let k := if why = .scoreboard then k.count rSCSTALL 63 0 stall else k
    { k with held := some { why := why, syl := p.syl, slot := p.slot, len := len,
                            prod := if why = .overlap then some k.readProduct else none,
                            pop := ps.any (fun q => match q.i with | some (.vxTqpop _ _) => true | _ => false) } })

/-- R213: the context in which a syllable's access, or a fetch, travels. -/
def Core.pieceCtx (k : Core) (p : Piece) : BitVec 4 :=
  match p.i with
  | some i => (match memOf i with | some m => (k.getC m.cM).ctx | none => k.pcc.ctx)
  | none => k.pcc.ctx

/-- R132, R221: the bundle faults; a translation fault counts. -/
def State.faultBundle (s : State) (c : CoreId) (p : Piece) (code : BitVec 16) (addr : W64) (len : Nat) : State :=
  let s := if 0x7010 ≤ code.toNat ∧ code.toNat ≤ 0x703F then s.noteXFault c ((s.core c).pieceCtx p) addr.toNat else s
  s.updCore c (fun k => { k with held := none, exc := some { cls := 0, code := code, addr := addr, syl := p.syl, slot := p.slot, len := len } })

/-- The first syllable whose outcome f picks. -/
def pickIssue {α : Type} (f : Issue → Option α) (l : List (Piece × Issue)) : Option (Piece × α) :=
  l.findSome? (fun x => (f x.2).map (fun y => (x.1, y)))

def Issue.holds : Issue → Option Held
  | .hold h => some h
  | _ => none
/-- R141: a hold found in D; a partial overlap is found later, in M. -/
def Issue.holdsInD : Issue → Option Held
  | .hold h => if h = .overlap then none else some h
  | _ => none
def Issue.faults : Issue → Option (BitVec 16 × W64)
  | .fault f a => some (f, a)
  | _ => none
def Issue.arrives : Issue → Option (Held × (State → State))
  | .holdGo h u => some (h, u)
  | _ => none

/-- R141: the syllable that holds a bundle: one that holds it in D, else one that holds it in M. -/
def pickHold (l : List (Piece × Issue)) : Option (Piece × Held) := (pickIssue Issue.holdsInD l).orElse (fun _ => pickIssue Issue.holds l)

/-- The next bundle's address and the loop counters, before the syllables' own effects. -/
def Core.advance (k : Core) (len : Nat) (jumps : Bool) : Core :=
  let lp := if jumps then ([], none) else k.loopStep
  let k1 := lp.1.foldl (fun q x => q.setReg (rLC x.1) x.2) k
  let t := match lp.2 with | some a => a | none => (k.pc + 4 * len) % 2 ^ 64
  { (k1.setScap 0 (k.pcc.moved t)) with held := none }

/-- R132: the bundle retires whole, its syllables taking effect in slot order. -/
def State.retireBundle (s : State) (c : CoreId) (l : List (Piece × Issue)) (len : Nat) (jumps : Bool) : State :=
  l.foldl (fun s x =>
    match x.2 with
    | .go u => (u s).updCore c (fun k => k.noteSyl x.1)
    | _ => s) (s.updCore c (fun k => k.advance len jumps))

/-- A bundle of len syllables on a running core (R132, R141). -/
def State.runBundle (s : State) (c : CoreId) (ps : List Piece) (len stall : Nat) : State :=
  let k := s.core c
  match ps.find? (fun p => p.waits k) with
  | some p => s.holdBundle c ps p .scoreboard len stall
  | none =>
    let l := ps.map (fun p => (p, p.issue len s c))
    match pickHold l, pickIssue Issue.faults l, pickIssue Issue.arrives l with
    | some (p, h), _, _ => s.holdBundle c ps p h len stall
    | none, some (p, f), _ => s.faultBundle c p f.1 f.2 len
    | none, none, some (p, h) => (h.2 s).holdBundle c ps p h.1 len stall
    | none, none, none =>
      let jumps := ps.any (fun p => p.jumps k)
      match (if jumps then none else k.loopStep.2), ps with
      | some t, p :: _ => if k.targetOk t then s.retireBundle c l len jumps else s.faultBundle c p 0x1015 (BitVec.ofNat 64 t) len
      | _, _ => s.retireBundle c l len jumps

/-- The core can take a bundle: it runs, no exception waits, and no other bundle is held. -/
def Core.ready (k : Core) (ps : List Piece) : Bool :=
  k.run == .running && k.exc.isNone &&
    (match k.held with | some h => ps.any (fun p => p.syl == h.syl && p.slot == h.slot) | none => true)

/-! ## One syllable as a command -/

/-- The bundle that holds syllable i alone. -/
def pieceOf (i : Instr) : Option Piece :=
  match encodeSyl i with
  | none => none
  | some (slot, b, x) =>
    some { i := if i.wf then some i else none, slot := slot,
           syl := BitVec.ofNat 32 (b + slot * 2 ^ 28 + (if x.isNone then 2 ^ 31 else 0)),
           ext := match x with | some y => BitVec.ofNat 32 (y + 5 * 2 ^ 28 + 2 ^ 31) | none => 0 }

/-- R130 to R132: a bundle of one syllable reaches D of core c. -/
def State.issueOne (s : State) (c : CoreId) (i : Instr) : State :=
  match pieceOf i with
  | none => s
  | some p =>
    let len := if p.ext = 0 then 1 else 2
    if !(s.core c).ready [p] then s
    else if namesTwice (dstReal i) then s.faultBundle c p 0x1010 0 len
    else s.runBundle c [p] len 1

/-! ## A bundle from memory -/

def Syl.piece (y : Syl) (c : CoreId) : Piece :=
  { i := match y.dec c with | .ok i => some i | _ => none, slot := y.slot, syl := y.word, ext := y.ext.getD 0 }

/-- The bundle at the core's address stands at the head of the prefetch queue, fetched if need be (R139, R160). -/
def State.fetchHead (s : State) (c : CoreId) : Except (BitVec 16 × W64) (State × List W32) :=
  let k := s.core c
  match k.pq.dropWhile (fun f => f.addr.toNat != k.pc) with
  | f :: r => .ok (s.updCore c (fun k => { k with pq := f :: r }), f.syls)
  | [] =>
    match s.fetchAt c k.pc with
    | .error e => .error e
    | .ok ws => .ok ((s.fetchFill c k.pc ws.length).updCore c (fun k => { k with pq := [⟨BitVec.ofNat 64 k.pc, ws⟩] }), ws)

/-- The bundle has left D: its place in the prefetch queue is free. -/
def Core.popHead (k : Core) (pc : Nat) : Core :=
  if k.held.isSome then k
  else match k.pq with
    | f :: r => if f.addr.toNat = pc then { k with pq := r } else k
    | [] => k

/-- R139: the bundle at pc has left D; the bundles that the core no longer comes to leave the queue, and the prefetcher goes on to hold up
to ahead bundles, at most 4. -/
def State.leaveD (s : State) (c : CoreId) (pc ahead : Nat) : State :=
  let s := s.updCore c (fun q => let q := q.popHead pc; { q with pq := q.pq.dropWhile (fun f => f.addr.toNat != q.pc) })
  if (s.core c).fld 0x1508 1 1 = 1 && (s.core c).exc.isNone && (s.core c).run == .running then s.fetchAhead (min 4 ahead) c (s.core c).pc else s

/-! ## Short waits on a register (R140, R141) -/

/-- R140: the general registers that a syllable writes more than one A-cycle after its D, where it is not marked on the scoreboard till a
later command: those of the comparisons, conversions and CRC steps, and of the loads served at once. -/
def Piece.slowRegs (p : Piece) : List GReg :=
  match p.i with
  | some (.fcmp _ d _ _ _ _) | some (.fmax _ d _ _ _) | some (.fmin _ d _ _ _) | some (.crc32c _ d _ _ _) | some (.crc64 _ d _ _ _)
  | some (.fcvt _ d _ _ _ _) => [d]
  | some (.ldB _ m) | some (.ldBu _ m) | some (.ldH _ m) | some (.ldHu _ m) | some (.ldW _ m) | some (.ldWu _ m) | some (.ldD _ m) => [m.gD]
  | _ => []

/-- Registers as bits of a word. -/
def regMask (l : List GReg) : W64 := l.foldl (fun x r => if r = 0 then x else x ||| BitVec.ofNat 64 (2 ^ r.toNat)) 0

/-- R141: a bundle names registers whose values come late: the A-cycles that it waits for them count in SCSTALL, and it waits no more. -/
def Core.shortWait (k : Core) (ps : List Piece) (stall : Nat) : Core :=
  let m := regMask (ps.flatMap (fun p => match p.i with | some i => srcRegs i ++ dstRegs i | none => []))
  if k.late &&& m = 0 || ps.any (fun p => p.waits k) then k else { (k.count rSCSTALL 63 0 stall) with late := k.late &&& ~~~m }

/-- The registers of a retired bundle whose values come late. -/
def Core.noteLate (k : Core) (ps : List Piece) : Core :=
  if k.held.isSome || k.exc.isSome then k
  else
    let w := regMask (ps.flatMap (fun p => match p.i with | some i => dstRegs i | none => []))
    { k with late := (k.late &&& ~~~w) ||| (regMask (ps.flatMap Piece.slowRegs) &&& ~~~k.sb) }

/-- R131, R132, R139: the next bundle of core c reaches D. stall: the A-cycles that a scoreboard hold keeps D empty; ahead: how many
bundles the prefetcher then holds in all. -/
def State.bundle (s : State) (c : CoreId) (stall ahead : Nat) : State :=
  let k := s.core c
  if !(k.run == .running && k.exc.isNone) then s
  else match s.fetchHead c with
  | .error e => s.faultBundle c { i := none, slot := 0, syl := 0, ext := 0 } e.1 e.2 1
  | .ok (s1, ws) =>
    let s2 := match bundleOf c ws with
      | .error w => s1.faultBundle c { i := none, slot := slotOfW w, syl := w, ext := 0 } 0x1010 0 ws.length
      | .ok l =>
        let ps := l.map (fun (y : Syl) => y.piece c)
        if (s1.core c).ready ps then
          ((s1.updCore c (fun k => k.shortWait ps stall)).runBundle c ps ws.length stall).updCore c (fun k => k.noteLate ps)
        else s1
    s2.leaveD c k.pc ahead

/-- R132. -/
def execBundleIssue (c : CoreId) (stall ahead : Nat) (s : State) : Host.Outcome State Fault Refusal := .next (s.bundle c stall ahead)

/-! ## The commands that name one syllable -/

def execNop (c : CoreId) (s : State) : Host.Outcome State Fault Refusal := .next (s.issueOne c (.nop c))
def execBr (c : CoreId) (disp : BitVec 22) (s : State) : Host.Outcome State Fault Refusal := .next (s.issueOne c (.br c disp))
def execCall (c : CoreId) (disp : BitVec 22) (s : State) : Host.Outcome State Fault Refusal := .next (s.issueOne c (.call c disp))
def execRet (c : CoreId) (s : State) : Host.Outcome State Fault Refusal := .next (s.issueOne c (.ret c))
def execJr (c : CoreId) (gA : GReg) (s : State) : Host.Outcome State Fault Refusal := .next (s.issueOne c (.jr c gA))
def execCallr (c : CoreId) (gA : GReg) (s : State) : Host.Outcome State Fault Refusal := .next (s.issueOne c (.callr c gA))
def execBc (c : CoreId) (gA : GReg) (cc : BitVec 3) (disp : BitVec 13) (s : State) : Host.Outcome State Fault Refusal := .next (s.issueOne c (.bc c gA cc disp))
def execLpSet (c : CoreId) (n : BitVec 1) (gA : GReg) (disp : BitVec 13) (s : State) : Host.Outcome State Fault Refusal := .next (s.issueOne c (.lpSet c n gA disp))
def execCtlRd (c : CoreId) (gD : GReg) (idx : BitVec 12) (s : State) : Host.Outcome State Fault Refusal := .next (s.issueOne c (.ctlRd c gD idx))
def execCtlWr (c : CoreId) (gA : GReg) (idx : BitVec 12) (s : State) : Host.Outcome State Fault Refusal := .next (s.issueOne c (.ctlWr c gA idx))
def execSys (c : CoreId) (imm : BitVec 16) (s : State) : Host.Outcome State Fault Refusal := .next (s.issueOne c (.sys c imm))
def execEret (c : CoreId) (s : State) : Host.Outcome State Fault Refusal := .next (s.issueOne c (.eret c))
def execFence (c : CoreId) (s : State) : Host.Outcome State Fault Refusal := .next (s.issueOne c (.fence c))
def execIdle (c : CoreId) (s : State) : Host.Outcome State Fault Refusal := .next (s.issueOne c (.idle c))
def execAdd (c : CoreId) (gD gA gB : GReg) (s : State) : Host.Outcome State Fault Refusal := .next (s.issueOne c (.add c gD gA gB))
def execSub (c : CoreId) (gD gA gB : GReg) (s : State) : Host.Outcome State Fault Refusal := .next (s.issueOne c (.sub c gD gA gB))
def execAnd (c : CoreId) (gD gA gB : GReg) (s : State) : Host.Outcome State Fault Refusal := .next (s.issueOne c (.and c gD gA gB))
def execOr (c : CoreId) (gD gA gB : GReg) (s : State) : Host.Outcome State Fault Refusal := .next (s.issueOne c (.or c gD gA gB))
def execXor (c : CoreId) (gD gA gB : GReg) (s : State) : Host.Outcome State Fault Refusal := .next (s.issueOne c (.xor c gD gA gB))
def execShl (c : CoreId) (gD gA gB : GReg) (s : State) : Host.Outcome State Fault Refusal := .next (s.issueOne c (.shl c gD gA gB))
def execShr (c : CoreId) (gD gA gB : GReg) (s : State) : Host.Outcome State Fault Refusal := .next (s.issueOne c (.shr c gD gA gB))
def execSra (c : CoreId) (gD gA gB : GReg) (s : State) : Host.Outcome State Fault Refusal := .next (s.issueOne c (.sra c gD gA gB))
def execRotl (c : CoreId) (gD gA gB : GReg) (s : State) : Host.Outcome State Fault Refusal := .next (s.issueOne c (.rotl c gD gA gB))
def execMin (c : CoreId) (gD gA gB : GReg) (s : State) : Host.Outcome State Fault Refusal := .next (s.issueOne c (.min c gD gA gB))
def execMax (c : CoreId) (gD gA gB : GReg) (s : State) : Host.Outcome State Fault Refusal := .next (s.issueOne c (.max c gD gA gB))
def execMinu (c : CoreId) (gD gA gB : GReg) (s : State) : Host.Outcome State Fault Refusal := .next (s.issueOne c (.minu c gD gA gB))
def execMaxu (c : CoreId) (gD gA gB : GReg) (s : State) : Host.Outcome State Fault Refusal := .next (s.issueOne c (.maxu c gD gA gB))
def execCmp (c : CoreId) (gD gA gB : GReg) (cc : BitVec 4) (s : State) : Host.Outcome State Fault Refusal := .next (s.issueOne c (.cmp c gD gA gB cc))
def execSel (c : CoreId) (gD gA gB : GReg) (s : State) : Host.Outcome State Fault Refusal := .next (s.issueOne c (.sel c gD gA gB))
def execAddi (c : CoreId) (gD gA : GReg) (imm : BitVec 10) (s : State) : Host.Outcome State Fault Refusal := .next (s.issueOne c (.addi c gD gA imm))
def execAndi (c : CoreId) (gD gA : GReg) (imm : BitVec 10) (s : State) : Host.Outcome State Fault Refusal := .next (s.issueOne c (.andi c gD gA imm))
def execOri (c : CoreId) (gD gA : GReg) (imm : BitVec 10) (s : State) : Host.Outcome State Fault Refusal := .next (s.issueOne c (.ori c gD gA imm))
def execXori (c : CoreId) (gD gA : GReg) (imm : BitVec 10) (s : State) : Host.Outcome State Fault Refusal := .next (s.issueOne c (.xori c gD gA imm))
def execShli (c : CoreId) (gD gA : GReg) (amt : BitVec 6) (s : State) : Host.Outcome State Fault Refusal := .next (s.issueOne c (.shli c gD gA amt))
def execShri (c : CoreId) (gD gA : GReg) (amt : BitVec 6) (s : State) : Host.Outcome State Fault Refusal := .next (s.issueOne c (.shri c gD gA amt))
def execSrai (c : CoreId) (gD gA : GReg) (amt : BitVec 6) (s : State) : Host.Outcome State Fault Refusal := .next (s.issueOne c (.srai c gD gA amt))
def execCmpi (c : CoreId) (gD gA : GReg) (cc : BitVec 4) (imm : BitVec 6) (s : State) : Host.Outcome State Fault Refusal := .next (s.issueOne c (.cmpi c gD gA cc imm))
def execClz (c : CoreId) (gD gA : GReg) (s : State) : Host.Outcome State Fault Refusal := .next (s.issueOne c (.clz c gD gA))
def execCtz (c : CoreId) (gD gA : GReg) (s : State) : Host.Outcome State Fault Refusal := .next (s.issueOne c (.ctz c gD gA))
def execPopc (c : CoreId) (gD gA : GReg) (s : State) : Host.Outcome State Fault Refusal := .next (s.issueOne c (.popc c gD gA))
def execParity (c : CoreId) (gD gA : GReg) (s : State) : Host.Outcome State Fault Refusal := .next (s.issueOne c (.parity c gD gA))
def execBrev (c : CoreId) (gD gA : GReg) (imm : BitVec 6) (s : State) : Host.Outcome State Fault Refusal := .next (s.issueOne c (.brev c gD gA imm))
def execSext (c : CoreId) (gD gA : GReg) (sz : BitVec 2) (s : State) : Host.Outcome State Fault Refusal := .next (s.issueOne c (.sext c gD gA sz))
def execZext (c : CoreId) (gD gA : GReg) (sz : BitVec 2) (s : State) : Host.Outcome State Fault Refusal := .next (s.issueOne c (.zext c gD gA sz))
def execCrc32c (c : CoreId) (gD gA gB : GReg) (sz : BitVec 2) (s : State) : Host.Outcome State Fault Refusal := .next (s.issueOne c (.crc32c c gD gA gB sz))
def execCrc64 (c : CoreId) (gD gA gB : GReg) (sz : BitVec 2) (s : State) : Host.Outcome State Fault Refusal := .next (s.issueOne c (.crc64 c gD gA gB sz))
def execMfm (c : CoreId) (gD : GReg) (hi : Bool) (s : State) : Host.Outcome State Fault Refusal := .next (s.issueOne c (.mfm c gD hi))
def execFcmp (c : CoreId) (gD gA gB : GReg) (fmt cc : BitVec 2) (s : State) : Host.Outcome State Fault Refusal := .next (s.issueOne c (.fcmp c gD gA gB fmt cc))
def execFmax (c : CoreId) (gD gA gB : GReg) (fmt : BitVec 2) (s : State) : Host.Outcome State Fault Refusal := .next (s.issueOne c (.fmax c gD gA gB fmt))
def execFmin (c : CoreId) (gD gA gB : GReg) (fmt : BitVec 2) (s : State) : Host.Outcome State Fault Refusal := .next (s.issueOne c (.fmin c gD gA gB fmt))
def execFcvt (c : CoreId) (gD gA : GReg) (ffrom fto : BitVec 3) (rnd : BitVec 2) (s : State) : Host.Outcome State Fault Refusal := .next (s.issueOne c (.fcvt c gD gA ffrom fto rnd))
def execMovK (c : CoreId) (gD : GReg) (z : Bool) (pos : BitVec 2) (imm : BitVec 16) (s : State) : Host.Outcome State Fault Refusal := .next (s.issueOne c (.movK c gD z pos imm))
def execCapGetf (c : CoreId) (gD : GReg) (cA : CReg) (field : BitVec 3) (s : State) : Host.Outcome State Fault Refusal := .next (s.issueOne c (.capGetf c gD cA field))
def execCapSeta (c : CoreId) (cD cA : CReg) (gB : GReg) (s : State) : Host.Outcome State Fault Refusal := .next (s.issueOne c (.capSeta c cD cA gB))
def execCapAdda (c : CoreId) (cD cA : CReg) (gB : GReg) (s : State) : Host.Outcome State Fault Refusal := .next (s.issueOne c (.capAdda c cD cA gB))
def execCapSetb (c : CoreId) (cD cA : CReg) (gB : GReg) (s : State) : Host.Outcome State Fault Refusal := .next (s.issueOne c (.capSetb c cD cA gB))
def execCapSetbo (c : CoreId) (cD cA : CReg) (gB : GReg) (s : State) : Host.Outcome State Fault Refusal := .next (s.issueOne c (.capSetbo c cD cA gB))
def execCapAndp (c : CoreId) (cD cA : CReg) (gB : GReg) (s : State) : Host.Outcome State Fault Refusal := .next (s.issueOne c (.capAndp c cD cA gB))
def execCapMv (c : CoreId) (cD cA : CReg) (s : State) : Host.Outcome State Fault Refusal := .next (s.issueOne c (.capMv c cD cA))
def execCapClrt (c : CoreId) (cD cA : CReg) (s : State) : Host.Outcome State Fault Refusal := .next (s.issueOne c (.capClrt c cD cA))
def execCapSeal (c : CoreId) (cD cA cB : CReg) (s : State) : Host.Outcome State Fault Refusal := .next (s.issueOne c (.capSeal c cD cA cB))
def execCapUnseal (c : CoreId) (cD cA cB : CReg) (s : State) : Host.Outcome State Fault Refusal := .next (s.issueOne c (.capUnseal c cD cA cB))
def execCapChk (c : CoreId) (gD : GReg) (cA : CReg) (gB : GReg) (perm : BitVec 4) (s : State) : Host.Outcome State Fault Refusal := .next (s.issueOne c (.capChk c gD cA gB perm))
def execCapRds (c : CoreId) (cD : CReg) (n : BitVec 3) (s : State) : Host.Outcome State Fault Refusal := .next (s.issueOne c (.capRds c cD n))
def execCapWrs (c : CoreId) (n : BitVec 3) (cA : CReg) (s : State) : Host.Outcome State Fault Refusal := .next (s.issueOne c (.capWrs c n cA))
def execLdB (c : CoreId) (m : MemF) (s : State) : Host.Outcome State Fault Refusal := .next (s.issueOne c (.ldB c m))
def execLdBu (c : CoreId) (m : MemF) (s : State) : Host.Outcome State Fault Refusal := .next (s.issueOne c (.ldBu c m))
def execLdH (c : CoreId) (m : MemF) (s : State) : Host.Outcome State Fault Refusal := .next (s.issueOne c (.ldH c m))
def execLdHu (c : CoreId) (m : MemF) (s : State) : Host.Outcome State Fault Refusal := .next (s.issueOne c (.ldHu c m))
def execLdW (c : CoreId) (m : MemF) (s : State) : Host.Outcome State Fault Refusal := .next (s.issueOne c (.ldW c m))
def execLdWu (c : CoreId) (m : MemF) (s : State) : Host.Outcome State Fault Refusal := .next (s.issueOne c (.ldWu c m))
def execLdD (c : CoreId) (m : MemF) (s : State) : Host.Outcome State Fault Refusal := .next (s.issueOne c (.ldD c m))
def execStB (c : CoreId) (m : MemF) (s : State) : Host.Outcome State Fault Refusal := .next (s.issueOne c (.stB c m))
def execStH (c : CoreId) (m : MemF) (s : State) : Host.Outcome State Fault Refusal := .next (s.issueOne c (.stH c m))
def execStW (c : CoreId) (m : MemF) (s : State) : Host.Outcome State Fault Refusal := .next (s.issueOne c (.stW c m))
def execStD (c : CoreId) (m : MemF) (s : State) : Host.Outcome State Fault Refusal := .next (s.issueOne c (.stD c m))
def execLdC (c : CoreId) (m : MemF) (s : State) : Host.Outcome State Fault Refusal := .next (s.issueOne c (.ldC c m))
def execStC (c : CoreId) (m : MemF) (s : State) : Host.Outcome State Fault Refusal := .next (s.issueOne c (.stC c m))
def execPf (c : CoreId) (m : MemF) (s : State) : Host.Outcome State Fault Refusal := .next (s.issueOne c (.pf c m))
def execMulS (c : CoreId) (gA gB : GReg) (s : State) : Host.Outcome State Fault Refusal := .next (s.issueOne c (.mulS c gA gB))
def execMulU (c : CoreId) (gA gB : GReg) (s : State) : Host.Outcome State Fault Refusal := .next (s.issueOne c (.mulU c gA gB))
def execDivS (c : CoreId) (gA gB : GReg) (s : State) : Host.Outcome State Fault Refusal := .next (s.issueOne c (.divS c gA gB))
def execDivU (c : CoreId) (gA gB : GReg) (s : State) : Host.Outcome State Fault Refusal := .next (s.issueOne c (.divU c gA gB))
def execVxSetvl (c : CoreId) (f : VF) (x : ExtM) (s : State) : Host.Outcome State Fault Refusal := .next (s.issueOne c (.vxSetvl c f x))
def execVxSync (c : CoreId) (f : VF) (s : State) : Host.Outcome State Fault Refusal := .next (s.issueOne c (.vxSync c f))
def execVxAdd (c : CoreId) (f : VF) (x : ExtA) (s : State) : Host.Outcome State Fault Refusal := .next (s.issueOne c (.vxAdd c f x))
def execVxSub (c : CoreId) (f : VF) (x : ExtA) (s : State) : Host.Outcome State Fault Refusal := .next (s.issueOne c (.vxSub c f x))
def execVxMul (c : CoreId) (f : VF) (x : ExtA) (s : State) : Host.Outcome State Fault Refusal := .next (s.issueOne c (.vxMul c f x))
def execVxFma (c : CoreId) (f : VF) (x : ExtA) (s : State) : Host.Outcome State Fault Refusal := .next (s.issueOne c (.vxFma c f x))
def execVxFms (c : CoreId) (f : VF) (x : ExtA) (s : State) : Host.Outcome State Fault Refusal := .next (s.issueOne c (.vxFms c f x))
def execVxDiv (c : CoreId) (f : VF) (x : ExtA) (s : State) : Host.Outcome State Fault Refusal := .next (s.issueOne c (.vxDiv c f x))
def execVxSqrt (c : CoreId) (f : VF) (x : ExtA) (s : State) : Host.Outcome State Fault Refusal := .next (s.issueOne c (.vxSqrt c f x))
def execVxMax (c : CoreId) (f : VF) (x : ExtA) (s : State) : Host.Outcome State Fault Refusal := .next (s.issueOne c (.vxMax c f x))
def execVxMin (c : CoreId) (f : VF) (x : ExtA) (s : State) : Host.Outcome State Fault Refusal := .next (s.issueOne c (.vxMin c f x))
def execVxAbs (c : CoreId) (f : VF) (x : ExtA) (s : State) : Host.Outcome State Fault Refusal := .next (s.issueOne c (.vxAbs c f x))
def execVxNeg (c : CoreId) (f : VF) (x : ExtA) (s : State) : Host.Outcome State Fault Refusal := .next (s.issueOne c (.vxNeg c f x))
def execVxCpsgn (c : CoreId) (f : VF) (x : ExtA) (s : State) : Host.Outcome State Fault Refusal := .next (s.issueOne c (.vxCpsgn c f x))
def execVxRndi (c : CoreId) (f : VF) (x : ExtA) (s : State) : Host.Outcome State Fault Refusal := .next (s.issueOne c (.vxRndi c f x))
def execVxLdexp (c : CoreId) (f : VF) (x : ExtA) (s : State) : Host.Outcome State Fault Refusal := .next (s.issueOne c (.vxLdexp c f x))
def execVxGetexp (c : CoreId) (f : VF) (x : ExtA) (s : State) : Host.Outcome State Fault Refusal := .next (s.issueOne c (.vxGetexp c f x))
def execVxCmp (c : CoreId) (f : VF) (x : ExtA) (s : State) : Host.Outcome State Fault Refusal := .next (s.issueOne c (.vxCmp c f x))
def execVxTwosum (c : CoreId) (f : VF) (x : ExtA) (s : State) : Host.Outcome State Fault Refusal := .next (s.issueOne c (.vxTwosum c f x))
def execVxMullo (c : CoreId) (f : VF) (x : ExtA) (s : State) : Host.Outcome State Fault Refusal := .next (s.issueOne c (.vxMullo c f x))
def execVxIadd (c : CoreId) (f : VF) (x : ExtA) (s : State) : Host.Outcome State Fault Refusal := .next (s.issueOne c (.vxIadd c f x))
def execVxIsub (c : CoreId) (f : VF) (x : ExtA) (s : State) : Host.Outcome State Fault Refusal := .next (s.issueOne c (.vxIsub c f x))
def execVxAnd (c : CoreId) (f : VF) (x : ExtA) (s : State) : Host.Outcome State Fault Refusal := .next (s.issueOne c (.vxAnd c f x))
def execVxOr (c : CoreId) (f : VF) (x : ExtA) (s : State) : Host.Outcome State Fault Refusal := .next (s.issueOne c (.vxOr c f x))
def execVxXor (c : CoreId) (f : VF) (x : ExtA) (s : State) : Host.Outcome State Fault Refusal := .next (s.issueOne c (.vxXor c f x))
def execVxShl (c : CoreId) (f : VF) (x : ExtA) (s : State) : Host.Outcome State Fault Refusal := .next (s.issueOne c (.vxShl c f x))
def execVxShr (c : CoreId) (f : VF) (x : ExtA) (s : State) : Host.Outcome State Fault Refusal := .next (s.issueOne c (.vxShr c f x))
def execVxSra (c : CoreId) (f : VF) (x : ExtA) (s : State) : Host.Outcome State Fault Refusal := .next (s.issueOne c (.vxSra c f x))
def execVxImin (c : CoreId) (f : VF) (x : ExtA) (s : State) : Host.Outcome State Fault Refusal := .next (s.issueOne c (.vxImin c f x))
def execVxImax (c : CoreId) (f : VF) (x : ExtA) (s : State) : Host.Outcome State Fault Refusal := .next (s.issueOne c (.vxImax c f x))
def execVxImul (c : CoreId) (f : VF) (x : ExtA) (s : State) : Host.Outcome State Fault Refusal := .next (s.issueOne c (.vxImul c f x))
def execVxLd (c : CoreId) (f : VF) (x : ExtM) (s : State) : Host.Outcome State Fault Refusal := .next (s.issueOne c (.vxLd c f x))
def execVxSt (c : CoreId) (f : VF) (x : ExtM) (s : State) : Host.Outcome State Fault Refusal := .next (s.issueOne c (.vxSt c f x))
def execVxLds (c : CoreId) (f : VF) (x : ExtM) (s : State) : Host.Outcome State Fault Refusal := .next (s.issueOne c (.vxLds c f x))
def execVxSts (c : CoreId) (f : VF) (x : ExtM) (s : State) : Host.Outcome State Fault Refusal := .next (s.issueOne c (.vxSts c f x))
def execVxLdx (c : CoreId) (f : VF) (x : ExtM) (s : State) : Host.Outcome State Fault Refusal := .next (s.issueOne c (.vxLdx c f x))
def execVxStx (c : CoreId) (f : VF) (x : ExtM) (s : State) : Host.Outcome State Fault Refusal := .next (s.issueOne c (.vxStx c f x))
def execVxPackPnl (c : CoreId) (f : VF) (x : ExtM) (s : State) : Host.Outcome State Fault Refusal := .next (s.issueOne c (.vxPackPnl c f x))
def execVxTqrd (c : CoreId) (f : VF) (x : ExtM) (s : State) : Host.Outcome State Fault Refusal := .next (s.issueOne c (.vxTqrd c f x))
def execVxTqhdr (c : CoreId) (f : VF) (x : ExtM) (s : State) : Host.Outcome State Fault Refusal := .next (s.issueOne c (.vxTqhdr c f x))
def execVxTqpop (c : CoreId) (f : VF) (s : State) : Host.Outcome State Fault Refusal := .next (s.issueOne c (.vxTqpop c f))
def execVxMv (c : CoreId) (f : VF) (s : State) : Host.Outcome State Fault Refusal := .next (s.issueOne c (.vxMv c f))
def execVxBcst (c : CoreId) (f : VF) (x : ExtM) (s : State) : Host.Outcome State Fault Refusal := .next (s.issueOne c (.vxBcst c f x))
def execVxExt (c : CoreId) (f : VF) (x : ExtM) (s : State) : Host.Outcome State Fault Refusal := .next (s.issueOne c (.vxExt c f x))
def execVxIns (c : CoreId) (f : VF) (x : ExtM) (s : State) : Host.Outcome State Fault Refusal := .next (s.issueOne c (.vxIns c f x))
def execVxPerm (c : CoreId) (f : VF) (x : ExtA) (s : State) : Host.Outcome State Fault Refusal := .next (s.issueOne c (.vxPerm c f x))
def execVxShuf (c : CoreId) (f : VF) (x : ExtA) (s : State) : Host.Outcome State Fault Refusal := .next (s.issueOne c (.vxShuf c f x))
def execVxPack (c : CoreId) (f : VF) (x : ExtA) (s : State) : Host.Outcome State Fault Refusal := .next (s.issueOne c (.vxPack c f x))
def execVxUnpack (c : CoreId) (f : VF) (x : ExtA) (s : State) : Host.Outcome State Fault Refusal := .next (s.issueOne c (.vxUnpack c f x))
def execVxCompress (c : CoreId) (f : VF) (x : ExtA) (s : State) : Host.Outcome State Fault Refusal := .next (s.issueOne c (.vxCompress c f x))
def execVxExpand (c : CoreId) (f : VF) (x : ExtA) (s : State) : Host.Outcome State Fault Refusal := .next (s.issueOne c (.vxExpand c f x))
def execVxMand (c : CoreId) (f : VF) (s : State) : Host.Outcome State Fault Refusal := .next (s.issueOne c (.vxMand c f))
def execVxMor (c : CoreId) (f : VF) (s : State) : Host.Outcome State Fault Refusal := .next (s.issueOne c (.vxMor c f))
def execVxMxor (c : CoreId) (f : VF) (s : State) : Host.Outcome State Fault Refusal := .next (s.issueOne c (.vxMxor c f))
def execVxMnot (c : CoreId) (f : VF) (s : State) : Host.Outcome State Fault Refusal := .next (s.issueOne c (.vxMnot c f))
def execVxMpop (c : CoreId) (f : VF) (x : ExtM) (s : State) : Host.Outcome State Fault Refusal := .next (s.issueOne c (.vxMpop c f x))
def execVxMfirst (c : CoreId) (f : VF) (x : ExtM) (s : State) : Host.Outcome State Fault Refusal := .next (s.issueOne c (.vxMfirst c f x))
def execVxCvt (c : CoreId) (f : VF) (x : ExtA) (s : State) : Host.Outcome State Fault Refusal := .next (s.issueOne c (.vxCvt c f x))
def execVxSlc (c : CoreId) (f : VF) (x : ExtM) (s : State) : Host.Outcome State Fault Refusal := .next (s.issueOne c (.vxSlc c f x))
def execVxWrd (c : CoreId) (f : VF) (x : ExtM) (s : State) : Host.Outcome State Fault Refusal := .next (s.issueOne c (.vxWrd c f x))
def execVxDraw (c : CoreId) (f : VF) (x : ExtA) (s : State) : Host.Outcome State Fault Refusal := .next (s.issueOne c (.vxDraw c f x))
def execVxDrawu (c : CoreId) (f : VF) (x : ExtA) (s : State) : Host.Outcome State Fault Refusal := .next (s.issueOne c (.vxDrawu c f x))
def execVxRsum (c : CoreId) (f : VF) (x : ExtM) (s : State) : Host.Outcome State Fault Refusal := .next (s.issueOne c (.vxRsum c f x))
def execVxRsumB (c : CoreId) (f : VF) (x : ExtA) (s : State) : Host.Outcome State Fault Refusal := .next (s.issueOne c (.vxRsumB c f x))
def execVxRmax (c : CoreId) (f : VF) (x : ExtM) (s : State) : Host.Outcome State Fault Refusal := .next (s.issueOne c (.vxRmax c f x))
def execVxRmaxB (c : CoreId) (f : VF) (x : ExtA) (s : State) : Host.Outcome State Fault Refusal := .next (s.issueOne c (.vxRmaxB c f x))
def execVxRmin (c : CoreId) (f : VF) (x : ExtM) (s : State) : Host.Outcome State Fault Refusal := .next (s.issueOne c (.vxRmin c f x))
def execVxRminB (c : CoreId) (f : VF) (x : ExtA) (s : State) : Host.Outcome State Fault Refusal := .next (s.issueOne c (.vxRminB c f x))
def execVxRsumi (c : CoreId) (f : VF) (x : ExtM) (s : State) : Host.Outcome State Fault Refusal := .next (s.issueOne c (.vxRsumi c f x))
def execVxRsumiB (c : CoreId) (f : VF) (x : ExtA) (s : State) : Host.Outcome State Fault Refusal := .next (s.issueOne c (.vxRsumiB c f x))
def execVxRmaxBlk (c : CoreId) (f : VF) (x : ExtA) (s : State) : Host.Outcome State Fault Refusal := .next (s.issueOne c (.vxRmaxBlk c f x))
def execVxRsumBlk (c : CoreId) (f : VF) (x : ExtA) (s : State) : Host.Outcome State Fault Refusal := .next (s.issueOne c (.vxRsumBlk c f x))
def execMxLdd (c : CoreId) (md : BitVec 3) (cM : CReg) (gK : GReg) (s : State) : Host.Outcome State Fault Refusal := .next (s.issueOne c (.mxLdd c md cM gK))
def execMxOpen (c : CoreId) (m : BitVec 4) (t : Bool) (cM : CReg) (gK : GReg) (s : State) : Host.Outcome State Fault Refusal := .next (s.issueOne c (.mxOpen c m t cM gK))
def execMxAcc (c : CoreId) (m : BitVec 4) (t : Bool) (mdA mdB : BitVec 3) (s : State) : Host.Outcome State Fault Refusal := .next (s.issueOne c (.mxAcc c m t mdA mdB))
def execMxAccs (c : CoreId) (m : BitVec 4) (t : Bool) (mdA mdB : BitVec 3) (i j : BitVec 3) (fe : Bool) (s : State) : Host.Outcome State Fault Refusal := .next (s.issueOne c (.mxAccs c m t mdA mdB i j fe))
def execMxClose (c : CoreId) (m : BitVec 4) (t : Bool) (s : State) : Host.Outcome State Fault Refusal := .next (s.issueOne c (.mxClose c m t))
def execMxWait (c : CoreId) (gD : GReg) (a : BitVec 2) (t : Bool) (s : State) : Host.Outcome State Fault Refusal := .next (s.issueOne c (.mxWait c gD a t))
def execMxStat (c : CoreId) (gD : GReg) (s : State) : Host.Outcome State Fault Refusal := .next (s.issueOne c (.mxStat c gD))
def execMxStop (c : CoreId) (cM : CReg) (gK : GReg) (s : State) : Host.Outcome State Fault Refusal := .next (s.issueOne c (.mxStop c cM gK))
def execMxResume (c : CoreId) (cM : CReg) (gK : GReg) (s : State) : Host.Outcome State Fault Refusal := .next (s.issueOne c (.mxResume c cM gK))
def execTxLast (c : CoreId) (gD : GReg) (cM : CReg) (gA : GReg) (s : State) : Host.Outcome State Fault Refusal := .next (s.issueOne c (.txLast c gD cM gA))
def execTxFuse (c : CoreId) (gD : GReg) (cM : CReg) (gA : GReg) (s : State) : Host.Outcome State Fault Refusal := .next (s.issueOne c (.txFuse c gD cM gA))
def execTxWait (c : CoreId) (gD gA : GReg) (s : State) : Host.Outcome State Fault Refusal := .next (s.issueOne c (.txWait c gD gA))
def execTxTest (c : CoreId) (gD gA : GReg) (s : State) : Host.Outcome State Fault Refusal := .next (s.issueOne c (.txTest c gD gA))
def execTxStw (c : CoreId) (gD gA gB : GReg) (s : State) : Host.Outcome State Fault Refusal := .next (s.issueOne c (.txStw c gD gA gB))
def execTxStp (c : CoreId) (gA gB : GReg) (s : State) : Host.Outcome State Fault Refusal := .next (s.issueOne c (.txStp c gA gB))
def execPrArrive (c : CoreId) (imm : BitVec 6) (s : State) : Host.Outcome State Fault Refusal := .next (s.issueOne c (.prArrive c imm))
def execPrWait (c : CoreId) (imm : BitVec 6) (s : State) : Host.Outcome State Fault Refusal := .next (s.issueOne c (.prWait c imm))
def execPrSync (c : CoreId) (imm : BitVec 6) (s : State) : Host.Outcome State Fault Refusal := .next (s.issueOne c (.prSync c imm))
def execMgPost (c : CoreId) (cM : CReg) (gA : GReg) (s : State) : Host.Outcome State Fault Refusal := .next (s.issueOne c (.mgPost c cM gA))
def execMgRot (c : CoreId) (cM : CReg) (gA : GReg) (s : State) : Host.Outcome State Fault Refusal := .next (s.issueOne c (.mgRot c cM gA))
def execMgWait (c : CoreId) (gD : GReg) (s : State) : Host.Outcome State Fault Refusal := .next (s.issueOne c (.mgWait c gD))

end Sys2Proof.Machine
end

