-- ==== Sys2Proof/Machine/RegOps.lean ====
section
/-! DEFINITION. Reading and writing the registers of clusters, regions, dies, the CXL port and BAR0 (R6 to R8, R21 to R23, R328 to
R330, R437), and the on-chip window. -/

namespace Sys2Proof.Machine

/-! ## Reading -/

/-- R256: L2STAT, and the rest as stored. -/
def Cluster.readReg (k : Cluster) (off : Nat) : W64 :=
  if off = 8 then BitVec.ofNat 64 (k.hamper.length * 256 + k.transit) else k.reg off

/-- R286: a run of five-bit physical channel numbers. -/
def Region.physField (r : Region) (lo n : Nat) : Nat :=
  (List.range n).foldl (fun x i => x + (r.remap.get (Fin.ofNat 16 (lo + i))).val * 2 ^ (5 * i)) 0

/-- R287: SVC of MC.STAT. -/
def svcCode : Svc → Nat
  | .inService => 0
  | .retraining => 1
  | .spare => 2
  | .dead => 3

def Region.mcStat (r : Region) (p : PhysId) : Nat :=
  let c := r.chans.get p
  let copies := r.patch.state == 1 || r.patch.state == 2
  let src := copies && (r.remap.get (Fin.ofNat 16 r.patch.lch)) == p
  let dst := copies && r.spare == p
  c.fill.isSome.toNat * 2 ^ 13 + dst.toNat * 2 ^ 12 + src.toNat * 2 ^ 11 + c.queue.length * 4 + svcCode c.svc

/-- R211, R286, R287, R365. -/
def State.readRegion (s : State) (n : RegionId) (off : Nat) : W64 :=
  let r := s.region n
  if off = 0x10000 then BitVec.ofNat 64 (s.mgStat n)
  else if off = 0x30000 then BitVec.ofNat 64 r.filter.length
  else if off = 0x40000 then BitVec.ofNat 64 (r.physField 0 12)
  else if off = 0x40008 then BitVec.ofNat 64 (r.physField 12 4 + r.spare.val * 2 ^ 20 + r.spareBad.toNat * 2 ^ 25)
  else if off = 0x40020 then BitVec.ofNat 64 (r.patch.done * 2 ^ 32 + r.patch.lch * 16 + r.patch.state)
  else if 0x80000 ≤ off ∧ off < 0x91000 ∧ off % 0x1000 = 0 then BitVec.ofNat 64 (r.mcStat (Fin.ofNat 17 ((off - 0x80000) / 0x1000)))
  else if 0x80000 ≤ off ∧ off < 0x91000 ∧ off % 0x1000 = 0x800 then
    BitVec.ofNat 64 (setBits (r.reg off).toNat 5 5 ((r.chans.get (Fin.ofNat 17 ((off - 0x80000) / 0x1000))).soak.isSome.toNat))
  else r.reg off

/-- R415, R416: the power class in use. -/
def State.pwrClass (s : State) : Nat := if s.straps.pwrClass = 3 then 0 else s.straps.pwrClass.toNat

/-- R434: PWR.CTL.CAP, where 5 to 7 act as 4. -/
def State.pwrCap (s : State) : Nat := min 4 (s.pkgFld 0xA00008 2 0)

/-- R421: the fastest divider of the class. -/
def State.divFloor (s : State) : Nat := if s.pwrClass = 0 then 1 else 0

/-- R422: the divider in use, the slowest of the demands and of what the class allows. -/
def State.divNow (s : State) : Nat :=
  max s.divFloor (max s.pwr.dPower (max s.pwr.dTemp (max (if s.pwr.throt then 4 else 0) s.pwrCap)))

/-- R434: the demand that sets the divider; of several equal ones, THROT_N, then temperature, power and the cap (DESIGN CHOICE,
log 58). -/
def State.divReason (s : State) : Nat :=
  let d := s.divNow
  if d = s.divFloor && s.pwr.dPower < d + 1 && s.pwr.dPower ≤ s.divFloor && s.pwr.dTemp ≤ s.divFloor && !s.pwr.throt && s.pwrCap ≤ s.divFloor then 0
  else if s.pwr.throt then 3
  else if s.pwr.dTemp = d then 2
  else if s.pwr.dPower = d then 1
  else 4

/-- R434. -/
def State.pwrStat (s : State) : Nat :=
  s.pwr.avg % 2048 * 2 ^ 32 + (s.pwr.temp.sshiftRight 3).toNat % 256 * 2 ^ 16 + s.divReason * 2 ^ 8 + s.divNow * 32 + s.pwr.hot.toNat * 16 + s.pwrClass

def popCount (n x : Nat) : Nat := ((List.range n).filter x.testBit).length

/-- Byte i of the image that runs (R391). -/
def Trust.imgByte (t : Trust) (i : Nat) : Nat := match t.booted with | some x => (x.2.getD i 0).toNat | none => 0

/-- R389, R397: the minimum security version. -/
def Trust.svnMin (t : Trust) : Nat := popCount 64 t.fuses.svnMin.toNat

/-- R401: the open scope and its route: every scope stands open while DBGCLOSE = 0. -/
def Trust.openScope (t : Trust) : Nat := if t.fuses.dbgClose then t.scope.toNat else 3
def Trust.openRoute (t : Trust) : Nat := if t.fuses.dbgClose then t.route.toNat else 3

/-- R408: SEC.STAT. -/
def Trust.stat (t : Trust) : Nat :=
  t.imgByte 7 * 2 ^ 32 + t.svnMin * 2 ^ 24 + t.recovery.toNat * 128 + t.fallback.toNat * 64 +
    (match t.booted with | some x => x.1.val | none => 0) * 32 + t.idKey.toNat * 16 + t.openRoute * 4 + t.openScope

def Trust.fuseReg (t : Trust) : Nat :=
  let f := t.fuses
  f.pwScope.toNat * 256 + f.pwEn.toNat * 128 + f.dbgClose.toNat * 64 + f.dbgRev.toNat * 16 + f.imgRev.toNat

/-- Big-endian bytes of a 256-bit value, as SHA-256 orders them. -/
def bytes256 (x : BitVec 256) : List Byte := beBytes 32 x.toNat

/-- R390: the seeds and the public key of the device identity. -/
def Trust.pkSeed (t : Trust) : List Byte := (sha256 (bytes256 t.fuses.uds ++ [2])).take 16
def Trust.skSeed (t : Trust) : List Byte := (sha256 (bytes256 t.fuses.uds ++ [1])).take 16
def Trust.pubKey (t : Trust) : List Byte :=
  t.pkSeed ++ beBytes 16 (Config.slhRoot (BitVec.ofNat 128 (beNat t.skSeed)) (BitVec.ofNat 128 (beNat t.pkSeed))).toNat
def Trust.devId (t : Trust) : List Byte := sha256 t.pubKey

/-- R437: the registers of which die 0's copy governs: every one but the ports, the pads and the window drop counters. -/
def governed (off : Nat) : Bool :=
  !(decide (0x700000 ≤ off) && decide (off < 0x730000)) && decide (off ≠ 0xA00018) && decide (off < 0xB00000)

/-- R210, R222, R232, R233, R308, R387, R408, R434: a read of a die register. -/
def State.readDie (s : State) (d : DieId) (off : Nat) : W64 :=
  let d := if governed off then 0 else d
  if 0x400100 ≤ off ∧ off < 0x400180 ∧ off % 0x20 = 0x10 then s.arrived (Fin.ofNat 4 ((off - 0x400100) / 0x20))
  else if off = 0x500108 then BitVec.ofNat 64 (setBits ((s.die 0).reg off).toNat 4 0 (16 - min 16 s.invQ.length))
  else if 0x501000 ≤ off ∧ off < 0x501800 ∧ off % 0x20 = 0x10 then
    BitVec.ofNat 64 (setBits ((s.die 0).reg off).toNat 32 32 (s.winDrain.getLsbD ((off - 0x501000) / 0x20)).toNat)
  else if 0x700000 ≤ off ∧ off < 0x730000 ∧ off % 0x10000 = 0 then
    BitVec.ofNat 64 ((s.port (Fin.ofNat 6 (3 * d.val + (off - 0x700000) / 0x10000))).stat)
  else if off = 0x800100 then BitVec.ofNat 64 s.rsStat
  else if off = 0x900000 then BitVec.ofNat 64 s.trust.stat
  else if off = 0x900008 then BitVec.ofNat 64 s.trust.fuseReg
  else if 0x900010 ≤ off ∧ off < 0x900030 ∧ off % 8 = 0 then BitVec.ofNat 64 (leNat ((s.trust.devId.drop (off - 0x900010)).take 8))
  else if off = 0xA00000 then BitVec.ofNat 64 s.pwrStat
  else (s.die d).reg off

/-- The HDM decoder of the component registers: base and size, and whether it is committed (PRESUMED, log 56: the capability's
layout in CXL). -/
def Cxl.hdmReg (k : Cxl) (off : Nat) : Nat := (mget (fun _ => (0 : W32)) k.hdm off).toNat
def Cxl.hdmSize (k : Cxl) : Nat := k.hdmReg 0x18 / 2 ^ 28 * 2 ^ 28 + k.hdmReg 0x1C * 2 ^ 32
def Cxl.committed (k : Cxl) : Bool := (k.hdmReg 0x20).testBit 10

/-- R365: CXL.STAT. -/
def Cxl.stat (k : Cxl) : Nat := k.committed.toNat * 2 ^ 12 + k.cacheEn.toNat * 2 ^ 11 + k.rate * 256 + k.width * 16 + k.st

def State.readCxl (s : State) (off : Nat) : W64 :=
  if off = 0 then BitVec.ofNat 64 s.cxl.stat
  else if off = 0x30000 then BitVec.ofNat 64 s.tracked.length
  else if off = 0x30008 then BitVec.ofNat 64 (s.die 0).htEvict
  else s.cxl.reg off

def State.barR (s : State) (off : Nat) : W64 := mget barReset s.bar off
def State.setBar (s : State) (off : Nat) (v : W64) : State := { s with bar := mset barReset s.bar off v }
def State.barFld (s : State) (off hi lo : Nat) : Nat := bitsOf (s.barR off).toNat hi lo
def State.setBarFld (s : State) (off hi lo v : Nat) : State := s.setBar off (BitVec.ofNat 64 (setBits (s.barR off).toNat hi lo v))
def State.barCount (s : State) (off hi lo n : Nat) : State := s.setBarFld off hi lo (satAdd (hi + 1 - lo) (s.barFld off hi lo) n)

/-- R328: a register of BAR0 as a driver reads it. -/
def State.readBar (s : State) (off : Nat) : W64 :=
  if off = 0x10 then s.commitSeq
  else if off = 0x18 then BitVec.ofNat 64 (Config.journalSlots - min Config.journalSlots s.journal.length)
  else if off = 0x3008 then s.readDie 0 0x500108
  else if off = 0x3010 then s.readDie 0 0x500110
  else s.barR off

/-- R355: a register of the Tonumund DVSEC. -/
def dvsecReset : Nat → W64 := tableReset dvsecRegs
/-- R351: what configuration space reads as the function's identity. -/
def configReset : Nat → W64 := tableReset configRegs
def State.configReg (s : State) (off : Nat) : W64 := mget configReset s.config off
def State.dvReg (s : State) (off : Nat) : W64 := mget dvsecReset s.dvsec off
def State.setDv (s : State) (off : Nat) (v : W64) : State := { s with dvsec := mset dvsecReset s.dvsec off v }
def State.readDvsec (s : State) (off : Nat) : W64 :=
  if off = 0xC then BitVec.ofNat 64 (setBits (s.dvReg 0xC).toNat 7 6 (s.barFld 8 17 16))
  else if off = 0x10 then BitVec.ofNat 64 (s.basting.toNat * 2 ^ 16 + s.straps.pwrClass.toNat * 2 ^ 14 + s.straps.feed.toNat * 2 ^ 10 + s.straps.pos.toNat)
  else s.dvReg off

/-! ## Writing clusters, regions, dies and the CXL port -/

/-- The table entry's write under its classes, with what it rejects. -/
def tableWrite (r : Option RReg) (runs : RField → Bool) (old : W64) (new mask : Nat) : W64 × Bool :=
  match r with
  | none => (old, false)
  | some r => let x := regWrite r runs old.toNat new mask; (BitVec.ofNat 64 x.1, x.2)

/-- R256: for HAMPEN the L2 runs except while the cluster's cores are halted or in reset and its hamper has no transit entry. -/
def State.l2Runs (s : State) (cl : ClusterId) : Bool :=
  (List.finRange 64).any (fun c => coreCluster c == cl && !((s.core c).run == .halted || (s.core c).run == .inReset)) ||
    (s.cluster cl).transit != 0

def State.writeCluster (s : State) (cl : ClusterId) (off : Nat) (v : W64) (mask : Nat) : State :=
  let x := tableWrite (findReg clusterRegs off) (fun _ => s.l2Runs cl) ((s.cluster cl).reg off) v.toNat mask
  let s := s.updCluster cl (fun k => k.setReg off x.1)
  if x.2 then
    let s := s.updCluster cl (fun k => k.count 0x48 47 32 1)
    if (s.cluster cl).fld 0x48 48 48 = 1 then s.clusterReport cl 0xB042 true (BitVec.ofNat 64 off) else s
  else s

/-- R257, R287: the Locked registers of a region: the region cache runs outside a region reset, the soak while BUSY. -/
def State.regionRuns (s : State) (r : RegionId) (off : Nat) : Bool :=
  if off = 0x20000 then !s.crs.resets.contains (2, r.val)
  else if 0x80000 ≤ off ∧ off < 0x91000 then ((s.region r).chans.get (Fin.ofNat 17 ((off - 0x80000) / 0x1000))).soak.isSome
  else false

/-- A counter of the region with its REPORT bit: RC.ERR for the region cache, STK.CNT for the stack. -/
def State.regionReject (s : State) (r : RegionId) (off : Nat) : State :=
  let cnt := if off < 0x30000 then 0x20030 else 0x40030
  let s := s.updRegion r (fun k => k.count cnt 47 32 1)
  if (s.region r).fld cnt 48 48 = 1 then s.regionReport r 0xB042 true (BitVec.ofNat 64 off) else s

/-- R286, R287: RTINT is taken at once while the sequencer is idle; SOAK.CTL.GO starts a soak. -/
def State.writeRegion (s : State) (r : RegionId) (off : Nat) (v : W64) (mask : Nat) : State :=
  -- R241: a write of 0b11 leaves DECLINE unchanged
  let bad := off = 0x20000 && mask % 4 == 3 && v.toNat % 4 == 3
  let mask := if bad then mask - 3 else mask
  let s := if bad then s.regionReject r off else s
  let x := tableWrite (regionReg off) (fun _ => s.regionRuns r off) ((s.region r).reg off) v.toNat mask
  let s := s.updRegion r (fun k => k.setReg off x.1)
  let s := if off = 0x40010 && !(s.region r).chans.toList.any (fun c => c.svc == .retraining) then
    s.updRegion r (fun k => { k with rtInt := BitVec.ofNat 32 (max 100 (k.fld 0x40010 31 0)) }) else s
  let s := if x.2 then s.regionReject r off else s
  if 0x80000 ≤ off ∧ off < 0x91000 ∧ off % 0x1000 = 0x800 ∧ (v.toNat &&& mask).testBit 4 then
    s.soakStart r (Fin.ofNat 17 ((off - 0x80000) / 0x1000)) else s

/-- R263: nothing of the package is at work. -/
def State.deviceQuiet (s : State) : Bool :=
  (List.finRange 64).all (fun c => let k := s.core c
    (k.run != .running) && k.txReqs.isEmpty && (List.range 16).all (fun i => match k.stream i with | some x => x.st == .ended | none => true)) &&
  (List.finRange 4).all (fun ch => !s.pressRuns ch) && s.sendChs.all (fun c => c.unacked.isEmpty) && s.homeWait.isEmpty

/-- R263: the copies of device memory that caches hold are gone with its contents. -/
def Core.dropDevice (k : Core) : Core :=
  let f (l : List L1Line) : List L1Line := l.filter (fun x => isHost x.key)
  { k with l1i := f k.l1i, l1d := f k.l1d, basket := f k.basket }
def Cluster.dropDevice (k : Cluster) : Cluster :=
  { k with l2 := k.l2.filter (fun l => isHost l.key), hamper := k.hamper.filter (fun e => isHost e.key), evWait := k.evWait.filter (fun l => isHost l.key) }
def State.dropDevice (s : State) : State :=
  { s with cores := s.cores.map Core.dropDevice, clusters := s.clusters.map Cluster.dropDevice,
           regions := s.regions.map (fun (r : Region) => { r with rc := [], moves := [], filter := [] }) }

/-- R7: when the block of a die register runs. -/
def State.dieRuns (s : State) (off : Nat) : Bool :=
  if 0x400100 ≤ off ∧ off < 0x400180 then s.pressRuns (Fin.ofNat 4 ((off - 0x400100) / 0x20))
  else if 0x500000 ≤ off ∧ off < 0x500080 then s.ctxEn (BitVec.ofNat 4 ((off - 0x500000) / 8))
  else if 0x501000 ≤ off ∧ off < 0x501800 then s.winOpen ((off - 0x501000) / 0x20)
  else if off = 0x600000 then !s.deviceQuiet
  else if 0x740200 ≤ off ∧ off < 0x740240 then s.pressRuns (Fin.ofNat 4 ((off - 0x740200) / 0x10))
  else false

/-- R387: fields of the wear gauge that only Cretas writes. -/
def gaugeField (off : Nat) : Bool := decide (0x800010 ≤ off) && decide (off < 0x800060)

/-- A counter of a die register with its REPORT bit. -/
def State.pkgReject (s : State) (cnt rep off : Nat) : State :=
  let s := s.pkgCount cnt 15 0 1
  if s.pkgFld cnt rep rep = 1 then s.dieReport 0 0xB042 true (BitVec.ofNat 64 off) else s

/-- R229: a write that opens a window entry with a span or a local range that the rule refuses. -/
def State.windowRefused (s : State) (off : Nat) (new mask : Nat) : Bool :=
  let w := (off - 0x501000) / 0x20
  if 0x501000 ≤ off ∧ off < 0x501800 ∧ off % 0x20 = 0 then
    let r := (findReg winRegs 0).getD ⟨0, []⟩
    let x := (regWrite r (fun _ => s.winOpen w) ((s.die 0).reg off).toNat new mask).1
    (!s.winOpen w && x.testBit 0) && s.winOpenBad w (bitsOf x 43 32) (bitsOf x 55 44 + 1) (s.winLocal w)
  else false

/-- R7, R285: a rejected write to the map register counts in region 0's STK.CNT. -/
def State.mapReject (s : State) (off : Nat) : State :=
  let s := s.updRegion 0 (fun k => k.count 0x40030 47 32 1)
  if (s.region 0).fld 0x40030 48 48 = 1 then s.dieReport 0 0xB042 true (BitVec.ofNat 64 off) else s

/-- R6 to R8, R437: a write to a die register. -/
def State.writeDie (s : State) (w : Writer) (d : DieId) (off : Nat) (v : W64) (mask : Nat) : State :=
  let d := if governed off then 0 else d
  let new := v.toNat
  let table : Bool := decide (0x501000 ≤ off) && decide (off < 0x501800)
  if off = 0x500100 then s.invDoorbell v
  else if ((0x400000 ≤ off ∧ off < 0x400200) ∨ (0x740200 ≤ off ∧ off < 0x740240)) ∧ w ≠ .cretas then s
  else if table && w != .cretas && (dieReg off).isSome && off % 0x20 ≠ 0x10 then s.trReject off
  else if s.windowRefused off new mask then s.trReject off
  else if gaugeField off && w != .cretas && (dieReg off).isSome then s.pkgReject 0x800120 16 off
  else if table && off % 0x20 = 0 && s.winOpen ((off - 0x501000) / 0x20) && mask.testBit 0 && !new.testBit 0 then
    (let s := s.winClose (Fin.ofNat 64 ((off - 0x501000) / 0x20))
     if (tableWrite (dieReg off) (fun _ => true) ((s.die d).reg off) new mask).2 then s.trReject off else s)
  else
    let x := tableWrite (dieReg off) (fun _ => s.dieRuns off) ((s.die d).reg off) new mask
    let old := (s.die d).reg off
    let s := if off = 0x600000 && x.1 != old then s.zeroAll.dropDevice else s
    let s := s.updDie d (fun k => k.setReg off x.1)
    let s := if x.2 then
        (if off = 0x600000 then (s.mapReject off).dieReport 0 0x8070 true (BitVec.ofNat 64 off)
         else if 0x500000 ≤ off ∧ off < 0x600000 then s.trReject off
         else s) else s
    if 0x700000 ≤ off ∧ off < 0x730000 ∧ off % 0x10000 = 8 then
      let p : PortId := Fin.ofNat 6 (3 * d.val + (off - 0x700000) / 0x10000)
      let s := if mask.testBit 0 && old.getLsbD 0 != new.testBit 0 then s.portEnable p (new.testBit 0) else s
      if (new &&& mask).testBit 1 then s.retrain p none else s
    else if 0x750000 ≤ off ∧ off < 0x752000 then s.wakeHeld
    else s

def State.writeCxl (s : State) (off : Nat) (v : W64) (mask : Nat) : State :=
  let x := tableWrite (findReg cxlRegs off) (fun _ => false) (s.readCxl off) v.toNat mask
  if off = 0x30008 then s.updDie 0 (fun d => { d with htEvict := x.1.toNat })
  else { s with cxl := s.cxl.setReg off x.1 }

/-! ## The on-chip window (R21, R22) -/

/-- A block that a window offset reaches, with the offset inside it. -/
inductive WinPlace where
  | tile (c : CoreId) (a : Nat)
  | core (c : CoreId) (off : Nat)
  | cluster (cl : ClusterId) (off : Nat)
  | region (r : RegionId) (off : Nat)
  | die (off : Nat)
  | cxl (off : Nat)
  | cretas (off : Nat)
  | none
deriving DecidableEq, Repr

def winPlace (d : DieId) (o : Nat) : WinPlace :=
  if o < 0x10000000 then .tile (Fin.ofNat 64 (32 * d.val + o / 0x800000)) (o % 0x800000)
  else if o < 0x11000000 then .core (Fin.ofNat 64 (32 * d.val + (o - 0x10000000) / 0x80000)) (o % 0x80000)
  else if o < 0x11800000 then .cluster (Fin.ofNat 16 (8 * d.val + (o - 0x11000000) / 0x100000)) (o % 0x100000)
  else if o < 0x12000000 then .region (Fin.ofNat 8 (4 * d.val + (o - 0x11800000) / 0x200000)) (o % 0x200000)
  else if o < 0x13000000 then .die (o - 0x12000000)
  else if o < 0x13800000 then (if d = 0 then .cxl (o - 0x13000000) else .none)
  else if o < 0x14800000 then .cretas (o - 0x13800000)
  else .none

/-- A register of the window, aligned to 8 bytes. -/
def State.readPlace (s : State) (d : DieId) : WinPlace → W64
  | .tile _ _ => 0
  | .core c off => (s.core c).readReg off
  | .cluster cl off => (s.cluster cl).readReg off
  | .region r off => s.readRegion r off
  | .die off => s.readDie d off
  | .cxl off => s.readCxl off
  | .cretas _ => BitVec.ofNat 64 (Config.freeNat s.freeCtr)
  | .none => 0

/-- n bytes of die d's window at offset o, with the poison of tile memory. The contents of the Cretas range are a free value
(log 23). -/
def State.winRead (s : State) (d : DieId) (o n : Nat) : List Byte × Bool :=
  match winPlace d o with
  | .tile c a => ((s.core c).tileRead a n, (s.core c).tilePois a n)
  | .none => (List.replicate n 0, true)
  | _ => ((leBytes 8 (s.readPlace d (winPlace d (o / 8 * 8))).toNat).drop (o % 8) |>.take n, false)

/-- R22, R23: a write that the window drops. -/
def State.winDropped (s : State) (d : DieId) (o : Nat) : State :=
  s.updDie d (fun k => (k.count 0xB00000 63 0 1).setReg 0xB00008 (BitVec.ofNat 64 o))

/-- A register write of v under a mask. -/
def State.writePlace (s : State) (w : Writer) (d : DieId) (v : W64) (mask : Nat) : WinPlace → State
  | .core c off => s.writeCore w c off v mask
  | .cluster cl off => s.writeCluster cl off v mask
  | .region r off => s.writeRegion r off v mask
  | .die off => s.writeDie w d off v mask
  | .cxl off => s.writeCxl off v mask
  | _ => s

/-- A write of bytes to die d's window at offset o; the access itself has been accepted under R22. Bytes that ps marks carry poison into
tile memory (R436). -/
def State.winWrite (s : State) (w : Writer) (d : DieId) (o : Nat) (bs : List Byte) (ps : List Bool) : State :=
  match winPlace d o with
  | .tile c a =>
    if inEmergency a bs.length then s.winDropped d o
    else s.updCore c (fun k => k.tileLand (bs.zipIdx.map (fun b => (a + b.2, b.1, ps.getD b.2 false))))
  | .cretas _ => if w == .cretas then s else s.winDropped d o
  | .none => s
  | _ =>
    let lo := o % 8
    s.writePlace w d (BitVec.ofNat 64 (leNat bs * 2 ^ (8 * lo))) ((2 ^ (8 * bs.length) - 1) * 2 ^ (8 * lo)) (winPlace d (o / 8 * 8))

/-! ## BAR0 (R328 to R330, R333, R347) -/

def qOff (q : QueueId) (o : Nat) : Nat := 0x1000 + 0x80 * q.val + o
def mbOff (n : MboxId) (o : Nat) : Nat := 0x100 + 0x100 * n.val + o

/-- R329: a rejected write counts in its queue's counter or in CR.CNT. -/
def State.barReject (s : State) (off : Nat) : State :=
  let cnt := if 0x1000 ≤ off ∧ off < 0x1800 then off / 0x80 * 0x80 + 0x38 else 0x20
  let s := s.barCount cnt 47 32 1
  if s.barFld cnt 48 48 = 1 then s.pkgReport 0xB042 true (BitVec.ofNat 64 off) else s

/-- R328: entries of a ring. -/
def State.ringN (s : State) (q : QueueId) : Nat := 2 ^ s.barFld (qOff q 0x10) 7 4
def State.ringHeld (s : State) (tail head : Nat) : Nat := (s.barFld tail 31 0 + 2 ^ 32 - s.barFld head 31 0) % 2 ^ 32

/-- R330: a doorbell; CR.STAT.SAT clears when the queue holds fewer than N entries (R344). -/
def State.satCheck (s : State) (q : QueueId) : State :=
  if s.ringHeld (qOff q 0x18) (qOff q 0x20) < s.ringN q then s.setBarFld 8 q.val q.val 0 else s

def State.tailWrite (s : State) (q : QueueId) (v : W32) : State :=
  let held := (v.toNat + 2 ^ 32 - s.barFld (qOff q 0x20) 31 0) % 2 ^ 32
  if s.ringN q < held then s.barReject (qOff q 0x18) else (s.setBarFld (qOff q 0x18) 31 0 v.toNat).satCheck q

def State.cqHeadWrite (s : State) (q : QueueId) (v : W32) : State :=
  let held := (s.barFld (qOff q 0x30) 31 0 + 2 ^ 32 - v.toNat) % 2 ^ 32
  if s.ringN q < held then s.barReject (qOff q 0x28) else s.setBarFld (qOff q 0x28) 31 0 v.toNat

/-- R328: EN from 0 to 1 zeroes the counts. MAXINFL is taken there and at each acceptance; a value above 4,096 is kept as written (R6)
and acts as 4,096 (log 59). -/
def State.takeInfl (s : State) (q : QueueId) : State :=
  { s with crs := { s.crs with infl := s.crs.infl.set q.val (max 1 (min 4096 (s.barFld (qOff q 0x10) 31 19))) q.isLt } }

def State.queueOn (s : State) (q : QueueId) : State :=
  if s.barFld (qOff q 0x10) 0 0 = 1 then s
  else
    let s := [0x18, 0x20, 0x28, 0x30].foldl (fun (s : State) (o : Nat) => s.setBarFld (qOff q o) 31 0 0) (s.setBarFld (qOff q 0x10) 0 0 1)
    (s.takeInfl q).satCheck q

/-- A queue that holds entries whose commands have not committed and posted keeps its rings in use (R328: it runs while EN = 1). -/
def State.barRuns (s : State) (off : Nat) : Bool :=
  if 0x1000 ≤ off ∧ off < 0x1800 then s.barFld (off / 0x80 * 0x80 + 0x10) 0 0 = 1
  else if 0x2000 ≤ off ∧ off < 0x2040 then s.barFld 0x2008 0 0 = 1
  else if 0x2040 ≤ off ∧ off < 0x2080 then s.barFld 0x2048 0 0 = 1
  else false

/-- R328: values that a field does not take: SIZE of a queue 4 to 12, SIZE of the event ring 2 to 8; MAXINFL 1 to 4,096, where 0
acts as 1 and a greater value acts as 4,096 (DESIGN CHOICE, log 59); MAXINFL itself is kept as written. -/
def barBad (off new : Nat) : Bool :=
  if 0x1000 ≤ off ∧ off < 0x1800 ∧ off % 0x80 = 0x10 then decide (bitsOf new 7 4 < 4) || decide (12 < bitsOf new 7 4)
  else if off = 0x2048 then decide (bitsOf new 7 4 < 2) || decide (8 < bitsOf new 7 4)
  else false

/-- R333: GO submits the mailbox's entry; while BUSY it is ignored and counted. The journal slot and its ticket: see commandAccept. -/
def freeSlot (l : SMap JSlot) : Nat := ((List.range Config.journalSlots).find? (fun i => !(l.any (fun x => x.1 == i)))).getD Config.journalSlots


/-- R342: Cretas accepts no command while FW is not 0. -/
def State.fwUp (s : State) : Bool := s.barFld 8 17 16 = 0 && s.trust.booted.isSome

/-- Bytes lo to lo + n - 1 of an entry (R331). -/
def JSlot.num (x : JSlot) (lo n : Nat) : Nat := x.entry.toNat / 2 ^ (8 * lo) % 2 ^ (8 * n)

/-- R331: a DEPTICKET that its queue has not accepted yet. -/
def State.depBad (s : State) (x : JSlot) : Bool :=
  let d := (s.barFld (qOff (Fin.ofNat 16 (x.num 3 1 % 16)) 0x20) 31 0 + 2 ^ 32 - x.num 4 4) % 2 ^ 32
  decide (128 ≤ x.num 3 1) && (d == 0 || decide (2 ^ 31 < d))

/-- R338: put an entry into the journal. src: a queue, or 16 + n for mailbox n, which takes a slot of its own past a full journal
(log 59). -/
def State.journalise (s : State) (entry : BitVec 512) (src : Nat) (ticket cq : BitVec 32) : State :=
  let j := freeSlot s.journal
  let x : JSlot := { entry := entry, src := src, ticket := ticket, cq := cq }
  s.setJob (if j < Config.journalSlots then j else j + src) { x with done := if s.depBad x then some (0xB015, 0) else none }

def State.mbSubmit (s : State) (n : MboxId) : State :=
  let ctl := mbOff n 0x80
  if s.barFld ctl 1 1 = 1 then s.barReject ctl
  else (s.setBarFld ctl 1 1 1).journalise (s.mbReq.get n) (16 + n.val) 0 0

/-- R328: an aligned 8-byte write to BAR0. -/
def State.writeBar (s : State) (off : Nat) (v : W64) : State :=
  let q : QueueId := Fin.ofNat 16 ((off - 0x1000) / 0x80)
  let inQ : Bool := decide (0x1000 ≤ off) && decide (off < 0x1800)
  if off = 0x3000 then s.invDoorbell v
  else if off = 0x3008 then s.writeDie .host 0 0x500108 v fullMask
  else if inQ && off % 0x80 = 0x18 then s.tailWrite q (v.setWidth 32)
  else if inQ && off % 0x80 = 0x28 then s.cqHeadWrite q (v.setWidth 32)
  else
    let bad := barBad off v.toNat
    let mask := if bad then fullMask - 0xF0 else fullMask
    let old := s.barR off
    let x := tableWrite (barReg off) (fun _ => s.barRuns off) old v.toNat mask
    let en : Bool := inQ && off % 0x80 == 0x10 && x.1.getLsbD 0 && !old.getLsbD 0
    let val : Nat := if en then setBits x.1.toNat 0 0 0 else x.1.toNat
    let s := s.setBar off (BitVec.ofNat 64 val)
    let s := if en then s.queueOn q else s
    let s := if 0x100 ≤ off ∧ off < 0x900 ∧ off % 0x100 = 0x80 ∧ v.getLsbD 0 then s.mbSubmit (Fin.ofNat 8 ((off - 0x100) / 0x100)) else s
    if x.2 || bad then s.barReject off else s

/-- The mailbox area that an offset lies in: the mailbox, whether it is the request area, and the byte within it. -/
def mbArea (off : Nat) : Option (MboxId × Bool × Nat) :=
  let o := (off - 0x100) % 0x100
  if 0x100 ≤ off ∧ off < 0x900 ∧ o < 0x80 then some (Fin.ofNat 8 ((off - 0x100) / 0x100), decide (o < 0x40), o % 0x40) else none

/-- R328: REQ is Locked while the mailbox runs: a write that would change it is rejected. -/
def State.mbWrite (s : State) (n : MboxId) (at_ size : Nat) (v : Nat) (off : Nat) : State :=
  let old := s.mbReq.get n
  let new := BitVec.ofNat 512 (setBits old.toNat (8 * (at_ + size) - 1) (8 * at_) v)
  if new = old then s
  else if s.barFld (mbOff n 0x80) 1 1 = 1 then s.barReject off
  else { s with mbReq := s.mbReq.set n.val new n.isLt }

/-- R329: the bits [63:32] of a register are all reserved. -/
def highReserved (off : Nat) : Bool :=
  if off = 0x3008 ∨ off = 0x3010 then true
  else match barReg off with
    | some r => r.fields.all (fun f => decide (f.hi < 32))
    | none => true

/-- R328, R329: a write of size bytes at an offset of BAR0. -/
def State.barAccess (s : State) (off size : Nat) (v : BitVec 512) : State :=
  let x := v.toNat % 2 ^ (8 * size)
  match mbArea off with
  | some (n, req, o) =>
    if (size = 8 ∧ off % 8 = 0) ∨ (size = 4 ∧ off % 4 = 0) ∨ (size = 64 ∧ off % 64 = 0) then (if req then s.mbWrite n o size x off else s)
    else s.barReject off
  | none =>
    if 0x10000 ≤ off then s
    else if size = 8 ∧ off % 8 = 0 then s.writeBar off (BitVec.ofNat 64 x)
    else if size = 4 ∧ off % 8 = 0 ∧ highReserved off then s.writeBar off (BitVec.ofNat 64 x)
    else if size = 4 ∧ off % 8 = 4 ∧ highReserved (off - 4) then (if x = 0 then s else s.barReject off)
    else s.barReject off

/-! ## REGISTER_WRITE -/

/-- A write of 4 or 8 aligned bytes to a block of the window; any other does nothing here (R22). -/
def regAccess (off size : Nat) (v : BitVec 512) : Option (Nat × W64 × Nat) :=
  if (size = 8 ∧ off % 8 = 0) ∨ (size = 4 ∧ off % 4 = 0) then
    let lo := 8 * (off % 8)
    some (off / 8 * 8, BitVec.ofNat 64 (v.toNat % 2 ^ (8 * size) * 2 ^ lo), (2 ^ (8 * size) - 1) * 2 ^ lo)
  else none

/-- R56: the hem registers take whole aligned words alone. -/
def regAccessCore (off size : Nat) (v : BitVec 512) : Option (Nat × W64 × Nat) :=
  if 0x1100 ≤ off ∧ off < 0x1180 ∧ size ≠ 8 then none else regAccess off size v

/-- PRESUMED (log 21): PCIe's reset of the MSI-X table, every vector masked. -/
def msixReset (off : Nat) : Byte := if off % 16 = 12 then 1 else 0

/-- R353: a vector's entry masks it. -/
def Cxl.masked (k : Cxl) (vec : Nat) : Bool := (mget msixReset k.msix (16 * vec + 12)).getLsbD 0

/-- R353: the message of each pending vector that is not masked leaves while the function may send, and its pending bit clears. -/
def Cxl.fire (k : Cxl) : Cxl :=
  let go : BitVec 256 := (List.range 256).foldl (fun b v => if k.pend.getLsbD v && !k.masked v then b ||| BitVec.ofNat 256 (2 ^ v) else b) 0
  if k.up && k.bme then { k with pend := k.pend &&& ~~~go, fired := k.fired ||| go } else k

/-- R353: signal a vector. -/
def State.signal (s : State) (vec : Nat) : State :=
  { s with cxl := ({ s.cxl with pend := s.cxl.pend ||| BitVec.ofNat 256 (2 ^ vec) } : Cxl).fire }

/-- R353: a write to the MSI-X table; the pending array is read-only. -/
def State.msixWrite (s : State) (off size : Nat) (v : BitVec 512) : State :=
  if off + size ≤ 0x1000 then
    { s with cxl := ({ s.cxl with msix := writeBytes msixReset s.cxl.msix off (leBytes size v.toNat) } : Cxl).fire }
  else s

/-- R6, R8: a write to it: every field is read-only. -/
def State.configWrite (s : State) (off v : Nat) : State :=
  { s with config := mset configReset s.config off (tableWrite (findReg configRegs off) (fun _ => false) (s.configReg off) v fullMask).1 }

/-- PRESUMED (log 56): the decoder commits when COMMIT is written as 1, and frees its registers when it is written as 0. -/
def State.hdmWrite (s : State) (off : Nat) (v : W32) : State :=
  let k := s.cxl
  let set (k : Cxl) (o : Nat) (x : W32) : Cxl := { k with hdm := mset (fun _ => (0 : W32)) k.hdm o x }
  if off = 0x20 then
    let c := v.getLsbD 9
    let ok := c && decide (0 < k.hdmSize) && decide (k.hdmSize ≤ 2 * Config.dieBytes)
    { s with cxl := set k 0x20 (BitVec.ofNat 32 (setBits (setBits v.toNat 10 10 ok.toNat) 11 11 (c && !ok).toNat)) }
  else if k.committed then s
  else if [0x10, 0x14, 0x18, 0x1C].contains off then { s with cxl := set k off v }
  else s

def State.dvsecWrite (s : State) (off : Nat) (v : W32) : State :=
  let x := tableWrite (findReg dvsecRegs off) (fun _ => false) (s.dvReg off) v.toNat 0xFFFFFFFF
  s.setDv off x.1

/-! ## The rows of BAR0 -/

def execMbGo (n : MboxId) (s : State) : Host.Outcome State Fault Refusal := .next (s.mbSubmit n)
def execQTailWrite (q : QueueId) (v : W32) (s : State) : Host.Outcome State Fault Refusal := .next (s.tailWrite q v)
def execQCqheadWrite (q : QueueId) (v : W32) (s : State) : Host.Outcome State Fault Refusal := .next (s.cqHeadWrite q v)
def execQEnable (q : QueueId) (s : State) : Host.Outcome State Fault Refusal := .next (s.queueOn q)
def execErHeadWrite (v : W32) (s : State) : Host.Outcome State Fault Refusal := .next (s.setBarFld 0x2050 31 0 v.toNat)

end Sys2Proof.Machine
end

