-- ==== Sys2Proof/Machine/Arrive.lean ====
section
/-! DEFINITION. What the scalar processor's requests bring back: late load data (R142), products (R148) and stores that drain (R143);
and the vector engine's retirements as events (R111, R128). -/

namespace Sys2Proof.Machine

/-! ## Bytes from anywhere in the package -/

/-- R214: the first byte of device memory that a context's frame mask keeps an access from, where no cache holds its line. -/
def State.frameBad (s : State) (c : CoreId) (ctx : BitVec 4) (bs : List SAddr) : Option Nat :=
  (bs.find? (fun a => a.sp == .pa && s.lineRefused (coreCluster c) ctx (a.a / 64))).map SAddr.a

/-- Free bytes: what a read returns where the spec gives poisoned data and no value (log 23). -/
def State.freeBytes (s : State) (n : Nat) : List Byte × State :=
  let (x, s) := s.free
  (leBytes n x, s)

/-- The state after the lines of an uncached read have been asked for. -/
def State.readTouch (s : State) (c : CoreId) (keys : List Nat) : State := keys.foldl (fun s key => (s.fetchLine (coreCluster c) key).2) s

/-- One byte of an uncached read: its value, and whether it is poisoned. -/
def State.byteOf (s : State) (c : CoreId) (a : SAddr) : Byte × Bool :=
  match a.sp with
  | .tile => ((s.core c).tileByte a.a, (s.core c).tilePois a.a 1)
  | .host => let d := (s.fetchLine (coreCluster c) (lineKey true (a.a / 64))).1; ((d.bytes (a.a % 64) 1).headD 0, d.bad (a.a % 64) 1)
  | .pa =>
    match paKind a.a with
    | .win d off => let x := s.winRead d off 1; (x.1.headD 0, x.2)
    | _ => let d := (s.fetchLine (coreCluster c) (a.a / 64)).1; ((d.bytes (a.a % 64) 1).headD 0, d.bad (a.a % 64) 1)

/-- Lines of device or host memory among the bytes. -/
def memKeys (bs : List SAddr) : List Nat := lineKeys (bs.filter (fun a => a.sp == .host || (a.sp == .pa && paKind a.a == .dev)))

/-- R142, R144, R160: the bytes of a local load: value, tag, poison. -/
def State.loadLocal (s : State) (c : CoreId) (l : LateLoad) : List Byte × Bool × Bool × State :=
  if cacheable { bytes := l.bytes, nc := l.nc, walks := [] } then s.loadCached c l.bytes
  else
    let bs := l.bytes.map (s.byteOf c)
    let a0 := l.bytes.headD ⟨.tile, 0⟩
    let tag := a0.sp == .pa && (paKind a0.a == .dev) && ((s.fetchLine (coreCluster c) (a0.a / 64)).1.tags.getLsbD (a0.a % 64 / 16))
    (bs.map Prod.fst, tag, bs.any Prod.snd, s.readTouch c (memKeys l.bytes))

/-- R300: byte i of a load answered in parts. -/
def gotByte (l : LateLoad) (i : Nat) : Option Byte :=
  match l.got.find? (fun p => decide (p.1 ≤ i) && decide (i < p.1 + p.2.length)) with
  | some p => p.2[i - p.1]?
  | none => none

/-- R145: the bytes of a load one half of which lies in another package: each from its own side, and fr where no part brought one. -/
def LateLoad.joinBytes (l : LateLoad) (near fr : List Byte) : List Byte :=
  l.bytes.zipIdx.map (fun x =>
    if remoteAddr x.1 then (gotByte l x.2).getD (fr.getD x.2 0)
    else near.getD ((l.bytes.take x.2).filter (fun a => !remoteAddr a)).length 0)

/-- R361: data that the host returns with the command become the host's memory first. -/
def State.hostFill (s : State) (bs : List SAddr) (hostData : List Byte) : State :=
  match bs.find? (fun a => a.sp == .host) with
  | some a => if s.hostUp && !hostData.isEmpty then s.hostPut a.a (hostData.take 64) else s
  | none => s

/-- A load that its home or the port still keeps waiting: the lines that no L1 of the core holds (R359, R363). -/
def State.loadGate (s : State) (c : CoreId) (bs : List SAddr) : Option State :=
  s.gate (some (coreCluster c)) ((memKeys bs).filter (fun key => !((s.core c).l1d.any (fun l => l.key == key) || (s.core c).basket.any (fun l => l.key == key)))) false

/-- R142: late load i of a core. -/
def execLoadDataArrival (c : CoreId) (i : Nat) (hostData : List Byte) (hostPoison : Bool) (s : State) : Host.Outcome State Fault Refusal :=
  match (s.core c).lateLoads[i]? with
  | none => .next s
  | some l =>
    let done (s : State) (bs : List Byte) (tag pois : Bool) : State :=
      s.updCore c (fun k => ({ k with lateLoads := k.lateLoads.eraseIdx i } : Core).landLoad l bs tag pois)
    let near := l.bytes.filter (fun a => !remoteAddr a)
    if l.need ≠ 0 then .next s
    else match s.loadGate c near with
      | some s => .next s
      | none =>
        match s.frameBad c l.ctx near with
        | some pa =>
          let (fr, s) := s.freeBytes l.size
          .next (done (s.coreFault c 0x7031 (BitVec.ofNat 64 pa)) fr false true)
        | none =>
          let r := (s.hostFill near hostData).loadLocal c { l with bytes := near }
          let pois := r.2.2.1 || l.pois || (hostPoison && near.any (fun a => a.sp == .host))
          if l.bytes.any remoteAddr then
            (let (fr, s) := r.2.2.2.freeBytes l.size
             .next (done s (l.joinBytes r.1 fr) r.2.1 pois))
          else .next (done r.2.2.2 r.1 r.2.1 pois)

/-- R148. -/
def execProductLands (c : CoreId) (s : State) : Host.Outcome State Fault Refusal :=
  match (s.core c).products with
  | [] => .next s
  | p :: r => .next (s.updCore c (fun k => (({ k with products := r } : Core).setReg rMLO p.lo).setReg rMHI p.hi))

/-! ## Stores -/

/-- R300: the bytes of a store that fall into one granule, with its first address. -/
def storeParts (bs : List (SAddr × Byte)) : List (Nat × List Byte) :=
  (bs.map (fun x => x.1.a / 256)).eraseDups.filterMap (fun g =>
    match bs.filter (fun x => x.1.a / 256 == g) with
    | [] => none
    | y :: r => some (y.1.a, y.2 :: r.map Prod.snd))

/-- R236: the bytes of a store that fall into one line. -/
def State.storeKey (s : State) (c : CoreId) (e : StoreE) (key : Nat) : State :=
  let bs := e.bytes.filter (fun x => lineKey (x.1.sp == .host) (x.1.a / 64) == key)
  let lo := ((bs.head?).map (fun x => x.1.a % 64)).getD 0
  let vs := bs.map Prod.snd
  if e.nc then s.cohWrite key (maskAt lo vs.length) (dataAt lo vs) false
  else s.storeLine c key (maskAt lo vs.length) (dataAt lo vs) (if isHost key then none else e.cap.map (fun t => (lo / 16, t)))

/-- R159: an uncached st.c leaves its tag in memory, and in a copy that the region cache keeps. -/
def State.memTag (s : State) (pa : Nat) (tag : Bool) : State :=
  let h := s.homeOf (pa / 64)
  let s := s.updRegion h (fun r => { r with rc := r.rc.map (fun l =>
    if l.key == pa / 64 then { l with d := { l.d with tags := BitVec.ofNat 4 (setBits l.d.tags.toNat (pa % 64 / 16) (pa % 64 / 16) tag.toNat) } } else l) })
  { s with memTags := mset noFlag s.memTags (pa / 16) tag }

/-- R145: the halves of a store, before and after a 64-byte boundary. -/
def StoreE.halves (e : StoreE) : List StoreE :=
  let m := 64 - e.va.toNat % 64
  [{ e with bytes := e.bytes.take m }, { e with bytes := e.bytes.drop m, va := e.va + BitVec.ofNat 64 m }].filter (fun x => !x.bytes.isEmpty)

/-- R143, R236, R300: what a half of the oldest entry of the store buffer does where it drains. -/
def State.drainHalf (s : State) (c : CoreId) (e : StoreE) : State :=
  let a0 := ((e.bytes.head?).map Prod.fst).getD ⟨.tile, 0⟩
  let vs := e.bytes.map Prod.snd
  match a0.sp, paKind a0.a with
  | .tile, _ => s.updCore c (fun k => match e.cap with | some t => k.tileWriteTagged a0.a vs t | none => k.tileWrite a0.a vs)
  | .pa, .win d off => s.winWrite (.agent c) d off vs []
  | .pa, .remote _ _ =>
    (storeParts e.bytes).foldl (fun s p => match paKind p.1 with
      | .remote pos off => s.sendReq 0x02 e.ctx pos off p.2.length p.2 false (.store c e.ctx e.va.toNat e.bytes.length 0)
      | _ => s) s
  | _, _ =>
    let s := (memKeys (e.bytes.map Prod.fst)).foldl (fun s key => s.storeKey c e key) s
    match e.cap with
    | some t => if e.nc && a0.sp == .pa then s.memTag a0.a t else s
    | none => s

/-- R143, R145, R214: the halves drain in turn; one that the frame mask refuses is dropped and reported. -/
def State.drain (s : State) (c : CoreId) (e : StoreE) : State :=
  e.halves.foldl (fun s h =>
    match s.frameBad c e.ctx (h.bytes.map Prod.fst) with
    | some pa => s.coreFault c 0x7031 (BitVec.ofNat 64 pa)
    | none => s.drainHalf c h) s

/-- R143: the oldest store drains. -/
def execStoreDrain (c : CoreId) (hostData : List Byte) (s : State) : Host.Outcome State Fault Refusal :=
  match (s.core c).storeBuf with
  | [] => .next s
  | e :: r =>
    let bs := e.bytes.map Prod.fst
    match s.gate (if e.nc then none else some (coreCluster c)) (memKeys bs) true with
    | some s => .next s
    | none =>
      .next (((s.updCore c (fun k => { k with storeBuf := r })).hostFill bs hostData).drain c e)

/-! ## The vector engine and the tile queue -/

/-- R111: the last beat of entry i of the vector queue. -/
def execVectorRetire (c : CoreId) (i : Nat) (ariCycles : Nat) (s : State) : Host.Outcome State Fault Refusal :=
  let (fr, s) := s.free
  .next (s.updCore c (fun k => vRetire k i ariCycles fr))

/-- R128. -/
def execVectorGregWrite (c : CoreId) (i : Nat) (s : State) : Host.Outcome State Fault Refusal := .next (s.updCore c (fun k => vGregWrite k i))

/-- R123: a close with DEST = 0b01 or 0b10 that is queued, running or in Queue wait. A queued close takes the descriptor that an earlier
queued mx.open will leave. -/
def Core.queuesResult (k : Core) : Bool :=
  let sends (d : BitVec 256) : Bool := dDest d == 1 || dDest d == 2
  !k.qwait.isEmpty || arrays.any (fun a => match k.closes.get a with | some r => sends (k.tileAt a r.t).desc | none => false) ||
    arrays.any (fun a => [0, 1].any (fun (t : Fin 2) =>
      ((k.mq ++ k.seqHeldM).foldl (fun (x : BitVec 256 × Bool) e =>
        if e.m.getLsbD a.val && e.t == t then
          (match e.op with | .mopen d _ => (d, x.2) | .close => (x.1, x.2 || sends x.1) | .acc _ _ _ _ => x)
        else x) ((k.tileAt a t).desc, false)).2))

/-- R123: a bundle held for an empty tile queue, with no close to fill it: fault 0x2021 on the bundle. -/
def execTileQueueEmptyNoProducer (c : CoreId) (s : State) : Host.Outcome State Fault Refusal :=
  let k := s.core c
  let waits := match k.held with | some h => h.why == .tqEmpty | none => false
  .next (if waits && !k.queuesResult && k.fld 0x1418 0 0 = 1 then s.updCore c (fun k => k.faultHeld 0x2021) else s)

/-- R400, R401: a debugger asks for a halt: raised only while the core-debug scope is open. -/
def execDebugHaltRequest (c : CoreId) (s : State) : Host.Outcome State Fault Refusal :=
  .next (if 2 ≤ s.trust.openScope then s.updCore c (fun k => { k with haltReq := true }) else s)

/-- R275: Done: event 0x8041; the PATCH that asked ends with the granules copied. -/
def execPatchDone (r : RegionId) (s : State) : Host.Outcome State Fault Refusal :=
  let q := s.region r
  if q.patch.state = 3 then
    let s := s.updRegion r (fun q => { (q.count 0x40030 31 16 1) with patch := { q.patch with state := 4, ticket := none } })
    let s := (s.regionReport r 0x8041 true 0 (BitVec.ofNat 128 q.patch.lch)).mcRefill r
    .next (match q.patch.ticket with
      | some j => s.updJob j (fun x => { x with done := some (0, BitVec.ofNat 128 q.patch.done) })
      | none => s)
  else .next s

end Sys2Proof.Machine
end

