-- ==== Sys2Proof/Machine/TxEvents.lean ====
section
/-! DEFINITION. The transfer engine at work (R185 to R188, R198 to R200, R209): requests issued and completed, halts recorded, ends,
and the answers of Cretas through TXRES. -/

namespace Sys2Proof.Machine

/-! ## Where the bytes of a stream lie (R183, R190) -/

/-- The tile offset of byte p of a stage's items. -/
def Stream.slotByte (x : Stream) (p : Nat) : Nat := x.items.getD (p / max x.itemBytes 1 - x.item0) 0 + p % max x.itemBytes 1

/-- One side of byte j of element n: the space and the address (a virtual one in memory). -/
def Stream.srcPlace (x : Stream) (l : Last) (n j : Nat) : Nat × Nat :=
  if l.srcSp = 2 then (1, x.slotByte (n * l.esz + j)) else (l.srcSp, l.srcAt n + j)
def Stream.dstPlace (x : Stream) (l : Last) (n j : Nat) : Nat × Nat :=
  if l.dstSp = 2 then (1, x.slotByte (n * l.esz + j)) else (l.dstSp, l.dstAt n + j)

/-- Unit i of a request that begins at byte p: an element of an accumulate, else one byte. -/
def Stream.unitPlaces (x : Stream) (l : Last) (p i : Nat) : (Nat × Nat) × (Nat × Nat) :=
  if l.op ≠ 0 then (x.srcPlace l (p / l.esz + i) 0, x.dstPlace l (p / l.esz + i) 0)
  else (x.srcPlace l ((p + i) / l.esz) ((p + i) % l.esz), x.dstPlace l ((p + i) / l.esz) ((p + i) % l.esz))

/-- A side in memory goes on in the run that begins at a: step bytes for each unit, within one 256-byte granule. -/
def sideGoes (a b : Nat × Nat) (i step : Nat) : Bool :=
  a.1 != 0 || (b.1 == 0 && b.2 == a.2 + i * step && (b.2 + step - 1) / 256 == a.2 / 256)

/-- R185: how many units the request that begins at byte p takes: one at least, at most n more. -/
def Stream.runLength (x : Stream) (l : Last) (p : Nat) : Nat → Nat → Nat
  | 0, i => i
  | n + 1, i =>
    let a := x.unitPlaces l p 0
    let b := x.unitPlaces l p i
    let st := if l.op ≠ 0 then l.esz else 1
    let dt := if l.op ≠ 0 then l.dsz else 1
    if sideGoes a.1 b.1 i st && sideGoes a.2 b.2 i dt then Stream.runLength x l p n (i + 1) else i

/-! ## Issue (R185, R186, R188) -/

/-- R22, R218: translate n bytes of a side in memory; a window access that its range refuses, and an accumulate to a window, fault
like a reserved address (log 60). -/
def State.xlateSide (s : State) (c : CoreId) (ctx : BitVec 4) (va n : Nat) (acc : Acc) : Except (BitVec 16) (Xlate × Option WalkRes) :=
  match s.translate c ctx va acc with
  | .fault f => .error f
  | .ok x w =>
    let bad := match paKind x.pa with | .win d off => winReserved d off n || acc == .accum | _ => false
    if !x.host && bad then .error 0x7011 else .ok (x, w)

def placeAddr (x : Xlate) (va0 : Nat) (a : Nat × Nat) : SAddr :=
  if a.1 = 0 then ⟨if x.host then .host else .pa, x.pa + (a.2 - va0)⟩ else ⟨.tile, a.2⟩

/-- The bytes of a unit in tile memory, each with its poison. -/
def Core.tileUnit (k : Core) (n : Nat) (a : SAddr) : List (Byte × Bool) := (List.range n).map (fun i => (k.tileByte (a.a + i), k.tilePois (a.a + i) 1))

/-- Write units of bytes to tile memory, in order, as one write (R436). -/
def Core.landTile (k : Core) (l : List (SAddr × List (Byte × Bool))) : Core :=
  k.tileLand (l.flatMap (fun p => p.2.zipIdx.map (fun b => (p.1.a + b.2, b.1))))

/-- Split bytes into units. -/
def chunks {α : Type} (n : Nat) : Nat → List α → List (List α)
  | 0, _ => []
  | k + 1, l => if l.isEmpty then [] else l.take (max n 1) :: chunks n k (l.drop (max n 1))

def TxReq.dstUnits (q : TxReq) (d : List (Byte × Bool)) : List (SAddr × List (Byte × Bool)) :=
  (q.units.map Prod.snd).zip (chunks q.unit q.units.length d)

/-- R300: the message of a request's write or accumulate. -/
def txOpc (op : Nat) : BitVec 8 := if op = 0 then 0x02 else if op = 1 then 0x03 else if op = 2 then 0x04 else 0x05

/-- R185: a request that finds its next side in another package sends its message and waits. -/
def State.txSend (s : State) (c : CoreId) (q : TxReq) : State :=
  let src := ((q.units.head?).map Prod.fst).getD ⟨.tile, 0⟩
  let dst := ((q.units.head?).map Prod.snd).getD ⟨.tile, 0⟩
  match q.data with
  | none =>
    (match src.sp, paKind src.a with
     | .pa, .remote pos off =>
       let s := s.updCore c (fun k => { k with txReqs := k.txReqs.map (fun r => if r.tag = q.tag then { r with msg := true } else r) })
       s.sendReq 0x01 q.sctx pos off (q.units.length * q.unit) [] false (.tx c q.tag)
     | _, _ => s)
  | some d =>
    match dst.sp, paKind dst.a with
    | .pa, .remote pos off =>
      let s := s.updCore c (fun k => { k with txReqs := k.txReqs.map (fun r => if r.tag = q.tag then { r with msg := true } else r) })
      s.sendReq (txOpc q.op) q.dctx pos off d.length (d.map Prod.fst) (d.any Prod.snd) (.tx c q.tag)
    | _, _ => s

def State.txHalt (s : State) (c : CoreId) (i : Nat) (ctx : BitVec 4) (code : BitVec 16) (va p : Nat) : State :=
  (s.noteXFault c ctx va).updCore c (fun k => k.haltStream i code va p)

/-- R185: the next request of stream i. -/
def State.txIssue (s : State) (c : CoreId) (i : Nat) (x : Stream) (l : Last) (tagWait : Nat) : State :=
  let k := s.core c
  let p := x.issued
  let tileOnly := l.srcSp ≠ 0 && l.dstSp ≠ 0
  let unit := if l.op ≠ 0 then l.esz else 1
  let left := (x.limit - p) / unit
  let n := x.runLength l p (min (left - 1) (if tileOnly then 63 else 255)) 1
  let pl (j : Nat) := x.unitPlaces l p j
  let a := (pl 0).1
  let b := (pl 0).2
  let near : Xlate := ⟨0, false, false⟩
  let src := if a.1 = 0 then s.xlateSide c l.sctx a.2 (n * unit) .load else .ok (near, none)
  let dst := if b.1 = 0 then s.xlateSide c l.dctx b.2 (n * (if l.op ≠ 0 then l.dsz else 1)) (if l.op ≠ 0 then .accum else .store) else .ok (near, none)
  match src, dst with
  | .error f, _ => s.txHalt c i l.sctx f a.2 p
  | _, .error f => s.txHalt c i l.dctx f b.2 p
  | .ok (xs, ws), .ok (xd, wd) =>
    let s := (s.noteWalk c ws).noteWalk c wd
    let units := (List.range n).map (fun j => (placeAddr xs a.2 (pl j).1, placeAddr xd b.2 (pl j).2))
    if l.op ≠ 0 && b.1 = 0 && xd.host then s.abortStream c i 0xA020 b.2 p false
    else
      let data := if a.1 = 0 then none else some (units.flatMap (fun u => k.tileUnit unit u.1))
      let q : TxReq := { tag := 0, s := i, gen := x.gen, e0 := p, n := n * unit, unit := unit, op := l.op, units := units, data := data, bulk := l.bulk,
                         crit := l.prio, nc := xs.nc, sctx := l.sctx, dctx := l.dctx,
                         vas := (if a.1 = 0 then [(l.sctx, a.2)] else []) ++ (if b.1 = 0 then [(l.dctx, b.2)] else []) }
      if tileOnly then
        s.updCore c (fun k => ((k.landTile (q.dstUnits (data.getD []))).updStream i (fun x => { x with issued := p + q.n })).landed i p q.n)
      else
        let s := s.updCore c (fun k => k.count 0x1928 63 0 tagWait)
        match k.tagFor l.bulk with
        | none => s
        | some t =>
          let q := { q with tag := t }
          (s.updCore c (fun k => ({ k with txReqs := k.txReqs ++ [q] } : Core).updStream i (fun x => { x with issued := p + q.n }))).txSend c q

def execTxRequestIssue (c : CoreId) (s : StreamId) (tagWait : Nat) (st : State) : Host.Outcome State Fault Refusal :=
  match (st.core c).stream s.val with
  | some x =>
    match x.last with
    | some l => .next (if x.st == .running && decide (x.issued < x.limit) then st.txIssue c s.val x l tagWait else st)
    | none => .next st
  | none => .next st

/-! ## Completion (R185, R186, R214, R281) -/

/-- R200: a request that its fault refused lands nowhere, and its stream aborts. -/
def State.txRefused (s : State) (c : CoreId) (q : TxReq) (code : BitVec 16) (va : Nat) : State :=
  (s.updCore c (fun k => { k with txReqs := k.txReqs.filter (fun r => r.tag != q.tag) })).abortStream c q.s code va q.e0 false

/-- R265, R214, R221: a request at a controller's ring stop. One that its frame owner mask refuses has no effect: a transfer's stream aborts,
any other is reported to its sender. -/
def execMcRequestArrival (r : RegionId) (q : MReq) (s : State) : Host.Outcome State Fault Refusal :=
  let pa := q.pa.toNat
  if devSpan pa q.len && 0 < q.len && (s.place pa).region == r && pa % 256 + q.len ≤ 256 && q.src != .own then
    .next (if s.frameOk q.ctx pa then s.mcArrive q
      else match q.src with
        | .tx c t => (match (s.core c).txReqs.find? (fun x => x.tag == t) with
          | some x => s.txRefused c x 0x7031 (((x.vas.getLast?).map Prod.snd).getD 0)
          | none => s.coreFault c 0x7031 (BitVec.ofNat 64 pa))
        | .walk c => s.coreFault c 0x7031 (BitVec.ofNat 64 pa)
        | _ => s.regionReport r 0x7031 false (BitVec.ofNat 64 pa))
  else .next s

/-- Bytes in runs of equal poison, with the place of each run. -/
def poisonRuns : List (Nat × (Byte × Bool)) → List (Nat × List Byte × Bool)
  | [] => []
  | (i, b, p) :: r =>
    match poisonRuns r with
    | (j, bs, q) :: t => if q = p then (i, b :: bs, p) :: t else (i, [b], p) :: (j, bs, q) :: t
    | [] => [(i, [b], p)]

/-- R282: an accumulate at its controller: cached copies are written back and invalidated first (R243, R241). -/
def State.cohAcc (s : State) (op a : Nat) (bs : List Byte) (pois : List Bool) : State × Option (BitVec 16) :=
  let n := bs.length / accBytes op * 4
  let keys := (List.range ((a + max n 1 - 1) / 64 + 1 - a / 64)).map (fun i => a / 64 + i)
  let s := keys.foldl (fun s key =>
    let s := match s.dirtyData key with | some d => (s.landMoves key).homeWriteback key d | none => s
    (s.invalidateAll key none none).rcFlush key) s
  (s.settle a n).memAcc op a bs pois

/-- The byte that a read of its line takes: the cluster's own copy first. -/
def State.fetchFor (s : State) (cl : ClusterId) (host : Bool) (a : Nat) : Byte × Bool :=
  let key := lineKey host (a / 64)
  let d := match (s.cluster cl).supply key with | some y => y.d | none => (s.fetchLine cl key).1
  ((d.bytes (a % 64) 1).headD 0, d.bad (a % 64) 1)

/-- The source bytes of a request, read now (R185, R235): streaming, or uncached. -/
def State.txRead (s : State) (c : CoreId) (q : TxReq) : List (Byte × Bool) × State :=
  let a := ((q.units.head?).map Prod.fst).getD ⟨.tile, 0⟩
  let n := q.units.length * q.unit
  match a.sp, paKind a.a with
  | .pa, .win d off => let r := s.winRead d off n; (r.1.map (fun b => (b, r.2)), s)
  | sp, _ =>
    let cl := coreCluster c
    let r := (List.range n).map (fun i => ((s.fetchFor cl (sp == .host) (a.a + i)), i))
    let s := (lineKeys ((List.range n).map (fun i => ⟨sp, a.a + i⟩))).foldl (fun s key =>
      if q.nc then (s.cohReadCur cl key).2 else (s.cohRead cl key false true).2) s
    (r.map Prod.fst, s)

/-- Reorder a list by places; places that ord leaves out follow in their order. -/
def reorder {α : Type} (l : List α) (ord : List Nat) : List α :=
  let o := ord.eraseDups.filter (fun i => decide (i < l.length))
  (o ++ (List.range l.length).filter (fun i => !o.contains i)).filterMap (fun i => l[i]?)

/-- What a request writes once its data are there. -/
def State.txWrite (s : State) (c : CoreId) (q : TxReq) (d : List (Byte × Bool)) (ord : List Nat) : State :=
  let a := ((q.units.head?).map Prod.snd).getD ⟨.tile, 0⟩
  let us := q.dstUnits d
  match a.sp, paKind a.a with
  | .tile, _ => (s.updCore c (fun k => k.landTile (reorder us ord))).txDone c q
  | .pa, .win dd off => (s.winWrite (.agent c) dd off (d.map Prod.fst) (d.map Prod.snd)).txDone c q
  | sp, _ =>
    if q.op ≠ 0 then
      let r := us.foldl (fun (r : State × Option (BitVec 16)) u =>
        let y := r.1.cohAcc q.op u.1.a (u.2.map Prod.fst) (u.2.map Prod.snd)
        (y.1, r.2.orElse (fun _ => y.2))) (s, none)
      match r.2 with
      | some code => r.1.txRefused c q code (((q.vas.getLast?).map Prod.snd).getD 0)
      | none => r.1.txDone c q
    else
      let runs := poisonRuns (d.zipIdx.map (fun p => (p.2, p.1)))
      (runs.foldl (fun s r => s.cohPut (sp == .host) (a.a + r.1) r.2.1 r.2.2) s).txDone c q

/-- R214: the frame mask refuses a side in device memory. -/
def State.txFrameBad (s : State) (c : CoreId) (ctx : BitVec 4) (a : SAddr) (n : Nat) : Bool :=
  a.sp == .pa && (paKind a.a == .dev) && (s.frameBad c ctx (bytesAt .pa a.a n)).isSome

/-- A request's data and its acknowledgement: what waits at a home or at the port waits on (R359, R363). -/
def State.txComplete (s : State) (c : CoreId) (q : TxReq) (ord : List Nat) (hostData : List Byte) (outPoison : Bool) : State :=
  let src := ((q.units.head?).map Prod.fst).getD ⟨.tile, 0⟩
  let dst := ((q.units.head?).map Prod.snd).getD ⟨.tile, 0⟩
  let n := q.units.length * q.unit
  let sb := bytesAt src.sp src.a n
  let va (i : Nat) := ((q.vas[i]?).map Prod.snd).getD 0
  let waits : Option State := if q.data.isNone then s.gate (some (coreCluster c)) (memKeys sb) false else none
  match waits with
  | some s => s
  | none =>
    if q.data.isNone && s.txFrameBad c q.sctx src n then s.txRefused c q 0x7031 (va 0)
    else
      let r : List (Byte × Bool) × State := match q.data with
        | some d => (d, s)
        | none => let r := (s.hostFill sb hostData).txRead c q
                  (r.1.map (fun b => (b.1, b.2 || (outPoison && src.sp == .host))), r.2)
      let d := r.1
      let s := r.2
      let q : TxReq := { q with data := some d }
      let s := s.updCore c (fun k => { k with txReqs := k.txReqs.map (fun r => if r.tag = q.tag then q else r) })
      let m := q.units.length * (if q.op = 2 then 4 else q.unit)
      if dst.sp == .pa && dst.a.testBit 47 then s.txSend c q
      else match s.gate none (memKeys (bytesAt dst.sp dst.a m)) true with
        | some s => s
        | none =>
          if dst.sp == .pa && (paKind dst.a == .dev) && ((List.range m).any (fun i => !s.frameOk (some q.dctx) (dst.a + i))) then
            s.txRefused c q 0x7031 (va (q.vas.length - 1))
          else s.txWrite c q d ord

def execTxRequestComplete (c : CoreId) (tag : Nat) (ord : List Nat) (hostData : List Byte) (outPoison : Bool) (s : State) :
    Host.Outcome State Fault Refusal :=
  match (s.core c).txReqs.find? (fun q => q.tag == tag) with
  | none => .next s
  | some q => .next (if q.msg then s else s.txComplete c q ord hostData outPoison)

/-! ## Halts, ends and the answers of Cretas (R198 to R200, R209) -/

/-- R347: the fault ring has room for one more record, those that wait counted. LOC = 0 needs the host link. -/
def State.ringOpen (s : State) (base ctl : Nat) : Bool := s.barFld ctl 0 0 = 1 && (s.barFld base 0 0 = 1 || s.hostUp)
def State.frRoom (s : State) (waiting : Nat) : Bool := s.ringOpen 0x2000 0x2008 && decide (s.ringHeld 0x2018 0x2010 + waiting < 1024)

/-- R347: each fault record that finds no room waits, and counts once. -/
def State.noteHeld (s : State) : State :=
  let l := s.frWait.zipIdx.map (fun p => (p.1, !p.1.held && !s.frRoom p.2))
  let n := (l.filter Prod.snd).length
  { (if n = 0 then s else s.barCount 0x2020 63 0 n) with frWait := l.map (fun p => if p.2 then { p.1 with held := true } else p.1) }

/-- R347: the driver consumes fault records. -/
def execFrHeadWrite (v : W32) (s : State) : Host.Outcome State Fault Refusal := .next (s.noteHeld.setBarFld 0x2010 31 0 v.toNat)

/-- R198 steps 3 and 4. -/
def execStreamHaltRecord (c : CoreId) (s : StreamId) (st : State) : Host.Outcome State Fault Refusal :=
  let i := s.val
  match (st.core c).stream i with
  | none => .next st
  | some x =>
    match x.last with
    | none => .next st
    | some l =>
      if x.st != .halting || (st.core c).outstanding x.gen then .next st
      else
        let n := x.pos / l.esz
        let st1 := if x.wrote then st else st.updCore c (fun k => (k.tileWrite l.resume (x.darn c 3 x.code n n)).updStream i (fun x => { x with wrote := true }))
        if !st1.frRoom st1.frWait.length then .next (if x.wrote then st1 else st1.barCount 0x2020 63 0 1)
        else
          let st2 := st1.streamReport c i x x.code false true 0
          let st2 := { st2 with frWait := listUpd (fun r => { r with held := x.wrote }) st2.frWait (st2.frWait.length - 1) }
          .next (st2.updCore c (fun k =>
            let k := (k.updStream i (fun x => { x with st := .halted, wrote := false })).count 0x1918 15 0 1
            if l.irq then k.raiseInt 2 else k))

/-- R193, R200: a stream ends. -/
def State.streamEnd (s : State) (c : CoreId) (i : Nat) : State :=
  let s := match (s.core c).stream i with | some x => if x.fused.isSome then s.updCore c (fun k => k.settleFused i) else s | none => s
  let k := s.core c
  match k.stream i with
  | none => s
  | some x =>
    match x.last, x.fused with
    | some l, _ =>
      let whole := x.st == .running && covered x.landed 0 l.total
      let stopped := x.st == .aborting && !k.outstanding x.gen
      if whole || stopped then
        s.updCore c (fun k =>
          let k := k.updStream i (fun x => { x with st := .ended })
          let k := if stopped then k.tileWrite (l.resume + 16) (leBytes 8 x.delivered) else k
          if l.irq then k.raiseInt 2 else k)
      else s
    | none, some u =>
      if x.st != .ended && u.sinksDone && k.fusedQuiet u then
        s.updCore c (fun k =>
          let k := k.updStream i (fun x => { x with st := .ended })
          let k := (u.stages.filterMap StageS.child).foldl (fun k j => k.updStream j (fun y => { y with st := .ended })) k
          if u.irq then k.raiseInt 2 else k)
      else s
    | none, none => s

def execStreamEnd (c : CoreId) (s : StreamId) (st : State) : Host.Outcome State Fault Refusal := .next (st.streamEnd c s.val)

/-- R199: the indices that a darn record holds name an element; where they exceed the counts the stream ends its elements. -/
def Last.elementOf (l : Last) (idx : List Nat) : Nat :=
  ((l.counts.zip idx).foldl (fun (a : Nat × Nat) p => (a.1 + a.2 * p.2, a.2 * p.1)) (0, 1)).1

/-- R209: TXRES takes Cretas' answer to a halted stream; any other write is counted. -/
def State.txres (s : State) (w : Writer) (c : CoreId) (i : Nat) (resume : Bool) : State :=
  match (s.core c).stream i with
  | some x =>
    match x.last with
    | some l =>
      if w == .cretas && x.st == .halted then
        if resume then
          let rec_ := (s.core c).tileRead l.resume 64
          let n := l.elementOf ((List.range 5).map (fun d => leNat ((rec_.drop (40 + 4 * d)).take 4)))
          s.updCore c (fun k => k.updStream i (fun x => { x with st := .running, issued := min l.total (n * l.esz), code := 0 }))
        else s.abortStream c i x.code x.va.toNat x.pos true
      else s.rejectReg c 0x1910
    | none => s.rejectReg c 0x1910
  | none => s.rejectReg c 0x1910

def execTxresResume (w : Writer) (c : CoreId) (s : StreamId) (st : State) : Host.Outcome State Fault Refusal := .next (st.txres w c s.val true)
def execTxresAbort (w : Writer) (c : CoreId) (s : StreamId) (st : State) : Host.Outcome State Fault Refusal := .next (st.txres w c s.val false)

/-- R209: a register write of TXRES: the stream, and the action 1 resume or 2 abort. -/
def State.txresWrite (s : State) (w : Writer) (c : CoreId) (v : W64) : State :=
  if v.getLsbD 4 == v.getLsbD 5 then s.rejectReg c 0x1910 else s.txres w c (bitsOf v.toNat 3 0) (v.getLsbD 4)

/-- R7: a register write with no row of its own. -/
def execRegisterWrite (w : Writer) (t : RegTarget) (off size : Nat) (v : BitVec 512) (s : State) : Host.Outcome State Fault Refusal :=
  let blk (f : Nat → W64 → Nat → State) : State := match regAccess off size v with | some (o, x, m) => f o x m | none => s
  let blkCore (f : Nat → W64 → Nat → State) : State := match regAccessCore off size v with | some (o, x, m) => f o x m | none => s
  match t with
  | .core c => .next (blkCore (fun o x m => if o = 0x1910 then s.txresWrite w c x else s.writeCore w c o x m))
  | .cluster cl => .next (blk (fun o x m => s.writeCluster cl o x m))
  | .region r => .next (blk (fun o x m => s.writeRegion r o x m))
  | .die d => .next (blk (fun o x m => s.writeDie w d o x m))
  | .cxlPort => .next (blk (fun o x m => s.writeCxl o x m))
  | .bar0 => .next (s.noteHeld.barAccess off size v)
  | .msix => .next (s.msixWrite off size v)
  | .hdm => .next (if size = 4 then s.hdmWrite off (v.setWidth 32) else s)
  | .dvsec => .next (if size = 4 then s.dvsecWrite off (v.setWidth 32) else s)
  | .config => .next (if size = 4 then s.configWrite off v.toNat else s)

end Sys2Proof.Machine
end

