-- ==== Sys2Proof/Machine/Receive.lean ====
section
/-! DEFINITION. What a package does with a message that has reached it (R299 to R305, R307): the sequence table, windows, remote
accumulates, acknowledgements, refusals, window and barrier messages; and the DATA flits that bring them (R293, R295). -/

namespace Sys2Proof.Machine

/-! ## Form (R297, R300) -/

def isReq (opc : BitVec 8) : Bool := [0x01#8, 0x02#8, 0x03#8, 0x04#8, 0x05#8].contains opc

/-- R297: the virtual channels of an opcode. -/
def vcFits (opc : BitVec 8) (vc : Nat) : Bool :=
  if isReq opc then decide (vc < 8)
  else if opc == 0x10 || opc == 0x11 then vc == 12
  else if opc == 0x20 || opc == 0x21 then vc == 14
  else if opc == 0x80 || opc == 0x81 || opc == 0x82 then decide (8 ≤ vc) && decide (vc < 12)
  else opc == 0x90 && vc == 13

/-- R299: bits of OFFSET that a message leaves 0. -/
def offsetFits (opc : BitVec 8) (m : Msg) : Bool :=
  let o := m.offset.toNat
  if opc == 0x80 || opc == 0x81 then o % 2 ^ 33 == 0
  else if opc == 0x82 then o % 2 ^ 17 == 0
  else if opc == 0x20 || opc == 0x21 then decide (o < 2 ^ 34)
  else true

def malformedMsg (opc : BitVec 8) (m : Msg) : Bool := !vcFits opc m.vc.toNat || decide (256 < m.len.toNat) || m.rsv != 0 || !offsetFits opc m

def State.dropMalformed (s : State) : State := (s.smCount smMALFORMED 1).pkgReport 0x9060 false 0

/-! ## The sequence table (R301 to R303) -/

def State.recvCh (s : State) (src : BitVec 10) (vc : BitVec 4) : Option RecvCh := s.recvChs.find? (fun c => c.src == src && c.vc == vc)
def State.setRecvCh (s : State) (c : RecvCh) : State :=
  { s with recvChs := (s.recvChs.filter (fun x => !(x.src == c.src && x.vc == c.vc))) ++ [c] }

/-- R297: a response to a request of channel vc from src. -/
def respMsg (src : BitVec 10) (vc : BitVec 4) (tsn : BitVec 32) (len code : Nat) : Msg :=
  { plainMsg (BitVec.ofNat 4 (8 + vc.toNat % 4)) src len (vc.toNat * 2 ^ 33 + code * 2 ^ 17) with tsn := tsn }

/-- R303: acknowledge a channel up to what it has applied. -/
def State.sendAck (s : State) (c : RecvCh) : State :=
  (s.setRecvCh { c with since := 0 }).sendPlain 0x80 (respMsg c.src c.vc (c.expected - 1) 0 0)

/-- R303: one more message applied: an ACK after every ACKN. -/
def State.noteApplied (s : State) (c : RecvCh) : State :=
  if s.seamFld 47 40 ≤ c.since + 1 then s.sendAck c else s.setRecvCh { c with since := c.since + 1 }

/-! ## Effects (R228, R281, R300, R303) -/

def winOpOf (opc : BitVec 8) : WinOp := if opc = 0x01 then .read else if opc = 0x02 then .write else .acc

/-- R300: bytes of the destination that a request touches. -/
def reqBytes (opc : BitVec 8) (m : Msg) : Nat := if opc = 0x04 then 2 * m.len.toNat else m.len.toNat

def State.nack (s : State) (m : Msg) (code : BitVec 16) : State := s.sendPlain 0x82 (respMsg m.src m.vc m.tsn 0 code.toNat)

/-- R228, R230: the window of a request: the one it passed before it had to wait, else its lookup now. -/
def State.winFor (s : State) (opc : BitVec 8) (m : Msg) (win : Option WinHit) : WinRes :=
  match win with
  | some x => .ok x.w x.pa x.ctx
  | none => s.winLookup m.offset.toNat m.src (winOpOf opc)

/-- R228, R214, R281, R300: a request applied: looked up in a window, checked by the frame masks, and served. A misaligned accumulate
is refused to its sender. -/
def State.serve (s : State) (opc : BitVec 8) (m : Msg) (win : Option WinHit) : State :=
  match s.winFor opc m win with
  | .refused w code => (s.winRefuse w).nack m code
  | .ok _ pa ctx =>
    let n := max 1 (reqBytes opc m)
    if !s.frameOk (some ctx) pa || !s.frameOk (some ctx) (pa + n - 1) then
      (s.regionReport (s.place pa).region 0x7031 false (BitVec.ofNat 64 pa)).nack m 0x7031
    else if opc = 0x01 then
      let r := readLines (fun s key => s.cohReadCur 0 key) (m.len.toNat / 64 + 2) s false pa m.len.toNat
      r.2.2.sendPlain 0x81 { respMsg m.src m.vc m.tsn m.len.toNat 0 with data := r.1, pois := r.2.1 }
    else if opc = 0x02 then s.cohPut false pa m.data m.pois
    else
      let r := s.cohAcc (opc.toNat - 2) pa m.data (List.replicate m.data.length m.pois)
      match r.2 with
      | some code => r.1.nack m code
      | none => r.1

/-- R300: the 16 data bytes that tell a package of window entry w. -/
def State.winInfo (s : State) (w : Nat) (pos : BitVec 10) : List Byte :=
  let mine := s.winFld w 8 8 = 1 || s.winFld w 25 16 = pos.toNat
  let perm := if mine then s.winFld w 1 1 + 2 * s.winFld w 2 2 + 4 * s.winFld w 3 3 else 0
  leBytes 2 (s.winFld w 43 32) ++ leBytes 2 (s.winFld w 55 44) ++ [BitVec.ofNat 8 (perm + 128)] ++ List.replicate 11 0

def State.winAnswer (s : State) (off : Nat) (pos : BitVec 10) : List Byte :=
  match (List.range 64).find? (fun w => s.winOpen w && decide ((s.winSpan w).1 * 2 ^ 25 ≤ off) && decide (off < ((s.winSpan w).1 + (s.winSpan w).2) * 2 ^ 25)) with
  | some w => s.winInfo w pos
  | none => List.replicate 16 0

/-- R300, R307: what applying a sequenced message does. -/
def State.applyMsg (s : State) (opc : BitVec 8) (m : Msg) (win : Option WinHit) : State :=
  if m.void then s.smCount smVOIDED 1
  else if isReq opc then s.serve opc m win
  else if opc = 0x10 then
    s.sendPlain 0x90 { plainMsg 13 m.src 16 (12 * 2 ^ 33) with tsn := m.tsn, data := s.winAnswer m.offset.toNat m.src }
  else if opc = 0x11 then
    s.post { code := 0x9070, event := true, level := 5, num := m.src.toNat, die := 0, detail := BitVec.ofNat 128 (leNat m.data) }
  else
    let ch : PressId := Fin.ofNat 4 (m.offset.toNat / 2 ^ 32)
    let e : BitVec 32 := BitVec.ofNat 32 m.offset.toNat
    if opc = 0x20 then let r := s.barArrive ch m.src e; if r.2 then r.1 else s.dropMalformed
    else s.barRelease ch e

/-- R302: a duplicate: counted, acknowledged at most once in a microsecond, and an RD is served again. -/
def State.duplicate (s : State) (opc : BitVec 8) (m : Msg) (win : Option WinHit) (c : RecvCh) : State :=
  let s := s.smCount smDUP 1
  let now := (s.die 0).ts
  let due := match c.dupTs with | some t => decide (t.toNat + 2000 ≤ now.toNat) | none => true
  let s := if due then (s.setRecvCh { c with dupTs := some now }).sendPlain 0x80 (respMsg c.src c.vc (c.expected - 1) 0 0) else s
  if opc = 0x01 && !m.void then s.serve opc m win else s

/-- R302: what the sequence table makes of a sequenced message. -/
def State.sequenced (s : State) (opc : BitVec 8) (m : Msg) (win : Option WinHit) : State :=
  let go (c : RecvCh) : State :=
    let s := s.applyMsg opc m win
    s.noteApplied c
  match s.recvCh m.src m.vc with
  | none => go { src := m.src, vc := m.vc, incarn := m.incarn, expected := m.tsn + 1 }
  | some c =>
    if c.incarn ≠ m.incarn then
      (if m.tsn = 0 then go { src := m.src, vc := m.vc, incarn := m.incarn, expected := 1 } else s.smCount smOOO 1)
    else if m.tsn = c.expected then go { c with expected := c.expected + 1 }
    else if 2 ^ 31 ≤ (m.tsn - c.expected).toNat then s.duplicate opc m win c
    else s.smCount smOOO 1

/-- R359: the lines of device memory that a request of another package needs. -/
def State.msgKeys (s : State) (opc : BitVec 8) (m : Msg) (win : Option WinHit) : List Nat :=
  if !isReq opc || m.void then []
  else match s.winFor opc m win with
    | .ok _ pa _ => memKeys (bytesAt .pa pa (max 1 (reqBytes opc m)))
    | .refused _ _ => []

def HomeReq.sameCh (r : HomeReq) (m : Msg) : Bool := match r with | .msg _ x _ => x.src == m.src && x.vc == m.vc | _ => false

/-- R230: the window that a request has passed. -/
def State.winPassed (s : State) (opc : BitVec 8) (m : Msg) (win : Option WinHit) : Option WinHit :=
  if !isReq opc then none else match s.winFor opc m win with | .ok w pa ctx => some ⟨w, pa, ctx⟩ | .refused _ _ => none

/-- A sequenced message at its destination: it waits where its home waits for a back-invalidation, and behind its channel. -/
def State.takeSeq (s : State) (opc : BitVec 8) (m : Msg) (win : Option WinHit := none) : State :=
  if s.homeWait.any (fun r => r.sameCh m) then { s with homeWait := s.homeWait ++ [.msg opc m win] }
  else match s.gate none (s.msgKeys opc m win) (opc != 0x01) with
    | some s' => { s' with homeWait := s'.homeWait ++ [.msg opc m (s.winPassed opc m win)] }
    | none => s.sequenced opc m win

/-! ## Responses (R303, R305) -/

/-- The channel that a response answers. -/
def State.answered (s : State) (m : Msg) : SendCh := s.sendCh m.src (BitVec.ofNat 4 (m.offset.toNat / 2 ^ 33))

/-- R185, R303: a request is complete: its engine, its store or its command goes on. The command is MAP form 1, whose RESULT names its
window (R334). -/
def State.askerDone (s : State) (x : Sent) : State :=
  if x.m.void then s
  else match x.who with
    | .tx c tag => (match (s.core c).txReqs.find? (fun q => q.tag == tag) with | some q => s.txDone c q | none => s)
    | .cmd j => if x.opc != 0x11 then s
      else s.updJob j (fun y => if y.done.isNone && y.stream == some x.m.tsn.toNat then { y with done := some (0, BitVec.ofNat 128 (y.num 17 1)) } else y)
    | _ => s

/-! ### PAIR's answer (R378, R379) -/

/-- CRC-64 of R149 as R376 takes it: from all ones, inverted at the end. -/
def crc64Sum (l : List Byte) : Nat := (l.foldl (fun c b => crcStep c b.toNat 1 polyCrc64) (2 ^ 64 - 1)) ^^^ (2 ^ 64 - 1)

/-- R378: a valid store header. -/
def storeValid (h : List Byte) : Bool := h.headD 0 == 1 && leNat ((h.drop 16).take 8) == crc64Sum (h.take 16)

/-- Record a pairing: RS.STAT bits 3 to 5 and PARTNER. -/
def State.recordPair (s : State) (pos : Nat) (host indep forced : Bool) (feed : Byte) (cur slot : Nat) : State :=
  let s := (((s.setPkgFld 0x800100 3 3 1).setPkgFld 0x800100 4 4 indep.toNat).setPkgFld 0x800100 5 5 host.toNat).setPkgFld 0x800100 25 16 pos
  s.updRs (fun z => { z with pfeed := feed, forced := forced, cur := cur, slotLen := slot })

/-- R379: what the 64 bytes of a partner's store make of the PAIR that reads them; poisoned bytes are no valid header (log 66). -/
def State.pairWith (s : State) (j : Nat) (x : JSlot) (h : List Byte) (pois : Bool) : State :=
  let p := x.num 16 2
  let n (lo k : Nat) : Nat := leNat ((h.drop lo).take k)
  let same := n 6 1 == s.straps.feed.toNat
  let done (s : State) (code : BitVec 16) (r : Nat) : State := s.updJob j (fun y => { y with done := some (code, BitVec.ofNat 128 r) })
  if pois || decide (h.length < 64) || !storeValid h || n 2 2 != s.straps.pos.toNat || n 4 2 != p then done s 0xB013 0
  else if same && x.num 18 1 != 1 then done s 0xB031 0
  else done (s.recordPair p false (!same) same (h.getD 6 0) (n 24 1) (n 8 8)) 0 (!same).toNat

/-- R379: the read data that a PAIR waits for. -/
def State.pairAnswer (s : State) (j : Nat) (m : Msg) : State :=
  match s.job j with
  | some x => if x.started && x.done.isNone && x.num 0 2 == 0x32 && x.stream == some m.tsn.toNat then s.pairWith j x m.data m.pois else s
  | none => s

/-- R303: an ACK at TSN t covers every message up to t but the reads, which their data complete. -/
def State.ackUpTo (s : State) (c : SendCh) (t : BitVec 32) : State :=
  let hit (x : Sent) : Bool := decide ((t - x.m.tsn).toNat < 2 ^ 31) && (x.opc != 0x01 || x.m.void)
  let s := s.setSendCh { c with unacked := c.unacked.filter (fun x => !hit x) }
  (c.unacked.filter hit).foldl (fun s x => s.askerDone x) s

/-- R300: read data complete a remote read. -/
def State.readAnswer (s : State) (m : Msg) : State :=
  let c := s.answered m
  match c.unacked.find? (fun x => x.m.tsn == m.tsn && x.opc == 0x01) with
  | none => s
  | some x =>
    let s := s.setSendCh { c with unacked := c.unacked.filter (fun y => y.m.tsn != m.tsn) }
    match x.who with
    | .tx k tag => s.updCore k (fun q => { q with txReqs := q.txReqs.map (fun r =>
        if r.tag = tag then { r with msg := false, data := some (m.data.map (fun b => (b, m.pois))) } else r) })
    | .load k toCap reg off => s.updCore k (fun q => q.partDone toCap reg (some (off, m.data, m.pois)))
    | .cmd j => s.pairAnswer j m
    | _ => s

/-- R303, R221: a refusal completes its request with the code: a stream aborts, a scalar access is reported. -/
def State.refusedBy (s : State) (m : Msg) : State :=
  let c := s.answered m
  let code : BitVec 16 := BitVec.ofNat 16 (m.offset.toNat / 2 ^ 17)
  match c.unacked.find? (fun x => x.m.tsn == m.tsn) with
  | none => s
  | some x =>
    let s := s.setSendCh { c with unacked := c.unacked.filter (fun y => y.m.tsn != m.tsn) }
    let det := x.m.dst.toNat + x.m.offset.toNat * 2 ^ 16
    match x.who with
    | .tx k tag => (match (s.core k).txReqs.find? (fun q => q.tag == tag) with
      | some q => s.txRefused k q code (((q.vas.getLast?).map Prod.snd).getD 0)
      | none => s)
    | .load k toCap reg _ => (s.updCore k (fun q => q.partDone toCap reg none)).coreFault k code 0 (BitVec.ofNat 128 det)
    | .store k _ _ _ _ => s.coreFault k code 0 (BitVec.ofNat 128 det)
    | .repl => s.replFail code
    | .cmd j => s.unanswered j m.tsn
    | _ => s

/-- R305: a WINR for a command that waits for it is its result; any other is discarded. -/
def State.windowAnswer (s : State) (m : Msg) : State :=
  match s.journal.find? (fun p => p.2.started && p.2.done.isNone && (p.2.entry.toNat % 2 ^ 16 == 0x50) && bitsOf p.2.entry.toNat 135 128 == 2 &&
      bitsOf p.2.entry.toNat 159 144 == m.src.toNat && p.2.gen == m.tsn.toNat) with
  | some p => s.updJob p.1 (fun x => { x with done := some (0, BitVec.ofNat 128 (leNat m.data)) })
  | none => s

/-! ## Arrival -/

/-- A message that has reached its destination. -/
def State.receive (s : State) (opc : BitVec 8) (m : Msg) : State :=
  if malformedMsg opc m then s.dropMalformed
  else if opc = 0x80 then s.ackUpTo (s.answered m) m.tsn
  else if opc = 0x81 then s.readAnswer m
  else if opc = 0x82 then s.refusedBy m
  else if opc = 0x90 then s.windowAnswer m
  else s.takeSeq opc m

/-- R306: a message for another package goes on. -/
def State.arriveMsg (s : State) (opc : BitVec 8) (m : Msg) : State :=
  if m.dst == s.straps.pos then s.receive opc m else s.forward none opc m

def execMsgRd (m : Msg) (s : State) : Host.Outcome State Fault Refusal := .next (s.arriveMsg 0x01 m)
def execMsgWr (m : Msg) (s : State) : Host.Outcome State Fault Refusal := .next (s.arriveMsg 0x02 m)
def execMsgRaf (m : Msg) (s : State) : Host.Outcome State Fault Refusal := .next (s.arriveMsg 0x03 m)
def execMsgRab (m : Msg) (s : State) : Host.Outcome State Fault Refusal := .next (s.arriveMsg 0x04 m)
def execMsgRai (m : Msg) (s : State) : Host.Outcome State Fault Refusal := .next (s.arriveMsg 0x05 m)
def execMsgWinq (m : Msg) (s : State) : Host.Outcome State Fault Refusal := .next (s.arriveMsg 0x10 m)
def execMsgWinn (m : Msg) (s : State) : Host.Outcome State Fault Refusal := .next (s.arriveMsg 0x11 m)
def execMsgBar (m : Msg) (s : State) : Host.Outcome State Fault Refusal := .next (s.arriveMsg 0x20 m)
def execMsgBarrel (m : Msg) (s : State) : Host.Outcome State Fault Refusal := .next (s.arriveMsg 0x21 m)
def execMsgAck (m : Msg) (s : State) : Host.Outcome State Fault Refusal := .next (s.arriveMsg 0x80 m)
def execMsgRdrsp (m : Msg) (s : State) : Host.Outcome State Fault Refusal := .next (s.arriveMsg 0x81 m)
def execMsgNack (m : Msg) (s : State) : Host.Outcome State Fault Refusal := .next (s.arriveMsg 0x82 m)
def execMsgWinr (m : Msg) (s : State) : Host.Outcome State Fault Refusal := .next (s.arriveMsg 0x90 m)

/-- R303: 1 µs after the first applied message that no ACK covers. -/
def execAckTimer (src : BitVec 10) (vc : BitVec 4) (s : State) : Host.Outcome State Fault Refusal :=
  match s.recvCh src vc with
  | some c => .next (if 0 < c.since then s.sendAck c else s)
  | none => .next s

/-- R295: a good DATA flit that is the next expected one is taken: its messages are delivered or go on, and the units of those
delivered here return as credits; any other is discarded. -/
def execDataFlitRx (p : PortId) (flit : List Byte) (uncorrectable : Bool) (s : State) (corrected : Nat := 0) : Host.Outcome State Fault Refusal :=
  let s := s.fecCount p corrected uncorrectable
  let k := s.port p
  if k.st != .active then .next s
  else if !flitGood flit uncorrectable || flitType flit != 1 then .next (s.discardFlit p)
  else if flitNum flit 2 2 ≠ k.expect then
    .next ((s.updPort p (fun k => if flitAckv flit then k.acked (flitNum flit 4 2) else k)).discardFlit p)
  else
    let s := ((s.updPort p (fun k => { k with expect := (k.expect + 1) % 65536, ackv := true, discard := false })).slCount p slRXFLITS 1).hear p flit
    let s := (msgsOf 19 ((flit.drop 12).take 304)).foldl (fun s x =>
      if x.2.dst == s.straps.pos then (s.receive x.1 x.2).updPort p (fun k => k.owe x.2.vc (msgUnits x.2 x.1))
      else s.forward (some p) x.1 x.2) s
    .next (s.flush p)

end Sys2Proof.Machine
end

