-- ==== Sys2Proof/Machine/Journal.lean ====
section
/-! DEFINITION. How Cretas takes commands and ends them (R331 to R348): entries and records, acceptance, the journal, commit and
posting, takeovers, and the fault and event rings. -/

namespace Sys2Proof.Machine

/-! ## Entries (R331, R334) -/

def JSlot.cmd (x : JSlot) : Nat := x.num 0 2
def JSlot.mbox (x : JSlot) : Bool := decide (16 ≤ x.src)
def JSlot.fence (x : JSlot) : Bool := x.num 2 1 % 2 = 1
def JSlot.irq (x : JSlot) : Bool := x.num 2 1 / 2 % 2 = 1
/-- The 8-byte operand at bytes 24 to 31. -/
def JSlot.addr (x : JSlot) : Nat := x.num 24 8

/-- R334, R336: the operand bytes that a command names, first and last. -/
def namedBytes (cmd form : Nat) : List (Nat × Nat) :=
  if cmd = 0x01 then [(16, 19)]
  else if cmd = 0x10 ∨ cmd = 0x11 then
    (if form = 0 then [(16, 16), (24, 37)] else if form = 1 then [(16, 17), (24, 41)] else if form = 2 then [(16, 17), (24, 31)] else [(16, 17)])
  else if cmd = 0x12 then [(16, 23)]
  else if cmd = 0x20 then [(16, 33)]
  else if cmd = 0x21 then [(16, 31)]
  else if cmd = 0x22 then [(16, 17), (20, 23)]
  else if cmd = 0x23 then [(16, 17), (24, 37), (40, 47)]
  else if cmd = 0x30 then [(16, 16), (24, 31)]
  else if cmd = 0x31 then [(24, 31)]
  else if cmd = 0x32 then [(16, 18)]
  else if cmd = 0x40 ∨ cmd = 0x41 then [(16, 17)]
  else if cmd = 0x42 then [(16, 20), (24, 47)]
  else if cmd = 0x50 then [(16, 16), (18, 19), (24, 31)]
  else if cmd = 0x51 then [(16, 16), (24, 32)]
  else if cmd = 0x60 then [(24, 35)]
  else if cmd = 0x61 then [(16, 16), (24, 31)]
  else []

def knownCmd (cmd : Nat) : Bool :=
  [0x01, 0x02, 0x10, 0x11, 0x12, 0x20, 0x21, 0x22, 0x23, 0x30, 0x31, 0x32, 0x40, 0x41, 0x42, 0x50, 0x51, 0x60, 0x61].contains cmd

/-- R331, R333, R334, R402: 0xB010 finds a bit set that must be 0, or a FORM, KIND, OP or phase that there is not. -/
def JSlot.malformed (x : JSlot) : Bool :=
  let k := x.num 16 1
  let named := namedBytes x.cmd k
  (List.range 48).any (fun i => x.num (16 + i) 1 != 0 && !(named.any (fun r => decide (r.1 ≤ 16 + i) && decide (16 + i ≤ r.2)))) ||
    decide (4 ≤ x.num 2 1) || x.num 3 1 / 16 % 8 != 0 || (x.mbox && x.fence) ||
    (x.cmd == 0x10 && decide (3 < k)) || (x.cmd == 0x11 && decide (1 < k)) || (x.cmd == 0x50 && decide (2 < k)) ||
    (x.cmd == 0x51 && k != 0) || (x.cmd == 0x61 && decide (3 < k)) ||
    (x.cmd == 0x23 && decide (1 < x.num 17 1)) || (x.cmd == 0x32 && decide (1 < x.num 18 1))

/-- R333, R337: what ends a command before its work starts. -/
def State.early (s : State) (x : JSlot) : Option (BitVec 16) :=
  if !knownCmd x.cmd then some 0xB011
  else if !s.crs.capsDone && x.cmd != 0x01 && x.cmd != 0x02 && !(s.trust.recovery && x.cmd == 0x20) then some 0xB012
  else if x.malformed then some 0xB010
  else none

/-! ## Order (R331, R338, R339) -/

/-- y was accepted before x by the same queue. -/
def JSlot.before (y x : JSlot) : Bool :=
  let d := (x.ticket - y.ticket).toNat
  y.src == x.src && d != 0 && decide (d < 2 ^ 31)

/-- R394: Cretas carries out commands while its firmware runs; in recovery only HELLO, CAPS and LOAD_IMAGE of mailbox 0. -/
def State.serves (s : State) (x : JSlot) : Bool :=
  s.fwUp || (s.trust.recovery && x.src == 16 && (x.cmd == 0x01 || x.cmd == 0x02 || x.cmd == 0x20))

/-- R339: an accepted command may start: earlier ones of its queue have started, and its FENCE and DEPQ have been met. -/
def State.startable (s : State) (x : JSlot) : Bool :=
  s.journal.all (fun p =>
    let y := p.2
    let open_ := y.record.isNone
    !(y.before x && ((x.fence && open_) || (!y.started && y.done.isNone))) &&
    !(decide (128 ≤ x.num 3 1) && open_ && y.src == x.num 3 1 % 16 && y.ticket.toNat == x.num 4 4))

/-- The cores whose poison a record counts (R332). -/
def JSlot.cores (x : JSlot) : List CoreId :=
  if x.cmd = 0x21 then (List.finRange 64).filter (fun c => (x.num 16 8).testBit c.val)
  else if x.cmd = 0x22 then [Fin.ofNat 64 (x.num 16 1)]
  else []

def State.poisonOf (s : State) (l : List CoreId) : Nat := l.foldl (fun n c => n + (s.core c).fld 0x1210 15 0 + (s.core c).fld 0x1420 15 0) 0

def State.finish (s : State) (j : Nat) (code : BitVec 16) (res : Nat) : State :=
  s.updJob j (fun x => { x with done := some (code, BitVec.ofNat 128 res) })

/-- A row of the command table at work on slot j: the command starts, and its work f follows unless it ends early. -/
def State.work (s : State) (j : Nat) (is : JSlot → Bool) (f : JSlot → State → State) : State :=
  match s.job j with
  | none => s
  | some x =>
    if is x && !x.started && x.done.isNone && x.record.isNone && s.serves x && s.startable x then
      let s := s.updJob j (fun x => { x with started := true, poison0 := s.poisonOf x.cores, voided0 := s.pkgFld smVOIDED 63 0 })
      match s.early x with
      | some code => s.finish j code 0
      | none => f x s
    else s

/-- R339: the work of a command that waits starts again later. -/
def State.later (s : State) (j : Nat) : State := s.updJob j (fun x => { x with started := false })

/-- R359, R363: Cretas reads some spans; where one waits at its home or at the port, the command starts again after that. -/
def State.whenRead (s : State) (j : Nat) (host : Bool) (l : List (Nat × Nat)) (go : State) : State :=
  match s.gate none (l.flatMap (fun p => spanKeys host p.1 p.2)) false with
  | some t => t.later j
  | none => go

/-- A part reset of a block is asserted. -/
def State.inReset (s : State) (level n : Nat) : Bool := s.crs.resets.contains (level, n)

def isCmd (n : Nat) (x : JSlot) : Bool := x.cmd == n
def isForm (n form : Nat) (x : JSlot) : Bool := x.cmd == n && x.num 16 1 == form

/-! ## Acceptance (R338) -/

def State.queueJobs (s : State) (q : QueueId) : List JSlot := (s.journal.map Prod.snd).filter (fun x => x.src == q.val)

/-- A ring in host memory needs the host link (R341). -/
def State.ringUp (s : State) (base : Nat) : Bool := s.barFld base 0 0 = 1 || s.hostUp

def State.slotAddr (s : State) (base n k : Nat) : Nat := s.barFld base 63 6 * 64 + 64 * (k % n)

/-- R338: the next entry of queue q may be accepted. A record that is committed and waits for its ring keeps its slot of it. -/
def State.accepts (s : State) (q : QueueId) : Bool :=
  let l := s.queueJobs q
  s.barFld (qOff q 0x10) 0 0 = 1 && s.ringHeld (qOff q 0x18) (qOff q 0x20) != 0 && decide (s.journal.length < Config.journalSlots) &&
    decide ((l.filter (fun x => x.record.isNone)).length < s.crs.infl.get q) &&
    decide ((s.barFld (qOff q 0x30) 31 0 + l.length + 2 ^ 32 - s.barFld (qOff q 0x28) 31 0) % 2 ^ 32 < s.ringN q) &&
    s.ringUp (qOff q 0) && s.fwUp

def execCommandAccept (q : QueueId) (hostEntry : BitVec 512) (s : State) : Host.Outcome State Fault Refusal :=
  if !s.accepts q then .next s
  else
    let head := s.barFld (qOff q 0x20) 31 0
    let a := s.slotAddr (qOff q 0) (s.ringN q) head
    let host : Bool := s.barFld (qOff q 0) 0 0 = 0
    match s.gate none (spanKeys host a 64) false with
    | some s => .next s
    | none =>
    let s := if host then s.hostFill (bytesAt .host a 64) (leBytes 64 hostEntry.toNat) else s
    let e : BitVec 512 := BitVec.ofNat 512 (leNat (s.peek host a 64).1)
    let s := s.journalise e q.val (BitVec.ofNat 32 head) (BitVec.ofNat 32 (s.barFld (qOff q 0x30) 31 0 + (s.queueJobs q).length))
    .next (((s.setBarFld (qOff q 0x20) 31 0 (head + 1)).takeInfl q).satCheck q)

/-! ## Commit and posting (R332, R339) -/

def State.primDie (s : State) : Nat := s.barFld 8 18 18

/-- R332: the completion record. -/
def State.recordOf (s : State) (x : JSlot) (code : BitVec 16) (res : BitVec 128) (corr : Nat) : List Byte :=
  let q : QueueId := Fin.ofNat 16 x.src
  let phase := if x.mbox then 2 else (x.cq.toNat / s.ringN q) % 2
  leBytes 2 x.cmd ++ leBytes 2 code.toNat ++ [BitVec.ofNat 8 phase, BitVec.ofNat 8 (min 255 x.reruns), BitVec.ofNat 8 s.primDie, 0] ++
    leBytes 8 (x.num 8 8) ++ leBytes 8 s.commitSeq.toNat ++ leBytes 8 ((s.die (Fin.ofNat 2 s.primDie)).ts).toNat ++
    leBytes 4 x.ticket.toNat ++ leBytes 4 corr ++ leBytes 4 (s.poisonOf x.cores - x.poison0) ++
    leBytes 4 (s.pkgFld smVOIDED 63 0 - x.voided0) ++ leBytes 16 res.toNat

/-- Write bytes to a ring; where its home waits for a back-invalidation, only that is sent (R359). -/
def State.ringWrite (s : State) (base a : Nat) (bs : List Byte) : Option State × State :=
  let host : Bool := s.barFld base 0 0 = 0
  match s.gate none (memKeys (bytesAt (if host then .host else .pa) a 64)) true with
  | some s => (none, s)
  | none => (some (s.cohPut host a bs false), s)

/-- R338, R364: queue q has a ring for its records; one that was accepted before a package reset waits until the driver names it. -/
def State.ringNamed (s : State) (q : QueueId) : Bool := s.barFld (qOff q 0x10) 0 0 = 1 || s.barR (qOff q 8) != 0

/-- R339: post the oldest committed record of a queue, and so on while its ring can be written. -/
def postQueue : Nat → State → QueueId → State
  | 0, s, _ => s
  | n + 1, s, q =>
    match s.journal.find? (fun p => p.2.src == q.val && p.2.record.isSome && !(s.journal.any (fun y => y.2.before p.2))) with
    | none => s
    | some p =>
      if !s.ringUp (qOff q 8) || !s.ringNamed q then s
      else
        match s.ringWrite (qOff q 8) (s.slotAddr (qOff q 8) (s.ringN q) p.2.cq.toNat) (p.2.record.getD []) with
        | (none, s) => s
        | (some s, _) =>
          let s := (s.dropJob p.1).setBarFld (qOff q 0x30) 31 0 (s.barFld (qOff q 0x30) 31 0 + 1)
          postQueue n (if p.2.irq then s.signal (s.barFld (qOff q 0x10) 15 8) else s) q

/-- R333: a mailbox's record. -/
def State.postMbox (s : State) (j : Nat) (n : MboxId) (r : List Byte) : State :=
  let s := ({ s with mbRsp := s.mbRsp.set n.val (BitVec.ofNat 512 (leNat r)) n.isLt } : State).dropJob j
  (s.setBarFld (mbOff n 0x80) 1 1 0).setBarFld (mbOff n 0x80) 2 2 1

def State.postAll (s : State) : State := (List.finRange 16).foldl (fun s q => postQueue s.journal.length s q) s

/-- R335: what a launch's cores still have to finish. -/
def State.coreQuiet (s : State) (c : CoreId) : Bool :=
  let k := s.core c
  k.txReqs.isEmpty && k.storeBuf.isEmpty && (List.range 16).all (fun i => match k.stream i with | some x => x.st == .ended | none => true) &&
    k.closes.toList.all Option.isNone && !(k.mq.any (fun e => e.op == .close)) && k.qwait.isEmpty &&
    s.sendChs.all (fun ch => ch.unacked.all (fun x => x.m.void || (match x.who with | .tx d _ => d != c | .store d _ _ _ _ => d != c | .load d _ _ _ => d != c | _ => true)))

/-- A remote message of command j that has been found unreachable (R305). -/
def State.stuck (s : State) (j : Nat) : Bool := s.sendChs.any (fun ch => ch.unacked.any (fun x => x.who == .cmd j && x.noted))

/-- R334 to R336: the end of a command's work: its code and its RESULT. -/
def State.workEnd (s : State) (j : Nat) (x : JSlot) : Option (BitVec 16 × BitVec 128) :=
  match x.done with
  | some d => some d
  | none =>
    if !x.started then none
    else if x.cmd = 0x21 then
      (match x.launch with
      | none => none
      | some r =>
        let cs := x.cores
        if cs.all (fun c => (s.core c).launch != some j && s.coreQuiet c) && !r.interrupted then
          let lead := ((cs.head?).map (fun c => (s.core c).fld 0x1C00 31 0)).getD 0
          some (0, BitVec.ofNat 128 (lead + min 255 r.rejoined * 2 ^ 32))
        else none)
    else if x.cmd = 0x22 then
      (match x.stream, x.cores with
      | some i, c :: _ => (match (s.core c).stream i with
        | some z => if z.gen = x.gen && z.st == .ended then some (0, BitVec.ofNat 128 z.aborted.toNat) else none
        | none => none)
      | _, _ => none)
    else if x.cmd = 0x10 ∨ x.cmd = 0x50 then
      (if s.stuck j then some (0xB032, 0)
       else if x.gen = 1 && x.cmd = 0x10 && !s.winDrain.getLsbD (x.num 17 1 % 64) then some (0, BitVec.ofNat 128 (x.num 17 1))
       else none)
    else if x.cmd = 0x11 then (if s.winDrain.getLsbD (x.num 17 1 % 64) then none else some (0, 0))
    else if x.cmd = 0x42 then
      let r := s.region (Fin.ofNat 8 (x.num 16 1))
      let p : PhysId := Fin.ofNat 17 (x.num 17 1)
      if (r.chans.get p).soak.isSome then none
      else some (0, BitVec.ofNat 128 ((r.reg (mcOff p 0x830)).toNat + (r.reg (mcOff p 0x838)).toNat * 2 ^ 64))
    else if x.cmd = 0x12 then
      if x.stream = some 128 then some (0, BitVec.ofNat 128 x.gen) else none
    else none

/-- What a command's end leaves behind: a fused command is collected, a quiesced region serves again, a patch is forgotten. -/
def State.workClose (s : State) (x : JSlot) : State :=
  if x.cmd = 0x22 then
    (match x.stream, x.cores with | some i, c :: _ => s.updCore c (fun k => k.collect i) | _, _ => s)
  else if x.cmd = 0x42 then
    let r : RegionId := Fin.ofNat 8 (x.num 16 1)
    if (s.region r).quiesced then (s.updRegion r (fun r => { r with quiesced := false })).mcRefill r else s
  else s

/-- R339: slot j commits with a code and RESULT: its number, its record, its posting. HELLO reports the number before its own. -/
def State.commit (s : State) (j : Nat) (x : JSlot) (code : BitVec 16) (res : BitVec 128) (corr : Nat) : State :=
  let res := if x.cmd = 0x01 && code = 0 then BitVec.ofNat 128 (setBits res.toNat 127 64 s.commitSeq.toNat) else res
  let s := { s with commitSeq := s.commitSeq + 1 }
  let r := s.recordOf x code res corr
  let s := (s.updJob j (fun x => { x with record := some r })).workClose x
  if x.mbox then s.postMbox j (Fin.ofNat 8 (x.src - 16)) r else s.postAll

/-- R339: a command may commit: earlier ones of its queue have. -/
def State.inOrder (s : State) (x : JSlot) : Bool := s.journal.all (fun p => !(p.2.before x && p.2.record.isNone))

/-! ## Takeovers and restarts (R342, R348) -/

/-- R339, R341: a command that Cretas carries out itself and that has not committed runs again when the controller changes. One whose
work has ended keeps its outcome, since a rerun leaves what one run would leave. -/
def restarted (x : JSlot) : JSlot :=
  if x.started && x.record.isNone && !([0x21, 0x22, 0x30].contains x.cmd) then
    { x with started := x.done.isSome, reruns := x.reruns + 1 }
  else x

/-- R342 step 3, R375: the journal is walked; a capture starts again at its step 3, a replication from the start of its slot. -/
def State.walkJournal (s : State) : State :=
  let s : State := { s with journal := s.journal.map (fun (p : Nat × JSlot) => (p.1, restarted p.2)) }
  (s.updRs (fun z => { z with capture := z.capture.map (fun (c : Capture) => { c with quiet := false }), repl := z.repl.map (fun (r : Repl) => { r with phase := 0 }) })).postAll

/-- R342: the standby takes over. -/
def State.takeover (s : State) : State :=
  let s := (s.walkJournal.setBarFld 8 18 18 (1 - s.primDie)).barCount 0x20 31 16 1
  (s.setBarFld 8 19 19 0).pkgReport 0xB050 false 0

/-- R342: a standby that mirrors the journal takes over; with none, the primary's loss is the loss of both (R341). -/
def execHeartbeatLossTakeover (s : State) : Host.Outcome State Fault Refusal := .next (if s.barFld 8 19 19 = 1 then s.takeover else s)

def execFirmwareRestart (s : State) : Host.Outcome State Fault Refusal := .next ((s.walkJournal.barCount 0x20 15 0 1).pkgReport 0xB051 true 0)

def execStandbyFailure (s : State) : Host.Outcome State Fault Refusal :=
  .next (if s.barFld 8 19 19 = 1 then (s.setBarFld 8 19 19 0).pkgReport 0xB054 false 0 else s)

/-- R348: a second fault at the handler's own resources. -/
def execNestedErrorEscalate (s : State) : Host.Outcome State Fault Refusal :=
  let s1 := s.pkgReport 0xB052 false 0
  .next (if s.barFld 8 19 19 = 1 then s1.takeover else s1)

def execStandbyRejoin (s : State) : Host.Outcome State Fault Refusal := .next (s.setBarFld 8 19 19 1)

/-! ## Saturation (R344) -/

/-- R344: queue q has held N entries for 10 ms. -/
def execQueueSaturation (q : QueueId) (s : State) : Host.Outcome State Fault Refusal :=
  let full := decide (s.ringN q ≤ s.ringHeld (qOff q 0x18) (qOff q 0x20))
  .next (if full && s.barFld (qOff q 0x10) 0 0 = 1 && s.barFld 8 q.val q.val = 0 then
    ((s.setBarFld 8 q.val q.val 1).barCount (qOff q 0x38) 31 0 1).pkgReport 0xB040 true 0 (BitVec.ofNat 128 q.val) else s)

/-! ## The rings (R346, R347) -/

/-- R346: the 64 bytes of a fault record or event. -/
def Report.bytes (r : Report) (seq phase : Nat) : List Byte :=
  leBytes 2 r.code.toNat ++ [BitVec.ofNat 8 (r.event.toNat + 2 * r.held.toNat + 4 * r.answer.toNat), BitVec.ofNat 8 r.level] ++
    leBytes 2 r.num ++ [BitVec.ofNat 8 r.die, BitVec.ofNat 8 phase] ++ leBytes 8 seq ++ leBytes 8 r.ts.toNat ++ leBytes 8 r.seq.toNat ++
    leBytes 8 r.addr.toNat ++ leBytes 2 r.tag.toNat ++ [r.slot, 0] ++ leBytes 4 r.off.toNat ++ leBytes 16 r.detail.toNat

/-- R347: the first waiting fault record is posted when its ring has room. -/
def execFaultRecordPost (s : State) : Host.Outcome State Fault Refusal :=
  let s := s.noteHeld
  match s.frWait with
  | [] => .next s
  | r :: _ =>
    if !s.frRoom 0 then .next s
    else
      let k := s.barFld 0x2018 31 0
      match s.ringWrite 0x2000 (s.slotAddr 0x2000 1024 k) (r.bytes s.crs.frSeq (k / 1024 % 2)) with
      | (none, s) => .next s
      | (some s, _) =>
        let a := if r.answer then s.crs.asked.filter (fun x => !(x.2.1 == r.num && x.2.2 == r.slot.toNat)) ++ [(s.crs.frSeq, r.num, r.slot.toNat)]
          else s.crs.asked
        .next (({ s with frWait := s.frWait.drop 1, crs := { s.crs with frSeq := s.crs.frSeq + 1, asked := a } } : State).setBarFld 0x2018 31 0 (k + 1) |>.signal
          (s.barFld 0x2008 15 8))

def State.erN (s : State) : Nat := 2 ^ (s.barFld 0x2048 7 4 + 6)
def State.erRoom (s : State) : Bool := s.ringOpen 0x2040 0x2048 && decide (s.ringHeld 0x2058 0x2050 < s.erN)

/-- Write one event to its ring, which has room. -/
def State.erPut (s : State) (r : Report) : Option State × State :=
  let k := s.barFld 0x2058 31 0
  match s.ringWrite 0x2040 (s.slotAddr 0x2040 s.erN k) (r.bytes s.crs.erSeq (k / s.erN % 2)) with
  | (none, s) => (none, s)
  | (some s, s0) =>
    (some (({ s with crs := { s.crs with erSeq := s.crs.erSeq + 1 } } : State).setBarFld 0x2058 31 0 (k + 1) |>.signal (s.barFld 0x2048 15 8)), s0)

/-- R347: the first waiting event goes to its ring, or is dropped and counted. -/
def State.eventGo (s : State) : State :=
  match s.erWait with
  | [] => s
  | r :: rest =>
    if s.erRoom then (match s.erPut r with
      | (some s, _) => { s with erWait := s.erWait.drop 1 }
      | (none, s) => s)
    else ({ s with erWait := rest, crs := { s.crs with lost := s.crs.lost + 1 } } : State).barCount 0x2060 63 0 1

/-- R347: when there is room again after a loss, 0xB041 goes first. -/
def execEventPost (s : State) : Host.Outcome State Fault Refusal :=
  let lost : Report := s.stamp { code := 0xB041, event := true, level := 4, num := 0, die := 0, detail := BitVec.ofNat 128 s.crs.lost }
  if s.crs.lost != 0 && s.erRoom then
    .next (match s.erPut lost with
      | (some s, _) => ({ s with crs := { s.crs with lost := 0 } } : State).eventGo
      | (none, s) => s)
  else .next s.eventGo

end Sys2Proof.Machine
end

