-- ==== Sys2Proof/Machine/Commands.lean ====
section
/-! DEFINITION. The commands that Cretas carries out on the package's registers and tables (R334 to R336): HELLO, CAPS, MAP and UNMAP,
INVAL_RANGE, PRESS_CFG, PATCH, SOAK, STATUS and EVENTS. -/

namespace Sys2Proof.Machine

/-! ## HELLO and CAPS -/

/-- R386, R416, R419: what Cretas posts at the first HELLO: the faults that the always-on domain kept, the loss of VSTBY, and a power
class strapped to 0b11. -/
def State.firstHello (s : State) : State :=
  if s.crs.helloDone then s
  else
    let s := s.pwr.faults.foldl (fun s f => s.pkgReport f.1 false 0 (BitVec.ofNat 128 f.2)) s
    let s := if s.pwr.vstbyLost then s.pkgReport 0xD020 false 0 else s
    let s := if s.straps.pwrClass = 3 then s.pkgReport 0xE011 false 0 else s
    { s with crs := { s.crs with helloDone := true }, pwr := { s.pwr with faults := [], vstbyLost := false } }

/-- R334: HELLO. Bytes 56 to 63 of RESULT are filled in at the commit. -/
def execHello (j : Nat) (s : State) : Host.Outcome State Fault Refusal :=
  .next (s.work j (isCmd 0x01) (fun _ s =>
    s.firstHello.finish j 0 (0x0301 + s.incarn.toNat * 2 ^ 16 + (s.readBar 0x18).toNat * 2 ^ 32)))

/-- R334: the cores in service: those outside a part reset. -/
def State.inService (s : State) : Nat := (List.finRange 64).foldl (fun n c => if (s.core c).run == .inReset then n else n + 2 ^ c.val) 0

def execCaps (j : Nat) (s : State) : Host.Outcome State Fault Refusal :=
  .next (s.work j (isCmd 0x02) (fun _ s =>
    ({ s with crs := { s.crs with capsDone := true } } : State).finish j 0
      (0xB1 + 0x0301 * 2 ^ 8 + s.pwrClass * 2 ^ 24 + s.straps.pos.toNat * 2 ^ 32 + s.straps.feed.toNat * 2 ^ 48 + s.basting.toNat * 2 ^ 56 +
        s.inService * 2 ^ 64)))

/-! ## MAP and UNMAP (R336) -/

/-- R214, R336: n frames from a 32 MiB aligned address lie in the device memory of one die. -/
def framesOk (pa n : Nat) : Bool :=
  pa % 2 ^ 25 == 0 && decide (pa < 2 ^ 40) && devSpan pa (n * 2 ^ 25) && (n == 0 || (pa + n * 2 ^ 25 - 1) / 2 ^ 39 == pa / 2 ^ 39)

def State.frames (s : State) (pa n : Nat) (f : BitVec 16 → BitVec 16) : State :=
  s.updDie (if pa.testBit 39 then 1 else 0) (fun d =>
    { d with masks := (List.range n).foldl (fun m i => let k := pa % 2 ^ 39 / 2 ^ 25 + i; mset noMask m k (f (mget noMask m k))) d.masks })

def State.frameCmd (s : State) (j : Nat) (x : JSlot) (f : BitVec 16 → BitVec 16) : State :=
  if !framesOk x.addr (x.num 32 4) then s.finish j 0xB013 0 else (s.frames x.addr (x.num 32 4) f).finish j 0 0

def execMapFrames (j : Nat) (s : State) : Host.Outcome State Fault Refusal :=
  .next (s.work j (isForm 0x10 0) (fun x s => s.frameCmd j x (fun m => m ||| BitVec.ofNat 16 (x.num 36 2))))

def execUnmapFrames (j : Nat) (s : State) : Host.Outcome State Fault Refusal :=
  .next (s.work j (isForm 0x11 0) (fun x s => s.frameCmd j x (fun m => m &&& ~~~(BitVec.ofNat 16 (x.num 36 2)))))

/-- R378: the fields of a store window's entry. -/
def storeWindow (cfg : Nat) : Bool :=
  bitsOf cfg 43 32 == 2048 && bitsOf cfg 55 44 % 2 == 0 && decide (2 ≤ bitsOf cfg 55 44) && bitsOf cfg 3 1 == 3 && !cfg.testBit 8

/-- R378: a new store header. -/
def storeHeader (owner holder feed slot : Nat) : List Byte :=
  let a := [1, 0] ++ leBytes 2 owner ++ leBytes 2 holder ++ [BitVec.ofNat 8 feed, 0] ++ leBytes 8 slot
  a ++ leBytes 8 (crc64Sum a) ++ [0xFF] ++ List.replicate 39 0

/-- R378: a window's local range begins with a store header that is to be written: a store without a valid one. -/
def State.storeBare (s : State) (w : Nat) : Bool :=
  storeWindow ((s.die 0).reg (winOff w)).toNat && !storeValid (s.peek false (s.winLocal w * 2 ^ 25) 64).1

/-- R378: the store header where a window's local range begins is kept when it is valid, else written. -/
def State.openStore (s : State) (w : Nat) : State :=
  let cfg := ((s.die 0).reg (winOff w)).toNat
  let a := s.winLocal w * 2 ^ 25
  if !s.storeBare w then s
  else s.cohPut false a (storeHeader (bitsOf cfg 25 16) s.straps.pos.toNat s.straps.feed.toNat (bitsOf cfg 55 44 / 2 * 2 ^ 25)) false

/-- R336: WINN to a position; the command ends with its acknowledgement. -/
def State.notifyWin (s : State) (j w pos : Nat) : State :=
  let p : BitVec 10 := BitVec.ofNat 10 pos
  (s.updJob j (fun y => { y with stream := some (s.sendCh p 12).next.toNat })).sendSeq 0x11
    { plainMsg 12 p 16 ((s.winSpan w).1 * 2 ^ 25) with data := s.winInfo w p } (.cmd j)

/-- R229, R336: MAP form 1. An OPEN = 0 closes the entry, and the command then waits for DRAIN (R230). -/
def State.mapWindow (s : State) (j : Nat) (x : JSlot) : State :=
  let w := x.num 17 1
  let pos := x.num 40 2
  let r := (findReg winRegs 0).getD ⟨0, []⟩
  let l := (findReg winRegs 8).getD ⟨8, []⟩
  let was := s.winOpen w
  let cfg := regWrite r (fun _ => was) ((s.die 0).reg (winOff w)).toNat x.addr fullMask
  let loc := regWrite l (fun _ => was) ((s.die 0).reg (winOff w + 8)).toNat (x.num 32 8) fullMask
  if 64 ≤ w ∨ (1024 ≤ pos ∧ pos ≠ 0xFFFF) then s.finish j 0xB013 0
  else if cfg.2 || loc.2 then s.finish j 0xB014 0
  else if !was && cfg.1.testBit 0 && s.winOpenBad w (bitsOf cfg.1 43 32) (bitsOf cfg.1 55 44 + 1) (bitsOf loc.1 39 25) then
    (s.pkgCount 0x500128 15 0 1).finish j 0xB013 0
  else if was && !cfg.1.testBit 0 then (s.winClose (Fin.ofNat 64 w)).updJob j (fun y => { y with gen := 1 })
  else
    let opens := !was && cfg.1.testBit 0
    let t := s.updDie 0 (fun d => (d.setReg (winOff w) (BitVec.ofNat 64 cfg.1)).setReg (winOff w + 8) (BitVec.ofNat 64 loc.1))
    let a := t.winLocal w * 2 ^ 25
    match (if opens && storeWindow cfg.1 then s.gate none (spanKeys false a 64) (t.storeBare w) else none) with
    | some s => s.later j
    | none =>
      let t := if opens then t.openStore w else t
      if pos = 0xFFFF then t.finish j 0 w else t.notifyWin j w pos

def execMapWindow (j : Nat) (s : State) : Host.Outcome State Fault Refusal := .next (s.work j (isForm 0x10 1) (fun x s => s.mapWindow j x))

/-- R230: the command ends when DRAIN has returned to 0. -/
def execUnmapWindow (j : Nat) (s : State) : Host.Outcome State Fault Refusal :=
  .next (s.work j (isForm 0x11 1) (fun x s => if 64 ≤ x.num 17 1 then s.finish j 0xB013 0 else s.winClose (Fin.ofNat 64 (x.num 17 1))))

/-- R232, R336: MAP form 2; a Locked field of an enabled context is not changed. -/
def execMapContext (j : Nat) (s : State) : Host.Outcome State Fault Refusal :=
  .next (s.work j (isForm 0x10 2) (fun x s =>
    let off := 0x500000 + 8 * x.num 17 1
    let y := tableWrite (dieReg off) (fun _ => s.dieRuns off) ((s.die 0).reg off) x.addr fullMask
    if 16 ≤ x.num 17 1 then s.finish j 0xB013 0
    else if y.2 then s.finish j 0xB014 0
    else (s.updDie 0 (fun d => d.setReg off y.1)).finish j 0 0))

/-- R263, R336: MAP form 3. -/
def execMapDeviceMap (j : Nat) (s : State) : Host.Outcome State Fault Refusal :=
  .next (s.work j (isForm 0x10 3) (fun x s =>
    if 1 < x.num 17 1 then s.finish j 0xB013 0
    else if !s.deviceQuiet then (s.dieReport 0 0x8070 true 0x600000).finish j 0x8070 0
    else (s.zeroAll.dropDevice.setPkgFld 0x600000 0 0 (x.num 17 1)).finish j 0 0))

/-! ## INVAL_RANGE (R227) -/

/-- R227: Cretas writes the range to each unit's TRINV. late: the units that had to be waited on beyond TMO. -/
def execInvalRange (j : Nat) (late : W64) (s : State) : Host.Outcome State Fault Refusal :=
  .next (s.work j (isCmd 0x12) (fun x s =>
    let v : W64 := BitVec.ofNat 64 (x.num 16 8)
    if invBad v then s.finish j 0xB013 0
    else
      (s.updJob j (fun y => { y with gen := late.toNat, stream := some 0 })).invalTurn))

/-! ## PRESS_CFG (R208, R210, R334) -/

/-- The registers of a channel as a PRESS_CFG writes them: members, SYSTEM, ROOT, NMEMB, TMO, EPOCH. -/
structure PressRegs where
  members : W64
  system : Bool
  root : Nat
  nmemb : Nat
  tmo : Nat
  epoch : W64
deriving DecidableEq, Repr

def State.pressRegs (s : State) (ch : PressId) : PressRegs :=
  { members := s.members ch, system := s.system ch, root := (s.barRoot ch).toNat, nmemb := s.barMembs ch, tmo := s.pkgFld 0x400000 15 0,
    epoch := s.epoch ch }

def JSlot.pressRegs (x : JSlot) : PressRegs :=
  { members := BitVec.ofNat 64 x.addr, system := x.num 17 1 = 1, root := x.num 32 2, nmemb := x.num 34 2, tmo := x.num 36 2,
    epoch := BitVec.ofNat 64 (x.num 40 8) }

/-- R334: what a PRESS_CFG may change while an arrival is pending: it only removes members, or it only clears SYSTEM on a channel whose
local members have all arrived. -/
def pressMay (old new : PressRegs) (done : Bool) : Bool :=
  (new.members &&& ~~~old.members == 0 && decide (new.nmemb ≤ old.nmemb) && { new with members := old.members, nmemb := old.nmemb } == old) ||
    (done && old.system && !new.system && { new with system := true } == old)

def State.setPress (s : State) (ch : PressId) (p : PressRegs) : State :=
  let s := s.updDie 0 (fun d => ((d.setReg (chOff ch 0) p.members).setFld (chOff ch 8) 0 0 p.system.toNat).setReg (chOff ch 0x18) p.epoch)
  ((s.setPkgFld (barOff ch) 41 32 p.root).setPkgFld (barOff ch) 10 0 p.nmemb).setPkgFld 0x400000 15 0 p.tmo

def execPressCfg (j : Nat) (s : State) : Host.Outcome State Fault Refusal :=
  .next (s.work j (isCmd 0x23) (fun x s =>
    let ch : PressId := Fin.ofNat 4 (x.num 16 1)
    let new := x.pressRegs
    let old := s.pressRegs ch
    if 4 ≤ x.num 16 1 ∨ 1024 ≤ new.root ∨ 1024 < new.nmemb ∨ (new.system ∧ new.nmemb = 0) then s.finish j 0xB013 0
    else if !s.pressRuns ch then (s.setPress ch new).finish j 0 0
    else if !pressMay old new (s.localDone ch) then s.finish j 0xB014 0
    else
      let gone := old.members &&& ~~~new.members
      let s := (s.setPress ch new).removeMembers ch gone
      ((s.pressCheck ch true).barCheck ch).finish j 0 0))

/-! ## PATCH and SOAK (R275, R283, R284) -/

/-- R275, R334: a PATCH waits for the patch that already runs on its channel; it returns a patch that has ended to Idle. -/
def execPatch (j : Nat) (s : State) : Host.Outcome State Fault Refusal :=
  let busy := match s.job j with
    | some x => let p := (s.region (Fin.ofNat 8 (x.num 16 1))).patch
                p.running && p.lch == x.num 17 1 && p.ticket != some j || s.inReset 2 (x.num 16 1)
    | none => false
  .next (if busy then s else s.work j (isCmd 0x41) (fun x s =>
    let r : RegionId := Fin.ofNat 8 (x.num 16 1)
    let l : Fin 16 := Fin.ofNat 16 (x.num 17 1)
    let p := (s.region r).patch
    if 8 ≤ x.num 16 1 ∨ 16 ≤ x.num 17 1 then s.finish j 0xB013 0
    else if p.running && p.ticket == some j then s
    else
      let s := if p.running then s else s.updRegion r (fun q => { q with patch := { q.patch with state := 0 } })
      if (s.region r).patchRefused l then (s.patchRefuse r l).finish j 0x8043 0
      else s.patchStart r l (some j)))

/-- R283: the registers of a soak engine. A key pattern reads its key, 16 bytes, at the address that the command names. -/
def State.setSoak (s : State) (r : RegionId) (p : PhysId) (x : JSlot) : State :=
  let key := leNat (s.peek false (x.num 40 8) 16).1
  s.updRegion r (fun q =>
    let q := (((q.setFld (mcOff p 0x800) 1 0 (x.num 18 1)).setFld (mcOff p 0x800) 3 2 (x.num 19 1)).setFld (mcOff p 0x800) 23 16 (x.num 20 1))
    let q := (q.setFld (mcOff p 0x808) 32 0 x.addr).setFld (mcOff p 0x810) 32 0 (x.num 32 8)
    if x.num 19 1 = 0 then (q.setReg (mcOff p 0x818) (BitVec.ofNat 64 key)).setReg (mcOff p 0x820) (BitVec.ofNat 64 (key / 2 ^ 64))
    else q.setReg (mcOff p 0x828) (BitVec.ofNat 64 (x.num 40 8)))

/-- A SOAK that runs again starts its own soak again (R339); one of a region in reset waits for the reset's end (R341). -/
def execSoak (j : Nat) (s : State) : Host.Outcome State Fault Refusal :=
  .next (s.work j (fun x => x.cmd == 0x42 && !s.inReset 2 (x.num 16 1)) (fun x s =>
    let r : RegionId := Fin.ofNat 8 (x.num 16 1)
    let p : PhysId := Fin.ofNat 17 (x.num 17 1)
    if 8 ≤ x.num 16 1 ∨ 17 ≤ x.num 17 1 ∨ 4 ≤ x.num 18 1 ∨ 4 ≤ x.num 19 1 ∨ x.addr % 64 ≠ 0 ∨ x.num 32 8 % 64 ≠ 0 ∨
        Config.channelBytes < x.addr ∨ Config.channelBytes < x.num 32 8 ∨ (x.num 19 1 = 0 ∧ (2 ^ 40 ≤ x.num 40 8 ∨ !devSpan (x.num 40 8) 16)) then s.finish j 0xB013 0
    else if ((s.region r).chans.get p).soak.isSome && x.gen != 1 then s.finish j 0xB014 0
    else s.whenRead j false (if x.num 19 1 = 0 then [(x.num 40 8, 16)] else []) <|
      let s := s.updRegion r (fun q => q.updChan p (fun c => { c with soak := none }))
      let s := (s.setSoak r p x).updJob j (fun y => { y with gen := 1 })
      let s := if p = (s.region r).spare then s else s.updRegion r (fun q => { q with quiesced := true })
      s.soakStart r p))

/-! ## STATUS (R334, R370) and EVENTS -/

/-- R370: RESULT of STATUS KIND 0. -/
def State.statusSummary (s : State) : Nat :=
  let st := s.rsStat
  let paired := st.testBit 3
  let host := st.testBit 5
  let bits := s.rs.standing.isSome.toNat + st % 2 * 2 + st / 2 % 2 * 4 + paired.toNat * 8 + (st.testBit 4).toNat * 16 + host.toNat * 32
  let partner := if !paired then 0xFFFE else if host then 0xFFFF else bitsOf st 25 16
  s.risk + bits * 2 ^ 16 + s.straps.feed.toNat * 2 ^ 24 + partner * 2 ^ 32 + ((s.die 0).reg 0x800108).toNat * 2 ^ 64

/-- R370: RESULT of STATUS KIND 1. -/
def State.statusGauge (s : State) : Nat :=
  s.risk + (List.range 5).foldl (fun n i => n + s.pkgFld 0x800008 (10 * i + 9) (10 * i) * 2 ^ (16 * (i + 1))) 0 + s.wgThresh * 2 ^ 96 +
    s.wgArmed.toNat * 2 ^ 112

def execStatusSummary (j : Nat) (s : State) : Host.Outcome State Fault Refusal :=
  .next (s.work j (isForm 0x50 0) (fun _ s => s.finish j 0 s.statusSummary))

def execStatusWearGauge (j : Nat) (s : State) : Host.Outcome State Fault Refusal :=
  .next (s.work j (isForm 0x50 1) (fun _ s => s.finish j 0 s.statusGauge))

/-- R305: a WINQ; the command keeps its TSN and waits for the WINR. -/
def execStatusWindowQuery (j : Nat) (s : State) : Host.Outcome State Fault Refusal :=
  .next (s.work j (isForm 0x50 2) (fun x s =>
    let pos : BitVec 10 := BitVec.ofNat 10 (x.num 18 2)
    if 1024 ≤ x.num 18 2 ∨ 2 ^ 37 ≤ x.addr then s.finish j 0xB013 0
    else (s.updJob j (fun y => { y with gen := (s.sendCh pos 12).next.toNat })).sendSeq 0x10 (plainMsg 12 pos 0 x.addr) (.cmd j)))

/-- R209, R334: answer the halted stream that a fault record names: 1 resumes it, 2 aborts it. -/
def execEvents (j : Nat) (s : State) : Host.Outcome State Fault Refusal :=
  .next (s.work j (isCmd 0x51) (fun x s =>
    match s.crs.asked.find? (fun a => a.1 == x.addr) with
    | none => s.finish j 0xB013 0
    | some a =>
      let c : CoreId := Fin.ofNat 64 a.2.1
      let halted := match (s.core c).stream a.2.2 with | some z => z.st == .halted | none => false
      if !halted || (x.num 32 1 != 1 && x.num 32 1 != 2) then s.finish j 0xB013 0
      else
        let s := s.txres .cretas c a.2.2 (x.num 32 1 == 1)
        ({ s with crs := { s.crs with asked := s.crs.asked.filter (fun b => b.1 != a.1) } } : State).finish j 0 0))

end Sys2Proof.Machine
end

