-- ==== Sys2Proof/Machine/Resole.lean ====
section
/-! DEFINITION. Resoles (R371 to R385): the list, the capture at the press, the image, partners, replication and restore. -/

namespace Sys2Proof.Machine

/-! ## Translation by Cretas -/

/-- Cretas' own translation of a listed address in a context (R218, R214), with no translation buffer. -/
def State.crsXlate (s : State) (ctx : BitVec 4) (va : Nat) (acc : Acc) : Except (BitVec 16) Xlate :=
  if 2 ^ 48 ≤ va then .error 0x7010
  else if !s.ctxEn ctx then .error 0x7030
  else if paKind (s.ctxRoot ctx) != .dev then .error 0x7023
  else
    let r := walkFrom s.walkRead ctx va 3 0 (s.ctxRoot ctx)
    let pa := r.leaf.base + va % 2 ^ r.leaf.sh
    match r.fault, s.leafFault ctx acc r.leaf pa with
    | some f, _ => .error f
    | none, some f => .error f
    | none, none =>
      if !r.leaf.host && paKind pa != .dev then .error 0x7011
      else if !r.leaf.host && !s.frameOk (some ctx) pa then .error 0x7031
      else .ok { pa := pa, host := r.leaf.host, nc := r.leaf.nc }

def State.readVa (s : State) (ctx : BitVec 4) (va n : Nat) : Except (BitVec 16) (List Byte × Bool) :=
  match s.crsXlate ctx va .load with
  | .ok x => .ok (s.peek x.host x.pa n)
  | .error e => .error e

def State.writeVa (s : State) (ctx : BitVec 4) (va : Nat) (bs : List Byte) (pois : Bool) : Except (BitVec 16) State :=
  match s.crsXlate ctx va .store with
  | .ok x => .ok (s.cohPut x.host x.pa bs pois)
  | .error e => .error e

/-! ## The resole list (R371, R372) -/

def numAt (l : List Byte) (lo n : Nat) : Nat := leNat ((l.drop lo).take n)

def entryOf (b : List Byte) : REnt :=
  { kind := numAt b 0 1, core := numAt b 1 1, stream := numAt b 2 1, draws := numAt b 4 4, va := numAt b 8 8, len := numAt b 16 8 }

/-- R372: a reserved byte or a reserved KIND. -/
def entryReserved (b : List Byte) : Bool :=
  let k := numAt b 0 1
  k == 0 || decide (3 < k) || numAt b 3 1 != 0 || numAt b 24 8 != 0 || (k != 3 && (numAt b 1 2 != 0 || numAt b 4 4 != 0))

/-- R372: an entry's operands in range. -/
def REnt.ok (e : REnt) : Bool :=
  if e.kind = 3 then decide (e.core < 64) && decide (e.stream < 4) && decide (1 ≤ e.draws)
  else e.va % 64 == 0 && e.len != 0 && e.len % 64 == 0

def listOf (h : List Byte) (es : List (List Byte)) : RList :=
  { toHost := numAt h 1 1 % 2 = 1, vc := BitVec.ofNat 4 (numAt h 4 1), ctx := BitVec.ofNat 4 (numAt h 5 1), stepVa := numAt h 8 8,
    capPa := numAt h 16 8, capLen := numAt h 24 8, hostPa := numAt h 32 8, thresh := numAt h 40 2, hyst := numAt h 42 2,
    alarm := numAt h 44 2, rpt := numAt h 46 1, ents := es.map entryOf }

def RList.tensors (l : RList) : List REnt := l.ents.filter (fun e => e.kind != 3)
def RList.cursors (l : RList) : List REnt := l.ents.filter (fun e => e.kind == 3)

/-! ## The image (R376, R377) -/

def up64k (n : Nat) : Nat := (n + 65535) / 65536 * 65536

/-- The offsets of sections of these lengths from a 64 KiB boundary on. -/
def placeSecs (off : Nat) : List Nat → List Nat
  | [] => []
  | n :: r => off :: placeSecs (up64k (off + n)) r

def imageLens (l : RList) (members : Nat) : List Nat := l.tensors.map REnt.len ++ [32 * l.cursors.length, 128 * members]

/-- Sections' offsets, and the image's length in whole 64 KiB. -/
def imageOffs (lens : List Nat) : List Nat := placeSecs (up64k (128 + 48 * lens.length)) lens
def imageLen (lens : List Nat) : Nat := up64k (((imageOffs lens).getLast?).getD 0 + (lens.getLast?).getD 0)

def State.memberList (s : State) (ch : PressId) : List CoreId := (List.finRange 64).filter (fun c => s.isMember c ch)

/-! ## SNAP (R373) -/

def State.paired (s : State) : Bool := s.pkgFld 0x800100 3 3 = 1
def State.hostPaired (s : State) : Bool := s.pkgFld 0x800100 5 5 = 1

/-- R378, R379: the size of a slot of the store that takes the images of a list. -/
def State.storeSlot (s : State) (l : RList) : Nat := if l.toHost || s.hostPaired then l.capLen / 2 ^ 25 * 2 ^ 25 else s.rs.slotLen

/-- R371, R373: the list at an address of device memory, or the code that completes its SNAP. -/
def State.readList (s : State) (a : Nat) (ch : PressId) : Except (BitVec 16) RList :=
  if a % 64 ≠ 0 ∨ 2 ^ 40 ≤ a ∨ !devSpan a 64 then .error 0xB013
  else
    let h := (s.peek false a 64).1
    let n := numAt h 2 2
    let es := (List.range n).map (fun i => (s.peek false (a + 64 + 32 * i) 32).1)
    let l := listOf h es
    let cs := l.cursors.map (fun e => (e.core, e.stream))
    let need := imageLen (imageLens l (s.memberList ch).length)
    if numAt h 0 1 ≠ 1 ∨ 1 < numAt h 1 1 ∨ numAt h 6 2 ≠ 0 ∨ numAt h 47 17 ≠ 0 ∨ es.any entryReserved ∨ (!l.toHost ∧ l.hostPa ≠ 0) then .error 0xB010
    else if n = 0 ∨ 1024 < n ∨ !devSpan a (64 + 32 * n) ∨ 7 < numAt h 4 1 ∨ 15 < numAt h 5 1 ∨ (s.vcOf l.ctx).2 then .error 0xB013
    else if !(l.ents.all REnt.ok) ∨ l.cursors.any (fun e => !s.isMember (Fin.ofNat 64 e.core) ch) ∨ cs.eraseDups.length ≠ cs.length then .error 0xB013
    else if l.capPa % 2 ^ 25 ≠ 0 ∨ 2 ^ 40 ≤ l.capPa ∨ !devSpan l.capPa l.capLen ∨ l.capLen < need ∨ l.hostPa % 2 ^ 25 ≠ 0 then .error 0xB013
    else if (!s.paired ∧ !l.toHost) ∨ s.storeSlot l < need then .error 0xB013
    else .ok l

/-- R379: the store in host memory has no header yet. -/
def State.hostBare (s : State) (l : RList) : Bool := (l.toHost || s.hostPaired) && !storeValid (s.peek true l.hostPa 64).1

/-- R379: the store in host memory gets its header at the first SNAP. -/
def State.hostStore (s : State) (l : RList) : State :=
  if !s.hostBare l then s
  else s.cohPut true l.hostPa (storeHeader s.straps.pos.toNat 0xFFFF 0xFF (l.capLen / 2 ^ 25 * 2 ^ 25)) false

def execSnap (j : Nat) (s : State) : Host.Outcome State Fault Refusal :=
  .next (s.work j (isCmd 0x30) (fun x s =>
    let ch : PressId := Fin.ofNat 4 (x.num 16 1)
    let a := x.addr
    let n := numAt (s.peek false a 64).1 2 2
    if 4 ≤ x.num 16 1 then s.finish j 0xB013 0
    else s.whenRead j false (if 2 ^ 40 ≤ a ∨ !devSpan a 64 then [] else [(a, if n ≤ 1024 then 64 + 32 * n else 64)]) <| match s.readList a ch with
      | .error code => s.finish j code 0
      | .ok l => if (l.toHost || s.hostPaired) && !s.hostUp then s.later j else (s.hostStore l).updRs (fun z => { z with snaps := z.snaps ++ [(j, ch, l)] })))

/-! ## Capture (R374, R375) -/

/-- R375: a capture is abandoned: the hold is lifted, and its SNAP completes with 0xC122. -/
def State.abandonCapture (s : State) (cause : BitVec 16) (addr : Nat) : State :=
  match s.rs.capture with
  | none => s
  | some c =>
    let s := match c.snap with
      | some j => (s.finish j 0xC122 0).updRs (fun z => { z with snaps := z.snaps.filter (fun x => x.1 != j) })
      | none => s
    let s := (s.pkgCount 0x800110 47 32 1).pkgReport 0xC122 true (BitVec.ofNat 64 addr) (cause.setWidth 128)
    s.liftHold c.ch

/-- R374 step 2: a member core is quiet. -/
def Core.captureQuiet (k : Core) : Bool :=
  (List.range 16).all (fun i => match k.stream i with | some x => x.st == .ended | none => true) && k.vq.isEmpty && k.seqHeldV.isEmpty &&
    k.mq.isEmpty && k.seqHeldM.isEmpty && k.acc.isNone && k.closes.toList.all Option.isNone && k.qwait.isEmpty

def State.hemRecs (s : State) (ch : PressId) : List HemRec :=
  (s.memberList ch).flatMap (fun c => (List.range 4).map (fun i =>
    let k := s.core c
    { core := c.val, stream := i, key := BitVec.ofNat 128 ((k.reg (rHEM i 0)).toNat + (k.reg (rHEM i 1)).toNat * 2 ^ 64), ctr := k.reg (rHEM i 2) }))

/-- The first listed address that faults. -/
def State.listFault (s : State) (l : RList) : Option (BitVec 16 × Nat) :=
  let probe (va : Nat) : Option (BitVec 16 × Nat) := match s.crsXlate l.ctx va .load with | .error e => some (e, va) | .ok _ => none
  (l.stepVa :: l.ents.flatMap (fun e => if e.kind = 3 then [e.va]
    else (List.range ((e.va + e.len - 1) / 2 ^ 25 + 1 - e.va / 2 ^ 25)).map (fun i => max e.va ((e.va / 2 ^ 25 + i) * 2 ^ 25)))).findSome? probe

def State.numVa (s : State) (ctx : BitVec 4) (va : Nat) : W64 := match s.readVa ctx va 8 with | .ok r => BitVec.ofNat 64 (leNat r.1) | .error _ => 0

/-- The lines that a listed span lies in, as an access of a kind reaches them. -/
def State.vaKeys (s : State) (ctx : BitVec 4) (acc : Acc) (va n : Nat) : List Nat :=
  (List.range ((n + 31) / 32)).flatMap (fun i => match s.crsXlate ctx (va + 32 * i) acc with
    | .ok x => spanKeys x.host x.pa (min 32 (n - 32 * i))
    | .error _ => [])

/-- R374 step 3; its reads wait at their homes (R359). -/
def execCaptureQuiesced (s : State) : Host.Outcome State Fault Refusal :=
  match s.rs.capture with
  | none => .next s
  | some c =>
    if c.quiet || !((s.memberList c.ch).all (fun m => (s.core m).captureQuiet)) then .next s
    else match s.listFault c.list with
      | some f => .next (s.abandonCapture f.1 f.2)
      | none =>
      match s.gate none ((c.list.stepVa :: c.list.cursors.map REnt.va).flatMap (fun va => s.vaKeys c.list.ctx .load va 8)) false with
      | some s => .next s
      | none =>
        let q : Capture := { c with quiet := true, stepNo := s.numVa c.list.ctx c.list.stepVa, hems := s.hemRecs c.ch,
                                    cursors := c.list.cursors.map (fun e => s.numVa c.list.ctx e.va) }
        .next (s.updRs (fun z => { z with capture := some q }))

/-- Copy n blocks of 32 bytes from a listed address to device memory: the CRC-64 register and the poisoned blocks go along. -/
def copyOut : Nat → State → BitVec 4 → Nat → Nat → Nat → Nat → Except (BitVec 16 × Nat) (State × Nat × Nat)
  | 0, s, _, _, _, crc, p => .ok (s, crc, p)
  | n + 1, s, ctx, va, dst, crc, p =>
    match s.readVa ctx va 32 with
    | .error e => .error (e, va)
    | .ok r => copyOut n (s.cohPut false dst r.1 r.2) ctx (va + 32) (dst + 32) (r.1.foldl (fun c b => crcStep c b.toNat 1 polyCrc64) crc) (p + r.2.toNat)

def crcInit : Nat := 2 ^ 64 - 1
def crcDone (c : Nat) : Nat := c ^^^ (2 ^ 64 - 1)

/-- The tensor sections: their CRC-64s, and the poisoned blocks. -/
def copySecs : List (REnt × Nat) → State → RList → Except (BitVec 16 × Nat) (State × List Nat × Nat)
  | [], s, _ => .ok (s, [], 0)
  | e :: r, s, l =>
    match copyOut (e.1.len / 32) s l.ctx e.1.va (l.capPa + e.2) crcInit 0 with
    | .error f => .error f
    | .ok x =>
      match copySecs r x.1 l with
      | .error f => .error f
      | .ok y => .ok (y.1, crcDone x.2.1 :: y.2.1, x.2.2 + y.2.2)

/-- R377: the records of the CURSOR and HEM sections. -/
def cursorBytes (e : REnt) (v : W64) : List Byte :=
  leBytes 8 e.va ++ leBytes 8 v.toNat ++ leBytes 8 e.len ++ leBytes 4 e.draws ++ [BitVec.ofNat 8 e.core, BitVec.ofNat 8 e.stream, 0, 0]
def hemBytes (r : HemRec) : List Byte :=
  leBytes 16 r.key.toNat ++ leBytes 8 r.ctr.toNat ++ [BitVec.ofNat 8 r.core, BitVec.ofNat 8 r.stream] ++ List.replicate 6 0

/-- R377: an entry of the section table. -/
def secEntry (kind va off len crc recs : Nat) : List Byte :=
  [BitVec.ofNat 8 kind] ++ List.replicate 7 0 ++ leBytes 8 va ++ leBytes 8 off ++ leBytes 8 len ++ leBytes 8 crc ++ leBytes 8 recs

/-- R376: the image header. -/
def State.imageHeader (s : State) (c : Capture) (nsec len pois : Nat) : List Byte :=
  let host := c.list.toHost || s.hostPaired
  let indep := !host && s.pkgFld 0x800100 4 4 = 1
  let a := leBytes 4 0x4C4F5352 ++ [1, BitVec.ofNat 8 (indep.toNat + 2 * host.toNat + 4 * (!host && s.rs.forced).toNat)] ++ leBytes 2 s.straps.pos.toNat ++
    leBytes 8 c.stepNo.toNat ++ leBytes 8 s.commitSeq.toNat ++ leBytes 8 ((s.die 0).ts).toNat ++
    [BitVec.ofNat 8 s.straps.feed.toNat, if host then 0xFF else s.rs.pfeed, s.incarn, BitVec.ofNat 8 c.ch.val] ++ leBytes 2 nsec ++ [0, 0] ++
    leBytes 8 len ++ leBytes 8 c.epoch.toNat ++ leBytes 4 pois ++ List.replicate 60 0
  a ++ leBytes 8 (crc64Sum a)

/-! ## Replication (R380, R381) -/

/-- R378: where slot k of the store begins, from the store's base. -/
def slotOff (slot k : Nat) : Nat := 2 ^ 25 + k * slot

/-- A write of the replication at an offset of the store: to host memory, or as a WR message to the partner. -/
def State.replWrite (s : State) (l : RList) (off : Nat) (bs : List Byte) (pois : Bool) : State :=
  if l.toHost || s.hostPaired then s.cohPut true (l.hostPa + off) bs pois
  else s.sendSeq 0x02 { plainMsg l.vc (BitVec.ofNat 10 (s.pkgFld 0x800100 25 16)) bs.length (2 ^ 36 + off) with data := bs, pois := pois } .repl

/-- R380 step 1: the image, 256 bytes at a time. -/
def sendImage : Nat → State → RList → Nat → Nat → State
  | 0, s, _, _, _ => s
  | n + 1, s, l, src, off =>
    let r := s.peek false src 256
    sendImage n (s.replWrite l off r.1 r.2) l (src + 256) (off + 256)

def State.replStart (s : State) (r : Repl) : State :=
  let s := s.updRs (fun z => { z with repl := some { r with phase := 1 } })
  sendImage (r.bytes / 256) s r.list r.list.capPa (slotOff (s.storeSlot r.list) r.slot)

/-- CURRENT of the store that a list's images go to. -/
def State.storeCur (s : State) (l : RList) : Nat := if l.toHost || s.hostPaired then numAt (s.peek true (l.hostPa + 24) 1).1 0 1 else s.rs.cur

/-- R373: the captured list is the standing list, and the gauge takes its thresholds and is armed. -/
def State.standList (s : State) (c : Capture) : State :=
  let s := s.updRs (fun z => { z with standing := some (c.ch, c.list), due := if c.snap.isSome then z.due else false, since := 0,
                                      snaps := z.snaps.filter (fun x => some x.1 != c.snap) })
  let s := ((s.setPkgFld 0x800010 9 0 (min 1023 c.list.thresh)).setPkgFld 0x800010 19 10 (min 1023 c.list.hyst)).setPkgFld 0x800010 29 20 (min 1023 c.list.alarm)
  let s := s.setPkgFld 0x800010 37 30 c.list.rpt
  if c.snap.isSome then s.setPkgFld 0x800010 38 38 1 else s

/-- R374 steps 4 to 6, R380: the sections, the table and the header are written, the hold is lifted, and replication begins. -/
def execCaptureEnd (s : State) : Host.Outcome State Fault Refusal :=
  match s.rs.capture with
  | none => .next s
  | some c =>
    if !c.quiet then .next s
    else
      let l := c.list
      let lens := imageLens l (c.hems.length / 4)
      let offs := imageOffs lens
      match s.spanWait false l.capPa (imageLen lens) with
      | some s => .next s
      | none =>
      match s.gate none (l.tensors.flatMap (fun e => s.vaKeys l.ctx .load e.va e.len)) false with
      | some s => .next s
      | none =>
      match copySecs (l.tensors.zip offs) s l with
      | .error f => .next (s.abandonCapture f.1 f.2)
      | .ok (s, crcs, pois) =>
        let nt := l.tensors.length
        let cur := ((l.cursors.zip c.cursors).flatMap (fun p => cursorBytes p.1 p.2))
        let hem := c.hems.flatMap hemBytes
        let s := s.cohPut false (l.capPa + offs.getD nt 0) cur false
        let s := s.cohPut false (l.capPa + offs.getD (nt + 1) 0) hem false
        let table := ((l.tensors.zip (offs.zip crcs)).flatMap (fun p => secEntry p.1.kind p.1.va p.2.1 p.1.len p.2.2 0)) ++
          secEntry 3 0 (offs.getD nt 0) cur.length (crc64Sum cur) l.cursors.length ++
          secEntry 4 0 (offs.getD (nt + 1) 0) hem.length (crc64Sum hem) c.hems.length
        let s := s.cohPut false (l.capPa + 128) table false
        let s := s.cohPut false l.capPa (s.imageHeader c lens.length (imageLen lens) pois) false
        let s := (s.pkgCount 0x800110 15 0 1).pkgReport 0xC120 true 0 (BitVec.ofNat 128 (c.stepNo.toNat + pois * 2 ^ 64))
        let s := (s.standList c).liftHold c.ch
        let r : Repl := { snap := c.snap, list := l, ch := c.ch, stepNo := c.stepNo, bytes := imageLen lens, slot := if s.storeCur l = 0 then 1 else 0 }
        .next (if (l.toHost || s.hostPaired) && !s.hostUp then s.updRs (fun z => { z with repl := some { r with phase := 0 } }) else s.replStart r)

/-- R375: Q − T exceeds 10 ms, or a listed address faults. -/
def execCaptureAbandon (tooLong : Bool) (s : State) : Host.Outcome State Fault Refusal :=
  match s.rs.capture with
  | none => .next s
  | some c =>
    if tooLong then .next (if c.quiet then s else s.abandonCapture 0 0)
    else match s.listFault c.list with
      | some f => .next (s.abandonCapture f.1 f.2)
      | none => .next s

/-- A write of the replication is still to be acknowledged. -/
def State.replBusy (s : State) : Bool := s.sendChs.any (fun c => c.unacked.any (fun x => x.who == .repl))

/-- R380: what the acknowledgements of the writes so far allow: the image, STEPk, CURRENT, and the end. -/
def execReplicationEnd (s : State) : Host.Outcome State Fault Refusal :=
  match s.rs.repl with
  | none => .next s
  | some r =>
    let host := r.list.toHost || s.hostPaired
    let put (s : State) (n off : Nat) (bs : List Byte) : State :=
      (s.updRs (fun z => { z with repl := some { r with phase := n } })).replWrite r.list off bs false
    if r.fail.isSome || s.replBusy || (host && !s.hostUp) then .next s
    else if r.phase = 0 then .next (s.replStart r)
    else if r.phase = 1 then .next (put s 2 (32 + 8 * r.slot) (leBytes 8 r.stepNo.toNat))
    else if r.phase = 2 then .next (put s 3 24 (BitVec.ofNat 8 r.slot :: List.replicate 7 0))
    else
      let s := (s.updRs (fun z => { z with repl := none, cur := if host then z.cur else r.slot })).updDie 0 (fun d => d.setReg 0x800108 r.stepNo)
      let s := s.pkgReport 0xC121 true 0 (BitVec.ofNat 128 (r.stepNo.toNat + r.slot * 2 ^ 64))
      .next (match r.snap with | some j => s.finish j 0 r.stepNo.toNat | none => s)

/-- R381: a write of the replication aborted. code: the cause where host memory refused it. -/
def execReplicationFail (code : BitVec 16) (s : State) : Host.Outcome State Fault Refusal :=
  match s.rs.repl with
  | none => .next s
  | some r =>
    if r.fail.isNone && !(r.list.toHost || s.hostPaired) then .next s
    else
      let s := (s.updRs (fun z => { z with repl := none })).pkgCount 0x800110 63 48 1
      let s := s.pkgReport 0xC123 false 0 ((r.fail.getD code).setWidth 128)
      .next (match r.snap with | some j => s.finish j 0xC123 0 | none => s)

/-! ## PAIR (R379) -/

/-- The channel of PAIR's read (log 66). -/
def pairVc : BitVec 4 := 0

/-- R379: PAIR reads the 64 bytes of the partner's store with an RD; what comes back ends it (State.pairAnswer, State.unanswered), and the
command's own operand is not used (log 66). -/
def execPair (j : Nat) (_answer : List Byte) (s : State) : Host.Outcome State Fault Refusal :=
  .next (s.work j (isCmd 0x32) (fun x s =>
    let p := x.num 16 2
    let pos : BitVec 10 := BitVec.ofNat 10 p
    if p = 0xFFFF then (s.recordPair 0 true false false 0xFF 0xFF 0).finish j 0 0
    else if 1024 ≤ p then s.finish j 0xB013 0
    else (s.updJob j (fun y => { y with stream := some (s.sendCh pos pairVc).next.toNat })).sendSeq 0x01 (plainMsg pairVc pos 64 (2 ^ 36)) (.cmd j)))

/-! ## RESTORE (R383 to R385) -/

/-- A store as a restore reads it: bytes and poison from an offset. -/
def State.storeRead (s : State) (src base : Nat) (outside : List Byte) (off n : Nat) : List Byte × Bool :=
  if src = 0 then s.peek false (base + off) n else (((outside.drop off).take n) ++ List.replicate (n - ((outside.drop off).take n).length) 0, false)

/-- R384 step 4: n blocks of 32 bytes to a VA, their CRC-64 going along. -/
def copyIn (rd : Nat → List Byte × Bool) (ctx : BitVec 4) : Nat → State → Nat → Nat → Nat → Except (BitVec 16 × State) (State × Nat)
  | 0, s, _, _, crc => .ok (s, crc)
  | n + 1, s, off, va, crc =>
    let r := rd off
    match s.writeVa ctx va r.1 r.2 with
    | .error e => .error (e, s)
    | .ok s => copyIn rd ctx n s (off + 32) (va + 32) (r.1.foldl (fun c b => crcStep c b.toNat 1 polyCrc64) crc)

/-- R384 steps 4 and 5: the sections in table order; cursor and hem sections are only checked here. -/
def restoreSecs (rd : Nat → Nat → List Byte × Bool) (ctx : BitVec 4) (img : Nat) : List (List Byte) → State → Except (BitVec 16 × State) State
  | [], s => .ok s
  | e :: r, s =>
    let off := img + numAt e 16 8
    let len := numAt e 24 8
    let k := numAt e 0 1
    if k = 1 ∨ k = 2 then
      match copyIn (fun a => rd a 32) ctx (len / 32) s off (numAt e 8 8) crcInit with
      | .error f => .error f
      | .ok x => if crcDone x.2 = numAt e 32 8 then restoreSecs rd ctx img r x.1 else .error (0xC131, x.1)
    else if crc64Sum (rd off len).1 = numAt e 32 8 then restoreSecs rd ctx img r s
    else .error (0xC131, s)

/-- R384 step 6: the hem records; 0xB014 where a stream runs. -/
def restoreHems : List (List Byte) → State → Except (BitVec 16 × State) State
  | [], s => .ok s
  | b :: r, s =>
    let c : CoreId := Fin.ofNat 64 (numAt b 24 1)
    let i := numAt b 25 1 % 4
    if (s.core c).hemRuns i then .error (0xB014, s)
    else restoreHems r (s.updCore c (fun k => ((k.setReg (rHEM i 0) (BitVec.ofNat 64 (numAt b 0 8))).setReg (rHEM i 1) (BitVec.ofNat 64 (numAt b 8 8))).setReg
      (rHEM i 2) (BitVec.ofNat 64 (numAt b 16 8))))

/-- R385: the counter that a cursor record implies. -/
def impliedCtr (b : List Byte) : W64 := BitVec.ofNat 64 (numAt b 16 8 + numAt b 8 8 * numAt b 24 4)

/-- R384 step 7, R385: the cursors, realigning their streams; the realigned records are answered with the saved counters. -/
def restoreCursors (ctx : BitVec 4) : List (List Byte) → State → Except (BitVec 16 × State) (State × List (List Byte × W64))
  | [], s => .ok (s, [])
  | b :: r, s =>
    match s.writeVa ctx (numAt b 0 8) (leBytes 8 (numAt b 8 8)) false with
    | .error e => .error (e, s)
    | .ok s =>
      let c : CoreId := Fin.ofNat 64 (numAt b 28 1)
      let i := numAt b 29 1 % 4
      let old := (s.core c).reg (rHEM i 2)
      let moved := old != impliedCtr b
      let s := if moved then (s.updCore c (fun k => k.setReg (rHEM i 2) (impliedCtr b))).pkgCount 0x800118 63 0 1 else s
      match restoreCursors ctx r s with
      | .error f => .error f
      | .ok x => .ok (x.1, if moved then (b, old) :: x.2 else x.2)

def chunksOf (n : Nat) (l : List Byte) : List (List Byte) := (List.range (l.length / n)).map (fun i => (l.drop (n * i)).take n)

/-- R384: a restore from a store, by its reader and the lines that its reads lie in. -/
def State.restoreFrom (s : State) (j : Nat) (d : List Byte) (rd : Nat → Nat → List Byte × Bool) (lines : Nat → Nat → List Nat) : State :=
  let ctx : BitVec 4 := BitVec.ofNat 4 (numAt d 6 1)
  let h := (rd 0 64).1
  let k := if numAt d 4 1 = 0xFF then numAt h 24 1 else numAt d 4 1
  let img := slotOff (numAt h 8 8) k
  let ih := (rd img 128).1
  let nsec := numAt ih 36 2
  let secs := chunksOf 48 (rd (img + 128) (48 * nsec)).1
  let recs (kind : Nat) : List (List Byte) := (secs.filter (fun e => numAt e 0 1 == kind)).flatMap (fun e => chunksOf 32 (rd (img + numAt e 16 8) (numAt e 24 8)).1)
  let busy := (recs 4).any (fun b => let c : CoreId := Fin.ofNat 64 (numAt b 24 1); (s.core c).run == .inReset || (s.core c).launch.isSome)
  match s.gate none (lines 0 64) false with
  | some s => s.later j
  | none =>
  if !storeValid h || decide (1 < k) then s.finish j 0xC130 0
  else match s.gate none (lines img 128) false with
  | some s => s.later j
  | none =>
  if numAt ih 0 4 ≠ 0x4C4F5352 ∨ numAt ih 4 1 ≠ 1 ∨ crc64Sum (ih.take 120) ≠ numAt ih 120 8 ∨ numAt ih 8 8 ≠ numAt h (32 + 8 * k) 8 then
    s.finish j 0xC130 0
  else if numAt d 5 1 % 2 = 1 ∧ numAt ih 5 1 % 2 = 0 then s.finish j 0xC133 0
  else if busy then s.finish j 0xB017 0
  else
    let own := secs.flatMap (fun e => if numAt e 0 1 = 1 ∨ numAt e 0 1 = 2 then s.vaKeys ctx .store (numAt e 8 8) (numAt e 24 8) else [])
    let cur := (recs 3).flatMap (fun b => s.vaKeys ctx .store (numAt b 0 8) 8)
    let step := match s.rs.standing with | some l => s.vaKeys l.2.ctx .store l.2.stepVa 8 | none => []
    match s.gate none (lines (img + 128) (48 * nsec) ++ secs.flatMap (fun e => lines (img + numAt e 16 8) (numAt e 24 8))) false with
    | some s => s.later j
    | none =>
    match s.gate none (own ++ cur ++ step) true with
    | some s => s.later j
    | none =>
    match restoreSecs rd ctx img secs s with
    | .error f => f.2.finish j f.1 0
    | .ok s =>
      match restoreHems (recs 4) s with
      | .error f => f.2.finish j f.1 0
      | .ok s =>
        match restoreCursors ctx (recs 3) s with
        | .error f => f.2.finish j f.1 0
        | .ok x =>
          let n := x.2.length
          let s := match x.2 with
            | [] => x.1
            | (b, old) :: _ => x.1.pkgReport 0xC132 true 0 (BitVec.ofNat 128 (numAt b 28 1 + numAt b 29 1 * 2 ^ 8 + n * 2 ^ 16 + old.toNat % 2 ^ 40 * 2 ^ 48 +
                (impliedCtr b).toNat % 2 ^ 40 * 2 ^ 88))
          let stepVa := match s.rs.standing with | some l => some (l.2.ctx, l.2.stepVa) | none => none
          let s := match stepVa with
            | some v => (match s.writeVa v.1 v.2 (leBytes 8 (numAt ih 8 8)) false with | .ok s => s | .error _ => s)
            | none => s
          s.finish j 0 (numAt ih 8 8 + n * 2 ^ 64)

/-- R383, R384. outside: the store's bytes, from its base, where it lies in another package or in host memory. -/
def execRestore (j : Nat) (outside : List Byte) (s : State) : Host.Outcome State Fault Refusal :=
  .next (s.work j (isCmd 0x31) (fun x s =>
    let a := x.addr
    let d := (s.peek false a 64).1
    let src := numAt d 1 1
    if a % 64 ≠ 0 ∨ 2 ^ 40 ≤ a ∨ !devSpan a 64 then s.finish j 0xB013 0
    else s.whenRead j false [(a, 64)] <|
    if numAt d 0 1 ≠ 1 ∨ 1 < numAt d 5 1 ∨ numAt d 7 1 ≠ 0 ∨ numAt d 16 48 ≠ 0 then s.finish j 0xB010 0
    else if 2 < src ∨ (src = 1 ∧ 1024 ≤ numAt d 2 2) ∨ (1 < numAt d 4 1 ∧ numAt d 4 1 ≠ 0xFF) ∨ 15 < numAt d 6 1 then s.finish j 0xB013 0
    else if (src = 0 ∧ (2 ^ 40 ≤ numAt d 8 8 ∨ !devSpan (numAt d 8 8) 64)) ∨ (src = 1 ∧ numAt d 8 8 ≠ 2 ^ 36) then s.finish j 0xB013 0
    else if !s.ctxEn (BitVec.ofNat 4 (numAt d 6 1)) then s.finish j 0x7030 0
    else if src = 2 && !s.hostUp then s.later j
    else s.restoreFrom j d (s.storeRead src (numAt d 8 8) outside) (fun off n => if src = 0 then spanKeys false (numAt d 8 8 + off) n else [])))

end Sys2Proof.Machine
end

