-- ==== Sys2Proof/Machine/Launch.lean ====
section
/-! DEFINITION. Launches and fused commands as Cretas starts them (R334, R335, R340), part resets (R15, R280, R341, R386), and the commit of
a command (R339). -/

namespace Sys2Proof.Machine

/-! ## The launch block (R335) -/

def LaunchRun.num (r : LaunchRun) (lo n : Nat) : Nat := numAt r.block lo n
def LaunchRun.norerun (r : LaunchRun) : Bool := r.num 0 1 % 2 = 1
def LaunchRun.entry (r : LaunchRun) : Nat := r.num 8 8
def LaunchRun.rejoin (r : LaunchRun) : Nat := r.num 16 8
def LaunchRun.timeout (r : LaunchRun) : Nat := r.num 24 8

/-- Capability i of the block: PCC, RSCAP, ESCAP, EHCAP, FBCAP, then c0 to c15; one of zeros is untagged. -/
def LaunchRun.cap (r : LaunchRun) (i : Nat) : Cap :=
  let x := r.num (32 + 16 * i) 16
  { bits := BitVec.ofNat 128 x, tag := x != 0 }

/-- R162: a capability of c0 to c15 that reaches the return stack, the exception stack or the emergency area. -/
def LaunchRun.reaches (r : LaunchRun) (i : Nat) : Bool :=
  let x := r.cap i
  let meets (lo hi : Nat) : Bool := decide (x.base < hi) && decide (lo < x.top)
  let stack (k : Nat) : Bool := let y := r.cap k; y.tag && y.tile && meets y.base y.top
  x.tag && x.tile && (meets Config.emergencyBase Config.tileBytes || stack 1 || stack 2)

/-- R335: a capability of the block fails R158 or R162. -/
def LaunchRun.capsBad (r : LaunchRun) : Bool :=
  (List.range 21).any (fun i => (r.cap i).tag && (r.cap i).malformed) || (List.range 16).any (fun i => r.reaches (5 + i))

/-- Reserved bits and bytes of the block. -/
def LaunchRun.reserved (r : LaunchRun) : Bool := decide (1 < r.num 0 8) || r.num 432 80 != 0

/-! ## Starting a core (R335) -/

/-- R335: the core starts at an address with the block's capabilities, a frame key and the given registers from g1 up; every other
general register, DEPTH, IE and MASK are 0. -/
def Core.start (k : Core) (r : LaunchRun) (j at_ : Nat) (key : BitVec 128) (gs : List W64) : Core :=
  let k : Core := { k with
    run := .running, launch := some j, held := none, exc := none, haltReq := false, dbgHalt := false, sb := 0, late := 0, retBuf := [],
    g := .ofFn (fun i => if i.val = 0 then 0 else gs.getD (i.val - 1) 0), c := .ofFn (fun i => r.cap (5 + i.val)),
    scap := .ofFn (fun i => if i.val = 0 then (r.cap 0).moved at_ else r.cap i.val) }
  let k := ((k.setReg rFRAMEKEYLO (key.setWidth 64)).setReg rFRAMEKEYHI ((key >>> 64).setWidth 64)).setReg rGPOISON 0
  (((k.setFld rEXSTAT 3 3 0).setFld rEXSTAT 1 0 0).setFld rEXCTL 15 8 0).setFld rEXCTL 0 0 0 |>.flushQueue

/-- A fresh random frame key (R335): a free value. -/
def State.freshKey (s : State) : BitVec 128 × State := let r := s.free; (BitVec.ofNat 128 r.1, r.2)

def LaunchRun.gs (r : LaunchRun) : List W64 := (List.range 8).map (fun i => BitVec.ofNat 64 (r.num (368 + 8 * i) 8))

/-- Start the cores of a launch at ENTRY; a core for which no key is given takes a fresh one. -/
def State.startAll (s : State) (r : LaunchRun) (j : Nat) (cs : List CoreId) (keys : List (BitVec 128)) : State :=
  (cs.zipIdx).foldl (fun s p =>
    let y := match keys[p.2]? with | some key => (key, s) | none => s.freshKey
    y.2.updCore p.1 (fun k => k.start r j r.entry y.1 r.gs)) s

/-- A launch, other than j itself, that has not committed and names the core. -/
def State.inLaunch (s : State) (j : Nat) (c : CoreId) : Bool :=
  (s.core c).launch.isSome ||
    s.journal.any (fun p => p.1 != j && p.2.cmd == 0x21 && p.2.launch.isSome && p.2.record.isNone && (p.2.num 16 8).testBit c.val)

/-- R335. keys: the random frame keys of the mask's cores, in core order. -/
def execLaunch (j : Nat) (keys : List (BitVec 128)) (s : State) : Host.Outcome State Fault Refusal :=
  .next (s.work j (isCmd 0x21) (fun x s =>
    let a := x.addr
    let cs := x.cores
    let r : LaunchRun := { mask := BitVec.ofNat 64 (x.num 16 8), block := (s.peek false a 512).1 }
    if a % 64 ≠ 0 ∨ 2 ^ 40 ≤ a ∨ !devSpan a 512 ∨ cs.isEmpty then s.finish j 0xB013 0
    else s.whenRead j false [(a, 512)] <|
    if r.reserved then s.finish j 0xB010 0
    else if cs.any (fun c => (s.core c).run == .inReset || s.inLaunch j c) then s.finish j 0xB017 0
    else if r.capsBad then s.finish j 0xB016 0
    else (s.updJob j (fun y => { y with launch := some r })).startAll r j cs keys))

/-- Halt the cores that still run in launch j. -/
def State.haltLaunch (s : State) (j : Nat) : State :=
  s.mapCores (fun _ k => if k.launch == some j then { k with run := if k.run == .inReset then .inReset else .halted, held := none, launch := none } else k)

/-- R334, R335: RESULT of a LAUNCH. -/
def State.launchResult (s : State) (x : JSlot) : Nat :=
  ((x.cores.head?).map (fun c => (s.core c).fld 0x1C00 31 0)).getD 0 + (match x.launch with | some r => min 255 r.rejoined | none => 0) * 2 ^ 32

/-- R335: the launch has reached its TIMEOUT before it commits. -/
def execLaunchTimeout (j : Nat) (s : State) : Host.Outcome State Fault Refusal :=
  match s.job j with
  | none => .next s
  | some x =>
    match x.launch with
    | none => .next s
    | some r =>
      .next (if x.cmd = 0x21 && x.started && x.done.isNone && x.record.isNone && r.timeout != 0 then
        (s.finish j 0xB021 (s.launchResult x)).haltLaunch j else s)

/-! ## FUSE (R193, R334) -/

/-- FUSE waits for stream contexts as tx.fuse does (R189); one that runs again waits for the end of the reset that interrupted it (R341). -/
def execFuse (j : Nat) (s : State) : Host.Outcome State Fault Refusal :=
  match s.job j with
  | none => .next s
  | some x0 =>
    let c : CoreId := Fin.ofNat 64 (x0.num 16 1)
    let plan := checkFused (s.core c) ((s.core c).getC (BitVec.ofNat 4 (x0.num 17 1))) (x0.num 20 4)
    let full := match plan with | .ok p => decide ((s.core c).freeCtxs.length < p.lasts.length + 1) | .error _ => false
    let fits := decide (x0.num 16 1 < 64) && decide (x0.num 17 1 < 16)
    let wait := if (s.core c).run == .inReset then x0.reruns != 0 else full
    .next (if wait && fits then s
    else s.work j (isCmd 0x22) (fun _ s =>
      if !fits then s.finish j 0xB013 0
      else if (s.core c).run == .inReset then s.finish j 0xB017 0
      else match plan with
        | .error e => s.finish j e.1 0
        | .ok p =>
          let k := s.core c
          (s.updCore c (fun k => k.openFused p k.freeCtxs)).updJob j (fun y => { y with stream := some (k.freeCtxs.headD 0), gen := k.txGen })))

/-! ## Part resets (R15) -/

/-- The cores of a level: 0 a core, 1 a cluster, 2 a region. -/
def levelCores (level n : Nat) : List CoreId :=
  (List.finRange 64).filter (fun c => if level = 0 then c.val == n else if level = 1 then c.val / 4 == n else c.val / 8 == n)

/-- R15: what a core keeps: the bytes and the poison of its tile memory; the launch it takes part in, which Cretas knows; and the
requests already issued, which its reset completes (R223). -/
def Core.inReset (k : Core) : Core := { run := .inReset, tile := k.tile, tilePoison := k.tilePoison, launch := k.launch, txGen := k.txGen, txReqs := k.txReqs }

/-- R202, R204: a rotation under way with a core that is reset holds until that core has posted again. -/
def State.ringReset (s : State) (c : CoreId) : State :=
  let stop (o : Option MgOp) : Option MgOp := o.map (fun (m : MgOp) => if m.ended then m else { m with started := false })
  let n := ringNext c
  let s := if n = c then s else s.updCore n (fun k => { k with mgPost := stop k.mgPost })
  s.mapCores (fun d k => if ringNext d = c then { k with mgRot := stop k.mgRot } else k)

/-- R223: a core has no request on its way. -/
def State.issuedNone (s : State) (c : CoreId) : Bool :=
  (s.core c).txReqs.isEmpty && s.sendChs.all (fun ch => ch.unacked.all (fun x => x.m.void || (match x.who with
    | .tx d _ => d != c | .load d _ _ _ => d != c | .store d _ _ _ _ => d != c | _ => true)))

/-- R227, R223: an INVAL_RANGE that awaits core c's acknowledgement writes its TRINV again when the reset ends. -/
def State.invalReset (s : State) (c : CoreId) : State :=
  match s.journal.find? (fun p => p.2.invalTurn == some (2 * c.val + 1)) with
  | some p => s.invalStep p.1 (2 * c.val)
  | none => s

/-- R15, R208, R223: one core is reset; an invalidation that it has not acknowledged reaches it again when its reset ends. -/
def State.resetCore (s : State) (c : CoreId) : State :=
  let s := (s.ringReset c).invalReset c
  let s := s.updCore c Core.inReset
  if s.invAck.getLsbD c.val then s else { s with invGot := s.invGot &&& ~~~(BitVec.ofNat 64 (2 ^ c.val)) }

/-- R15: a line that cannot be written back is poisoned in memory; what a host line held is lost (log 34). -/
def State.poisonLine (s : State) (key : Nat) : State :=
  if isHost key then s
  else
    let s := (s.updRegion (s.homeOf key) (fun r => r.rcDrop key)).settle (64 * key) 64
    (s.setBlockPoison (2 * key) true).setBlockPoison (2 * key + 1) true

/-- R15: a line is written back, or it is among those that cannot be. -/
def State.saveLine (s : State) (lost : List Nat) (key : Nat) (d : LData) : State :=
  if lost.contains key then s.poisonLine key else s.homeWriteback key d

/-- R15: a cluster's L2 and hamper: dirty lines are written back, then everything is cleared. lost: the lines that cannot be written back,
whose words count in L2ERR.POISON. -/
def State.resetCluster (s : State) (cl : ClusterId) (lost : List Nat) : State :=
  let k := s.cluster cl
  let moves := (List.finRange 8).flatMap (fun r => (s.region r).moves.filter (fun m => m.cl == cl && !m.offer && !m.stale))
  let s := { s with regions := s.regions.map (fun (r : Region) => { r with moves := r.moves.filter (fun m => m.cl != cl) }),
                    homeWait := s.homeWait.filter (fun q => match q with | .read c _ _ _ => c != cl | .readCur c _ => c != cl | _ => true) }
  let dirty := moves.map (fun m => (m.key, m.d)) ++
    (k.hamper.filter (fun e => !e.stale && (e.st == some .m || e.st == some .o))).map (fun e => (e.key, e.d)) ++
    ((k.evWait ++ k.l2).filter (fun l => l.st == .m || l.st == .o)).map (fun l => (l.key, l.d))
  let s := dirty.foldl (fun s x => s.saveLine lost x.1 x.2) s
  let n := ((dirty.map Prod.fst).eraseDups.filter lost.contains).length
  (s.updCluster cl (fun _ => if n = 0 then {} else ({} : Cluster).count 0x48 31 16 (4 * n))).trackerTrim

/-- R280: the controllers of a region complete what their queues hold, one that retrains once that has ended (R273); the region cache's
dirty lines are written back, and the region cache is cleared with its registers. -/
def State.resetRegion (s : State) (r : RegionId) (lost : List Nat) : State :=
  let s := (List.finRange 17).foldl (fun s p =>
    if ((s.region r).chans.get p).svc == .retraining then s
    else s.serveQueue r p) s
  let dirty := (s.region r).rc.filter RcLine.dirty
  let s := dirty.foldl (fun s l => if lost.contains l.key then s.poisonLine l.key else (s.settle (64 * l.key) 64).memSetLine (64 * l.key) l.d) s
  let n := (dirty.filter (fun l => lost.contains l.key)).length
  s.updRegion r (fun q =>
    let q : Region := { q with rc := [], regs := mdrop (fun o => decide (0x20000 ≤ o) && decide (o < 0x30000)) q.regs }
    if n = 0 then q else q.count 0x20030 31 16 (4 * n))

/-- R341: what a part reset does to a running launch: cores that are not reset get FAULTREC; with REJOIN = 0 the launch is interrupted,
and NORERUN = 1 ends it with 0xB020. -/
def State.interruptJob (s : State) (cs : List CoreId) (j : Nat) : State :=
  match s.job j with
  | none => s
  | some x =>
    if !x.started || x.done.isSome || x.record.isSome then s
    else if x.cmd = 0x22 then
      (if cs.contains (Fin.ofNat 64 (x.num 16 1)) && x.stream.isSome then s.setJob j { x with started := false, stream := none, reruns := x.reruns + 1 } else s)
    else match x.launch with
      | none => s
      | some r =>
        if !(cs.any (fun c => (s.core c).launch == some j)) then s
        else
          let s := s.mapCores (fun c k => if k.launch == some j && !cs.contains c then k.raiseInt 4 else k)
          if r.rejoin != 0 then s
          else if r.norerun then (s.finish j 0xB020 (s.launchResult x)).haltLaunch j
          else s.setJob j { x with launch := some { r with interrupted := true } }

/-- R341: a command of Cretas's own that names a region in reset runs again after the reset. -/
def rerunAt (n : Nat) (x : JSlot) : JSlot :=
  if (x.cmd == 0x41 || x.cmd == 0x42) && x.num 16 1 == n && x.started && x.done.isNone && x.record.isNone then
    { x with started := false, reruns := x.reruns + 1 }
  else x

/-- R15, R375: assert a part reset. -/
def State.assertReset (s : State) (level n : Nat) (lost : List Nat) : State :=
  let cs := levelCores level n
  let s := match s.rs.capture with
    | some c => if cs.any (fun m => s.isMember m c.ch) then s.abandonCapture 0xD010 0 else s
    | none => s
  let s := (s.journal.map Prod.fst).foldl (fun s j => s.interruptJob cs j) s
  let s := if level = 2 then { s with journal := s.journal.map (fun (p : Nat × JSlot) => (p.1, rerunAt n p.2)) } else s
  let s := cs.foldl State.resetCore s
  let s := if level = 1 then s.resetCluster (Fin.ofNat 16 n) lost
    else if level = 2 then ((s.resetCluster (Fin.ofNat 16 (2 * n)) lost).resetCluster (Fin.ofNat 16 (2 * n + 1)) lost).resetRegion (Fin.ofNat 8 n) lost
    else s
  { s with crs := { s.crs with resets := s.crs.resets ++ [(level, n)] } }

/-- R334: PART_RESET commits before its reset is asserted. -/
def execPartReset (j : Nat) (s : State) : Host.Outcome State Fault Refusal :=
  .next (s.work j (isCmd 0x40) (fun x s =>
    let level := x.num 16 1
    let n := x.num 17 1
    if 2 < level ∨ (level = 0 ∧ 64 ≤ n) ∨ (level = 1 ∧ 16 ≤ n) ∨ (level = 2 ∧ 8 ≤ n) then s.finish j 0xB013 0 else s.finish j 0 0))

/-- R341: the reset cores of launch j start again at REJOIN, or the interrupted launch runs again from ENTRY once its cores are back. -/
def State.rejoinJob (s : State) (cs : List CoreId) (j : Nat) : State :=
  match s.job j with
  | none => s
  | some x =>
    match x.launch with
    | none => s
    | some r =>
      let back := cs.filter (fun c => (s.core c).launch == some j && (s.core c).run == .idle)
      if x.done.isSome || x.record.isSome then s
      else if r.rejoin != 0 then
        let s := back.foldl (fun s c => let y := s.freshKey
          y.2.updCore c (fun k => k.start r j r.rejoin y.1 [0xD010, BitVec.ofNat 64 c.val])) s
        s.setJob j { x with launch := some { r with rejoined := r.rejoined + back.length } }
      else if r.interrupted && x.cores.all (fun c => (s.core c).run != .inReset) then
        (s.setJob j { x with reruns := x.reruns + 1, launch := some { r with interrupted := false } }).startAll r j x.cores []
      else s

/-- R386: once the requests issued have completed (R223) and a region's queues are empty (R280), event 0xD010; the cores that no other reset still holds leave reset, and their work goes on as R341 says. -/
def execPartResetEnd (level : Fin 3) (number : Nat) (s : State) : Host.Outcome State Fault Refusal :=
  if !s.crs.resets.contains (level.val, number) || !(levelCores level.val number).all s.issuedNone ||
      (level.val = 2 && !(s.region (Fin.ofNat 8 number)).queuesEmpty) then .next s
  else
    let s : State := { s with crs := { s.crs with resets := s.crs.resets.erase (level.val, number) } }
    let cs := (levelCores level.val number).filter (fun c => !(s.crs.resets.any (fun r => (levelCores r.1 r.2).contains c)))
    let s := s.mapCores (fun c k => if cs.contains c && k.run == .inReset then { k.inReset with run := .idle } else k)
    let s := s.post { code := 0xD010, event := true, level := level.val, num := number, die := (cs.headD 0).val / 32 }
    let s := ((s.journal.map Prod.fst).foldl (fun s j => s.rejoinJob cs j) s).invalTurn
    .next (if level.val = 2 then s.mcRefill (Fin.ofNat 8 number) else s)

/-- R386: a reset that outlasts its bound is reported and goes on. -/
def execPartResetOverrun (level : Fin 3) (number : Nat) (s : State) : Host.Outcome State Fault Refusal :=
  .next (if s.crs.resets.contains (level.val, number) then
    s.post { code := 0xD011, event := false, level := level.val, num := number, die := ((levelCores level.val number).headD 0).val / 32 } else s)

/-! ## COMMAND_COMMIT (R339) -/

/-- R339: slot j commits when its work has ended, in ticket order; corr counts the corrected errors on the blocks it used (R332). A
PART_RESET's reset is asserted just after, and lost gives the dirty lines that it cannot write back (R15). -/
def execCommandCommit (j : Nat) (corr : Nat) (s : State) (lost : List Nat := []) : Host.Outcome State Fault Refusal :=
  match s.job j with
  | none => .next s
  | some x =>
    let now := match s.workEnd j x with
      | some d => some d
      | none => if !x.started && s.startable x && s.serves x then (s.early x).map (fun c => (c, (0 : BitVec 128))) else none
    match now with
    | none => .next s
    | some d =>
      if x.record.isSome || !s.serves x || !s.inOrder x then .next s
      else
        let s := s.commit j x d.1 d.2 corr
        .next (if x.cmd = 0x40 && d.1 = 0 then s.assertReset (x.num 16 1) (x.num 17 1) lost else s)

end Sys2Proof.Machine
end

