-- ==== Sys2Proof/Machine/Trust.lean ====
section
/-! DEFINITION. Root of trust, attestation and field debug (R389 to R408): images and boot, LOAD_IMAGE, ATTEST, DEBUG_UNLOCK, SPDM over the
DOE mailbox (R356, R396), and the test port (R400). -/

namespace Sys2Proof.Machine

def State.updTrust (s : State) (f : Trust → Trust) : State := { s with trust := f s.trust }

/-! ## Images (R391, R392) -/

/-- FIPS 205 accepts a signature (log 11: the accepted ones are data of the state). -/
def Trust.verifies (t : Trust) (key msg sig : List Byte) : Bool := t.sigs.contains (key, msg, sig)

/-- A key hash of the fuses is the SHA-256 of a key. -/
def hashIs (h : BitVec 256) (key : List Byte) : Bool := sha256 key == bytes256 h

def zeroBytes (l : List Byte) (lo n : Nat) : Bool := numAt l lo n == 0

/-- R392: the detail of the first failing check of an image. -/
def Trust.imageDetail (t : Trust) (b : List Byte) : Option Nat :=
  let key := (b.drop 64).take 32
  let idx := numAt b 6 1
  let body := numAt b 16 4
  if numAt b 0 4 ≠ 0x43525431 ∨ numAt b 4 1 ≠ 1 ∨ 1 < numAt b 5 1 ∨ !zeroBytes b 13 3 ∨ !zeroBytes b 20 12 ∨ !zeroBytes b 96 160 ∨
      !zeroBytes b 8112 80 ∨ numAt b 10 2 ≠ 0x8640 ∨ (numAt b 12 1 ≠ 0xB1 ∧ numAt b 12 1 ≠ 0xFF) then some 1
  else if 4 ≤ idx ∨ t.fuses.imgRev.getLsbD idx ∨ !hashIs (t.fuses.imgKeyH.get (Fin.ofNat 4 idx)) key then some 2
  else if numAt b 7 1 < t.svnMin then some 3
  else if !t.verifies key (b.take 256) ((b.drop 256).take 7856) then some 4
  else if body = 0 ∨ 16769024 < body ∨ b.length < 8192 + body ∨ sha256 ((b.drop 8192).take body) ≠ (b.drop 32).take 32 then some 5
  else none

/-- R392: the image digest. -/
def imageDigest (b : List Byte) : List Byte := sha256 (b.take 256)

/-! ## Boot (R393, R394, R395) -/

/-- R393: the slots that STRAP_BOOT tries, in order. -/
def State.bootOrder (s : State) : List (Fin 2) :=
  if s.straps.boot = 0 then [s.trust.preferred, 1 - s.trust.preferred]
  else if s.straps.boot = 1 then [0]
  else if s.straps.boot = 2 then [1]
  else []

def State.slotBytes (s : State) (k : Fin 2) : List Byte := readBytes zeroByte (s.trust.store.get k) 0 16777216

/-- R394, R395: a slot that passed boots: Cretas runs and mirrors its journal, unless STRAP_DBG holds it for a debugger or the port is a PCIe link alone (R350); an image with
RAISE burns SVNMIN up to its SVN. -/
def State.bootFrom (s : State) (k : Fin 2) (second : Bool) : State :=
  let b := (s.slotBytes k).take 256
  let raise := numAt b 5 1 % 2 = 1
  let held := (s.straps.dbg && !s.trust.fuses.dbgClose) || s.cxl.st == 4
  let s := s.updTrust (fun t =>
    let f : Fuses := if raise then { t.fuses with svnMin := t.fuses.svnMin ||| BitVec.ofNat 64 (2 ^ numAt b 7 1 - 1) } else t.fuses
    { t with booted := some (k, b), fallback := second, idKey := true, fuses := f })
  let s := (s.setBarFld 8 17 16 (if held then 3 else 0)).setBarFld 8 19 19 1
  if second then s.pkgReport 0xC011 true 0 (BitVec.ofNat 128 k.val) else s

/-- R393: try slots in turn; with none left the ROM enters recovery. -/
def bootTry : List (Fin 2) → Bool → State → State
  | [], _, s => ((s.updTrust (fun t => { t with recovery := true })).setBarFld 8 17 16 3).pkgReport 0xC012 false 0
  | k :: r, second, s =>
    match s.trust.imageDetail (s.slotBytes k) with
    | none => s.bootFrom k second
    | some d => bootTry r true (s.pkgReport 0xC010 false 0 (BitVec.ofNat 128 (k.val + d * 2 ^ 8)))

/-- R394: from T0; the ROM sets PAD.CTL.IMG to 0b10 before it reads the image store (R429). -/
def execBoot (s : State) : Host.Outcome State Fault Refusal :=
  .next (if s.pwr.rst || !s.pwr.pll || s.trust.booted.isSome || s.trust.recovery then s
  else bootTry s.bootOrder false (s.setPkgFld 0xA00018 1 0 2))

/-! ## LOAD_IMAGE (R395) -/

/-- A command that reads or writes host memory waits for the host link; in recovery the ROM reads it over CXL.io (R393). -/
def State.hostReach (s : State) : Bool := s.hostUp || s.trust.recovery

/-- R395. hostImage: the image's bytes where LOC = 0. -/
def execLoadImage (j : Nat) (hostImage : List Byte) (s : State) : Host.Outcome State Fault Refusal :=
  .next (s.work j (fun x => isCmd 0x20 x && (x.num 32 1 != 0 || s.hostReach)) (fun x s =>
    let len := x.addr
    let a := x.num 16 8
    let k : Fin 2 := Fin.ofNat 2 (x.num 33 1)
    let b := if x.num 32 1 = 0 then hostImage.take len else (s.peek false a len).1
    let here := match s.trust.booted with | some y => y.1 == k | none => false
    if 1 < x.num 32 1 ∨ 1 < x.num 33 1 ∨ 16777216 < len ∨ len < 8193 ∨ (x.num 32 1 = 1 ∧ (2 ^ 40 ≤ a ∨ !devSpan a len ∨ s.trust.recovery)) then
      s.finish j 0xB013 0
    else if here then s.finish j 0xB014 0
    else s.whenRead j false (if x.num 32 1 = 0 then [] else [(a, len)]) <| match s.trust.imageDetail b with
      | some d => s.finish j 0xB030 d
      | none =>
        (s.updTrust (fun t => { t with store := t.store.set k.val (writeBytes zeroByte (t.store.get k) 0 b) k.isLt, preferred := k })).finish j 0
          (leNat ((imageDigest b).take 16))))

/-! ## Measurements and ATTEST (R397 to R399) -/

/-- A measurement block: PRESUMED (log 11) the DMTF form of SPDM 1.3. -/
def measBlock (i type : Nat) (raw : Bool) (v : List Byte) : List Byte :=
  [BitVec.ofNat 8 i, 1] ++ leBytes 2 (v.length + 3) ++ [BitVec.ofNat 8 (type + 128 * raw.toNat)] ++ leBytes 2 v.length ++ v

/-- R397: the six blocks. -/
def State.measurements (s : State) : List (List Byte) :=
  let t := s.trust
  let f := t.fuses
  let hdr := match t.booted with | some x => x.2 | none => []
  let b (x : Bool) : Byte := BitVec.ofNat 8 x.toNat
  [measBlock 1 0 false (bytes256 Config.romDigest), measBlock 2 1 false (imageDigest hdr),
   measBlock 3 3 true ([hdr.getD 7 0, hdr.getD 8 0, hdr.getD 9 0, BitVec.ofNat 8 (match t.booted with | some x => x.1.val | none => 0), b t.fallback, 0, 0, 0]),
   measBlock 4 2 true ([BitVec.ofNat 8 t.svnMin, f.imgRev.setWidth 8, f.dbgRev.setWidth 8, b f.dbgClose, b f.pwEn, f.pwScope.setWidth 8, 0, 0]),
   measBlock 5 2 true ([s.straps.boot.setWidth 8, s.straps.pwrClass.setWidth 8] ++ leBytes 2 s.straps.pos.toNat ++
     [s.straps.feed.setWidth 8, b s.straps.map, BitVec.ofNat 8 (s.straps.ssc.toNat + 2 * s.straps.linkw.toNat + 4 * s.straps.dbg.toNat), 0]),
   measBlock 6 5 true ([BitVec.ofNat 8 t.openScope, BitVec.ofNat 8 t.openRoute, BitVec.ofNat 8 (min 255 t.unlocks), 0])]

/-- R390, R396: the identity key's signature over a message. -/
def slhSign (msg : List Byte) : List Byte := (List.range 7856).map (Config.slhSignByte msg)

/-- R398: the attestation over a nonce. -/
def State.attestation (s : State) (nonce : BitVec 256) : List Byte :=
  let m := leBytes 4 0x41545354 ++ [1, 6, 0, 0] ++ leBytes 32 nonce.toNat ++ s.trust.devId ++ leBytes 8 s.commitSeq.toNat ++ s.measurements.flatten
  m ++ slhSign m

/-- R398. nonce: the 32 bytes at the buffer address. -/
def execAttest (j : Nat) (nonce : BitVec 256) (s : State) : Host.Outcome State Fault Refusal :=
  .next (s.work j (fun x => isCmd 0x60 x && s.hostReach) (fun x s =>
    let r := s.attestation nonce
    if x.addr % 64 ≠ 0 then s.finish j 0xB013 0
    else if !s.trust.idKey then s.finish j 0xC030 0
    else if x.num 32 4 < r.length then s.finish j 0xB013 0
    else (s.cohPut true x.addr r false).finish j 0 r.length))

/-! ## DEBUG_UNLOCK (R402 to R407) -/

def isPhase (n : Nat) (s : State) (x : JSlot) : Bool := isForm 0x61 n x && s.hostReach

/-- R402: RESULT of DEBUG_UNLOCK: the scope now open, the failure detail, the bytes written. -/
def State.debugEnd (s : State) (j : Nat) (code : BitVec 16) (detail wrote : Nat) : State :=
  s.finish j code (s.trust.openScope + detail * 2 ^ 8 + wrote * 2 ^ 32)

/-- R402, R399: a successful unlock; the full scope withdraws the identity key. -/
def State.unlocked (s : State) (scope route : Nat) : State :=
  let up := decide (s.trust.scope.toNat < scope)
  let s := s.updTrust (fun t =>
    { t with scope := if up then BitVec.ofNat 2 scope else t.scope, route := if up then BitVec.ofNat 2 route else t.route,
             unlocks := t.unlocks + 1, streak := 0, holdoff := false })
  let s := (s.pkgCount 0x900030 31 16 1).pkgReport 0xC020 true 0 (BitVec.ofNat 128 (s.trust.scope.toNat + route * 2 ^ 8))
  if s.trust.scope = 3 && s.trust.idKey then (s.updTrust (fun t => { t with idKey := false })).pkgReport 0xC030 true 0 else s

/-- R28: F-cycles in a second. -/
def secondCycles : Nat := 2000000000

/-- The time of a clock's reading in F-cycles since another (R28). -/
def State.since (s : State) (t : W64) : Nat := (s.die 0).ts.toNat - t.toNat

/-- R406: the delay after the last failure: 1 s after the first, doubled by each further one, 64 s at most. -/
def Trust.delay (t : Trust) : Nat := secondCycles * 2 ^ min 6 (t.streak - 1)

/-- R406: a failed phase 1 or 2. -/
def State.unlockFailed (s : State) (detail : Nat) : State :=
  ((s.updTrust (fun t => { t with fails := t.fails + 1, streak := t.streak + 1, holdoff := true, failAt := (s.die 0).ts })).pkgCount 0x900030 15 0 1).pkgReport
    0xC021 true 0 (BitVec.ofNat 128 detail)

/-- R403: the challenge. -/
def State.challenge (s : State) (nonce : BitVec 256) : List Byte :=
  leBytes 4 0x44474243 ++ [1, BitVec.ofNat 8 s.trust.openScope, BitVec.ofNat 8 (min 255 s.trust.fails), 0] ++ leBytes 32 nonce.toNat ++ s.trust.devId ++
    leBytes 2 0x8640 ++ [0xB1, 0] ++ leBytes 4 600

/-- R402 phase 0. -/
def execDebugChallenge (j : Nat) (nonce : BitVec 256) (s : State) : Host.Outcome State Fault Refusal :=
  .next (s.work j (isPhase 0 s) (fun x s =>
    if x.addr % 64 ≠ 0 then s.debugEnd j 0xB013 0 0
    else if s.trust.holdoff then s.debugEnd j 0xC023 0 0
    else ((s.updTrust (fun t => { t with nonce := some nonce, nonceAt := (s.die 0).ts })).cohPut true x.addr (s.challenge nonce) false).debugEnd j 0 0 80))

/-- R404: the detail of the first failing check of a token; age: F-cycles since the nonce was issued. -/
def Trust.tokenDetail (t : Trust) (k : List Byte) (age : Nat) : Option Nat :=
  let key := (k.drop 72).take 32
  let idx := numAt k 6 1
  if k.length ≠ 7984 ∨ numAt k 0 4 ≠ 0x4447544B ∨ numAt k 4 1 ≠ 1 ∨ !zeroBytes k 7 1 ∨ !zeroBytes k 104 24 ∨ numAt k 5 1 = 0 ∨ 3 < numAt k 5 1 then some 1
  else if t.nonce ≠ some (BitVec.ofNat 256 (numAt k 8 32)) ∨ 600 * secondCycles < age then some 2
  else if (k.drop 40).take 32 ≠ t.devId then some 3
  else if 2 ≤ idx ∨ t.fuses.dbgRev.getLsbD idx ∨ !hashIs (t.fuses.dbgKeyH.get (Fin.ofNat 2 idx)) key then some 4
  else if !t.verifies key (k.take 128) (k.drop 128) then some 5
  else none

/-- R402 phase 1: it consumes the outstanding nonce whether it passes or fails. The nonce's age is measured, and the operand for it is not
used (log 113). -/
def execDebugTokenUnlock (j : Nat) (token : List Byte) (_age : Nat) (s : State) : Host.Outcome State Fault Refusal :=
  .next (s.work j (isPhase 1 s) (fun x s =>
    if x.addr % 64 ≠ 0 then s.debugEnd j 0xB013 0 0
    else if s.trust.holdoff then s.debugEnd j 0xC023 0 0
    else
      let d := s.trust.tokenDetail token (s.since s.trust.nonceAt)
      let s := s.updTrust (fun t => { t with nonce := none })
      match d with
      | none => (s.unlocked (numAt token 5 1) 1).debugEnd j 0 0 0
      | some d => (s.unlockFailed d).debugEnd j 0xB030 d 0))

/-- R405: the detail of a password block. -/
def Trust.passwordDetail (t : Trust) (b : List Byte) : Option Nat :=
  if !zeroBytes b 33 31 ∨ numAt b 32 1 = 0 ∨ 3 < numAt b 32 1 then some 1
  else if !t.fuses.pwEn then some 6
  else if t.fuses.pwScope.toNat < numAt b 32 1 then some 7
  else if !hashIs t.fuses.pwHash (b.take 32) then some 8
  else none

/-- R402 phase 2. -/
def execDebugPasswordUnlock (j : Nat) (block : List Byte) (s : State) : Host.Outcome State Fault Refusal :=
  .next (s.work j (isPhase 2 s) (fun x s =>
    if x.addr % 64 ≠ 0 then s.debugEnd j 0xB013 0 0
    else if s.trust.holdoff then s.debugEnd j 0xC023 0 0
    else match s.trust.passwordDetail block with
      | none => (s.unlocked (numAt block 32 1) 2).debugEnd j 0 0 0
      | some d => (s.unlockFailed d).debugEnd j 0xB030 d 0))

/-- R402 phase 3. -/
def execDebugClose (j : Nat) (s : State) : Host.Outcome State Fault Refusal :=
  .next (s.work j (isForm 0x61 3) (fun _ s =>
    ((s.updTrust (fun t => { t with scope := 0, route := 0 })).pkgReport 0xC022 true 0).debugEnd j 0 0 0))

/-- R406: the delay has passed. -/
def execUnlockHoldoffEnd (s : State) : Host.Outcome State Fault Refusal :=
  .next (if s.trust.delay ≤ s.since s.trust.failAt then s.updTrust (fun t => { t with holdoff := false }) else s)

/-! ## The DOE mailbox: SPDM, CDAT and discovery (R356, R396) -/

/-- An object whose format another standard gives. -/
def protocolObject (code param : Nat) : List Byte := (List.range (Config.protocolLen code param)).map (Config.protocolByte code param)

def State.answers (s : State) (l : List Byte) : State := { s with answer := l }

/-- PRESUMED (log 11): an SPDM ERROR: 0x01 InvalidRequest, 0x05 Unspecified, 0x0F LargeResponse, 0x42 ResponseNotReady. -/
def spdmError (code : Byte) : List Byte := [0x13, 0x7F, code, 0]

/-- The package answers SPDM once Cretas runs; before that no answer comes. -/
def State.spdm (s : State) (l : List Byte) : State := s.answers (if s.fwUp then l else [])

/-- R396: versions 1.2 and 1.3. -/
def execSpdmGetVersion (s : State) : Host.Outcome State Fault Refusal := .next (s.spdm [0x10, 0x04, 0, 0, 0, 2, 0x00, 0x12, 0x00, 0x13])

/-- R396: CERT_CAP, CHAL_CAP, MEAS_CAP with signatures and CHUNK_CAP, with the message sizes. -/
def execSpdmGetCapabilities (s : State) : Host.Outcome State Fault Refusal :=
  .next (s.spdm ([0x13, 0x61, 0, 0, 0, Config.protocolByte 0x61 0 5, 0, 0] ++ leBytes 4 0x20016 ++ leBytes 4 4096 ++ leBytes 4 16384))

def execSpdmNegotiateAlgorithms (s : State) : Host.Outcome State Fault Refusal := .next (s.spdm (protocolObject 0x63 0))
def execSpdmGetDigests (s : State) : Host.Outcome State Fault Refusal := .next (s.spdm (protocolObject 0x01 (beNat s.trust.devId)))

/-- R396: the chain of slot 0, whose device certificate carries the identity public key and DEVID. -/
def execSpdmGetCertificate (s : State) : Host.Outcome State Fault Refusal := .next (s.spdm (protocolObject 0x02 (beNat s.trust.pubKey)))

/-- R396, R399: a signing request: the device makes one signature at a time, and none once the identity key is withdrawn. -/
def State.spdmSign (s : State) (m : List Byte) : State :=
  if !s.fwUp then s.answers []
  else if !s.trust.idKey then s.answers (spdmError 0x05)
  else if s.trust.signing.isSome then s.answers (spdmError 0x42)
  else (s.updTrust (fun t => { t with signing := some (m ++ slhSign m) })).answers []

def execSpdmChallenge (nonce : BitVec 256) (s : State) : Host.Outcome State Fault Refusal := .next (s.spdmSign (protocolObject 0x03 nonce.toNat))

/-- R397: the signed measurement blocks. -/
def execSpdmGetMeasurements (nonce : BitVec 256) (s : State) : Host.Outcome State Fault Refusal :=
  .next (s.spdmSign (protocolObject 0x60 0 ++ s.measurements.flatten ++ leBytes 32 nonce.toNat))

/-- R396: the signature is made; the response is too large for one transfer and travels in chunks. -/
def execSpdmSignatureDone (s : State) : Host.Outcome State Fault Refusal :=
  .next (match s.trust.signing with
    | some r => (s.updTrust (fun t => { t with signing := none, reply := r })).answers (spdmError 0x0F)
    | none => s)

/-- R396: the next chunk, of at most DataTransferSize bytes. -/
def execSpdmChunkGet (s : State) : Host.Outcome State Fault Refusal :=
  .next (if s.trust.reply.isEmpty then s.spdm (spdmError 0x01)
  else (s.updTrust (fun t => { t with reply := t.reply.drop 4096 })).answers (s.trust.reply.take 4096))

def execDoeDiscovery (index : Nat) (s : State) : Host.Outcome State Fault Refusal := .next (s.answers (protocolObject 0 index))

/-- PRESUMED (log 11): a DSLBIS entry of the CDAT: the data type, the base unit and the value. -/
def dslbis (type base v : Nat) : List Byte :=
  [1, 0, 24, 0, 0, 0, BitVec.ofNat 8 type, 0] ++ leBytes 8 base ++ leBytes 2 v ++ List.replicate 6 0

/-- R356: one DSMAS entry for 640 GB, then read latency 600 ns, write latency 400 ns, read and write bandwidth 240 GB/s. -/
def execCdatRead (entry : Nat) (s : State) : Host.Outcome State Fault Refusal :=
  .next (s.answers (([[0, 0, 24, 0, 0, 0, 0, 0] ++ leBytes 8 0 ++ leBytes 8 (2 * Config.dieBytes), dslbis 1 1000 600, dslbis 2 1000 400, dslbis 4 1000 240,
    dslbis 5 1000 240] : List (List Byte)).getD entry []))

/-- R356: an abort discards the request in progress. -/
def execDoeAbort (s : State) : Host.Outcome State Fault Refusal := .next ((s.updTrust (fun t => { t with signing := none, reply := [] })).answers [])

/-! ## The test port (R400) -/

def execTapIdcode (s : State) : Host.Outcome State Fault Refusal := .next (s.answers (leBytes 4 0x186407AB))
def execTapBypass (tdi : Bool) (s : State) : Host.Outcome State Fault Refusal := .next (s.answers [BitVec.ofNat 8 tdi.toNat])

/-- The scan captures the pins and holds them preloaded. -/
def execTapSamplePreload (pins : List Bool) (s : State) : Host.Outcome State Fault Refusal :=
  .next ((s.updTrust (fun t => { t with pins := pins })).answers (pins.map (fun b => BitVec.ofNat 8 b.toNat)))

/-- R400: EXTEST drives the balls while PERST_N is low; otherwise it acts as BYPASS and is counted. -/
def execTapExtest (pins : List Bool) (s : State) : Host.Outcome State Fault Refusal :=
  .next (if s.pwr.perst then (s.pkgCount 0x900030 47 32 1).answers [] else s.updTrust (fun t => { t with pins := pins }))

def execTapUnlockstat (s : State) : Host.Outcome State Fault Refusal := .next (s.answers (leBytes 8 s.trust.stat))

end Sys2Proof.Machine
end

