-- ==== Sys2Proof/Machine/HostLink.lean ====
section
/-! DEFINITION. The CXL port (chapter 15): host reads and writes of device memory, back-invalidation, the link and its recovery. -/

namespace Sys2Proof.Machine

/-! ## CXL.mem (R20, R357, R358) -/

/-- R20: the physical address of a host offset. -/
def hostOffPa (x : Nat) : Nat := if x < Config.dieBytes then x else 2 ^ 39 + (x - Config.dieBytes)

def Cxl.hdmBase (k : Cxl) : Nat := k.hdmReg 0x10 / 2 ^ 28 * 2 ^ 28 + k.hdmReg 0x14 * 2 ^ 32

/-- R357: the committed decoder covers a host offset, and Memory_Active is set. -/
def State.hdmHit (s : State) (x : Nat) : Bool :=
  s.cxl.committed && decide (x < s.cxl.hdmSize) && decide (x < 2 * Config.dieBytes) && s.memReady

/-- CXL.mem requests arrive while the port operates CXL (R350). -/
def Cxl.memUp (k : Cxl) : Bool := k.up && k.st != 4

/-- R357: what the port itself completes posts 0xA010 with the host address. -/
def State.hdmMiss (s : State) (x : Nat) : State := s.pkgReport 0xA010 false (BitVec.ofNat 64 (s.cxl.hdmBase + x))

/-! ## The host filter (R359) -/

/-- The lines that a host filter holds. -/
def filterEntries : Nat := 131072

/-- R359: a host read that asks for a copy makes its entry. -/
def Region.filtSet (r : Region) (key : Nat) (owned : Bool) : Region :=
  if r.filter.any (fun e => e.key == key) then { r with filter := r.filter.map (fun e => if e.key == key then { e with owned := owned } else e) }
  else { r with filter := r.filter ++ [{ key := key, owned := owned }] }

def Region.filtDrop (r : Region) (key : Nat) : Region := { r with filter := r.filter.filter (fun e => e.key != key) }

/-- R359: a host read needs an entry that its full filter does not have: the oldest goes first. -/
def State.filtFull (s : State) (key : Nat) (want : HostWant) : Option FiltE :=
  if want == .current || (s.filtEntry key).isSome then none
  else
    let f := (s.region (s.homeOf key)).filter
    if filterEntries ≤ f.length then f.head? else none

/-- R358 to R360: a host read at its home. The answer: the 64 bytes, and 1 where any is poisoned. -/
def State.hostRead (s : State) (key : Nat) (want : HostWant) : State :=
  let wait (s : State) : State := { s with homeWait := s.homeWait ++ [.hostRead key want] }
  if s.biSnps.any (fun b => b.key == key) then wait s
  else match s.filtFull key want with
    | some o =>
      let h := s.homeOf key
      wait (if s.biSnps.any (fun b => b.key == o.key) then s else (s.updRegion h (fun r => r.count 0x30008 63 0 1)).sendBi o.key true)
    | none =>
      let (d, s) := s.cohReadCur 0 key
      let s := match want with
        | .current => s
        | .shared => s.updRegion (s.homeOf key) (fun r => r.filtSet key false)
        | .owned => s.updRegion (s.homeOf key) (fun r => r.filtSet key true)
      { s with answer := d.bytes 0 64 ++ [BitVec.ofNat 8 (d.bad 0 64).toNat] }

/-- R358: a poisoned host write poisons each 32-byte block it touches, in a copy that the region cache keeps too. -/
def State.poisonCopy (s : State) (key : Nat) (mask : BitVec 64) : State :=
  let b (n : Nat) : Bool := (List.range 32).any (fun i => mask.getLsbD (32 * n + i))
  let p : BitVec 4 := BitVec.ofNat 4 (3 * (b 0).toNat + 12 * (b 1).toNat)
  s.updRegion (s.homeOf key) (fun r => { r with rc := r.rc.map (fun l => if l.key == key then { l with d := { l.d with poison := l.d.poison ||| p } } else l) })

/-- R358 to R360: a host write at its home; a writeback passes a BISnpInv. -/
def State.hostWrite (s : State) (key : Nat) (mask : BitVec 64) (data : BitVec 512) (poison giveUp : Bool) : State :=
  if s.biSnps.any (fun b => b.key == key && !(giveUp && b.inv)) then { s with homeWait := s.homeWait ++ [.hostWrite key mask data poison giveUp] }
  else
    let s := s.cohWrite key mask data poison
    let s := if poison then s.poisonCopy key mask else s
    if giveUp then s.updRegion (s.homeOf key) (fun r => r.filtDrop key) else s

def execCxlMemRead (hoff : W64) (want : HostWant) (s : State) : Host.Outcome State Fault Refusal :=
  if !s.cxl.memUp then .next s
  else if s.hdmHit hoff.toNat then .next (s.hostRead (hostOffPa hoff.toNat / 64) want)
  else
    let (fr, s) := (s.hdmMiss hoff.toNat).freeBytes 64
    .next { s with answer := fr ++ [1] }

def execCxlMemWrite (hoff : W64) (mask : BitVec 64) (data : BitVec 512) (poison giveUp : Bool) (s : State) : Host.Outcome State Fault Refusal :=
  if !s.cxl.memUp then .next s
  else if s.hdmHit hoff.toNat then .next (s.hostWrite (hostOffPa hoff.toNat / 64) mask data poison giveUp)
  else .next (s.hdmMiss hoff.toNat)

/-! ## Back-invalidation answered (R359, R360) -/

/-- A request that has waited at its home passes it again, before any that comes later. -/
def State.homeRetry (s : State) (r : HomeReq) : State :=
  match r with
  | .read cl key scalar bad => s.cacheRead cl key scalar bad
  | .readCur cl key => s.cacheReadCur cl key
  | .hostRead key want => s.hostRead key want
  | .hostWrite key mask data poison giveUp => s.hostWrite key mask data poison giveUp
  | .msg opc m win => s.takeSeq opc m win

def State.homeRefill (s : State) : State := (s.homeWait.foldl State.homeRetry { s with homeWait := [] }).postAll

/-- R273, R274: a retraining ends, and the requests that waited for it at their homes go on. -/
def execRetrainEnd (r : RegionId) (ok : Bool) (s : State) : Host.Outcome State Fault Refusal :=
  let s := s.retrainEnd r ok
  .next (if s.homeWait.isEmpty then s else s.homeRefill)

/-- R359: the next BISnp that waits takes the freed tag. -/
def State.nextBi (s : State) : State :=
  match s.biSnps.find? (fun b => !b.sent) with
  | some b => ({ s with biSnps := s.biSnps.map (fun x => if x.key == b.key then { x with sent := true } else x) } : State).cxlCount 8 1
  | none => s

/-- R359: a BIRsp. dirty: what the host has written back with it. -/
def execBirspArrival (line : BitVec 58) (dirty : Option (BitVec 512)) (s : State) : Host.Outcome State Fault Refusal :=
  match s.biSnps.find? (fun b => b.key == line.toNat && b.sent) with
  | none => .next s
  | some b =>
    let s := match dirty with | some d => s.cohWrite b.key (BitVec.allOnes 64) d false | none => s
    let s := s.updRegion (s.homeOf b.key) (fun r => if b.inv then r.filtDrop b.key else if r.filter.any (fun e => e.key == b.key) then r.filtSet b.key false else r)
    .next (({ s with biSnps := s.biSnps.filter (fun x => x.key != b.key) } : State).nextBi.homeRefill)

/-- R360: the answer is BIConflictAck (log 22). -/
def execBiconflict (line : BitVec 58) (s : State) : Host.Outcome State Fault Refusal :=
  .next (if s.biSnps.any (fun b => b.key == line.toNat && b.sent) then { s.cxlCount 0x10 1 with answer := rspCode 5 } else s)

/-! ## The link (R350, R363) -/

/-- R350: training ends at a rate and width, or as a PCIe link alone with its cause. -/
def execCxlLinkUp (rate : BitVec 3) (width : BitVec 5) (fail : BitVec 2) (s : State) : Host.Outcome State Fault Refusal :=
  if s.pwr.rst || s.cxl.st != 0 then .next s
  else if fail ≠ 0 then
    .next (({ s with cxl := { s.cxl with st := 4, up := true } } : State).setDv 0xC (BitVec.ofNat 64 (setBits (s.dvReg 0xC).toNat 3 0 fail.toNat)) |>.setBarFld 8 17 16 3)
  else if [1, 2, 3].contains rate.toNat && [4, 8, 16].contains width.toNat then
    .next { s with cxl := { s.cxl with st := 2, up := true, rate := rate.toNat, width := width.toNat, cacheEn := true } }
  else .next s

/-- The keys of the host lines that the package holds dirty. -/
def State.dirtyHost (s : State) : List Nat :=
  ((List.finRange 16).flatMap (fun c =>
    let k := s.cluster c
    let bad (st : LSt) : Bool := st == .m || st == .o
    (k.l2.filter (fun l => isHost l.key && bad l.st)).map L2Line.key ++ (k.evWait.filter (fun l => isHost l.key && bad l.st)).map L2Line.key ++
      (k.hamper.filter (fun e => isHost e.key && !e.stale && (match e.st with | some st => bad st | none => false))).map HamE.key)).eraseDups

/-- R363, R364: every host line goes, with no writeback. -/
def State.dropHost (s : State) : State :=
  let dev (key : Nat) : Bool := !isHost key
  let s := s.mapClusters (fun _ k => { k with l2 := k.l2.filter (fun l => dev l.key), evWait := k.evWait.filter (fun l => dev l.key),
                                              hamper := k.hamper.filter (fun e => dev e.key) })
  let s := s.mapCores (fun _ k => { k with l1d := k.l1d.filter (fun l => dev l.key), l1i := k.l1i.filter (fun l => dev l.key),
                                           basket := k.basket.filter (fun l => dev l.key) })
  { s with tracker := [] }

/-- R363: one host write whose fate is not known, or that outlasted HOLDMS. -/
def State.writeLost (s : State) (a : Nat) : State := (s.cxlCount 0x18 1).pkgReport 0xA031 false (BitVec.ofNat 64 a)

/-- The host address that a transfer request writes, once its data are there. -/
def TxReq.hostDst (q : TxReq) : Option Nat :=
  match q.data, q.units.head? with
  | some _, some (_, d) => if d.sp == .host then some d.a else none
  | _, _ => none

/-- R363 step 3: the writes outstanding when a recovery begins are reported and not issued again. -/
def State.loseWrites (s : State) : State :=
  (List.finRange 64).foldl (fun s c => ((s.core c).txReqs.filter (fun q => q.hostDst.isSome)).foldl (fun s q =>
    (s.writeLost (q.hostDst.getD 0)).txDone c q) s) s

/-- Causes that take the link out of L0. -/
def linkLost (cause : RecoveryCause) : Bool := !(cause == .busMasterClear || cause == .d3hot)

/-- R363: a host link recovery begins. -/
def State.recover (s : State) (cause : RecoveryCause) : State :=
  let s := { s with cxl := { s.cxl with st := 3, up := !linkLost cause, bme := s.cxl.bme && cause == RecoveryCause.d3hot, mse := s.cxl.mse && !linkLost cause } }
  let s := s.setDv 0x18 (BitVec.ofNat 64 (setBits (s.dvReg 0x18).toNat 15 0 (satAdd 16 (bitsOf (s.dvReg 0x18).toNat 15 0) 1)))
  let n := s.dirtyHost.length
  let s := s.dropHost
  let s := s.setDv 0x18 (BitVec.ofNat 64 (setBits (s.dvReg 0x18).toNat 31 16 (satAdd 16 (bitsOf (s.dvReg 0x18).toNat 31 16) n)))
  let s := s.pkgReport 0xA030 false 0 (BitVec.ofNat 128 n)
  let s := { s with biSnps := [], regions := s.regions.map (fun (r : Region) => { r with filter := [] }),
                    homeWait := s.homeWait.filter (fun r => match r with | .hostRead _ _ => !linkLost cause | _ => true) }
  s.homeRefill.loseWrites

/-- A link that is lost during a recovery stays in it; a link that was never in L0 has none. -/
def execHostLinkRecovery (cause : RecoveryCause) (s : State) : Host.Outcome State Fault Refusal :=
  if s.cxl.st = 2 then .next (if cause == .busMasterClear && !s.cxl.bme then s else s.noteHeld.recover cause)
  else if s.cxl.st = 3 && linkLost cause then .next { s with cxl := { s.cxl with up := false, bme := false, mse := false } }
  else .next s

/-- R363 step 5: the link is back in L0; the component registers hold their reset values, the DVSEC is kept. -/
def execHostLinkL0 (s : State) : Host.Outcome State Fault Refusal :=
  .next (if s.cxl.st = 3 && !s.cxl.up then { s with cxl := { s.cxl with up := true, bme := false, mse := false, hdm := [] } } else s)

/-- R363 step 6: Bus Master Enable and Memory Space Enable are both 1. -/
def execHostEnable (s : State) : Host.Outcome State Fault Refusal :=
  if !s.cxl.up then .next s
  else
    let s := s.noteHeld
    let back : Bool := s.cxl.st = 3
    let s := { s with cxl := ({ s.cxl with bme := true, mse := true, st := if back then 2 else s.cxl.st } : Cxl).fire }
    let s := if back then s.pkgReport 0xB053 true 0 else s
    .next s.homeRefill

/-! ## Requests that outlast HOLDMS (R363) -/

/-- A request that waits at the port for the host link. A Read or ReadCur of a line alone has no consumer but a cache. -/
inductive HostWait where
  | load (c : CoreId) (i : Nat)
  | tx (c : CoreId) (q : TxReq)
  | req (cl : ClusterId) (i : Nat)
  | store (c : CoreId)
  | home (i : Nat)
deriving DecidableEq, Repr

def anyHost (bs : List SAddr) : Bool := bs.any (fun a => a.sp == .host)

/-- Late loads, transfer requests, ReadOwns and Upgrades, store-buffer heads and Reads that wait, in that order (DESIGN CHOICE,
log 63). -/
def State.hostWaits (s : State) : List HostWait :=
  (List.finRange 64).flatMap (fun c => ((s.core c).lateLoads.zipIdx.filter (fun p => anyHost p.1.bytes && (s.loadGate c p.1.bytes).isSome)).map (fun p => .load c p.2)) ++
  (List.finRange 64).flatMap (fun c => ((s.core c).txReqs.filter (fun q => !q.msg && (q.hostDst.isSome ||
    (q.data.isNone && anyHost (q.units.map Prod.fst) && (s.gate (some (coreCluster c)) (memKeys (q.units.map Prod.fst)) false).isSome)))).map (fun q => .tx c q)) ++
  (List.finRange 16).flatMap (fun cl => ((s.cluster cl).reqs.zipIdx.filter (fun p => isHost p.1.key)).map (fun p => .req cl p.2)) ++
  (List.finRange 64).filterMap (fun c => match (s.core c).storeBuf.head? with
    | some e => if anyHost (e.bytes.map Prod.fst) &&
        (s.gate (if e.nc then none else some (coreCluster c)) (memKeys (e.bytes.map Prod.fst)) true).isSome then some (.store c) else none
    | none => none) ++
  (s.homeWait.zipIdx.filter (fun p => match p.1 with | .read _ key _ _ => isHost key | .readCur _ key => isHost key | _ => false)).map (fun p => .home p.2)

/-- A read that completes without the host brings a poisoned line, of no stated value. -/
def State.poisonFill (s : State) (cl : ClusterId) (key : Nat) (scalar : Bool) : State :=
  let (fr, s) := s.freeBytes 64
  let d : LData := { data := BitVec.ofNat 512 (leNat fr), poison := 15 }
  if scalar || (s.cluster cl).fld 0 3 0 != 0 then (s.track key).l2Install cl { key := key, st := .e, scalar := scalar, d := d, hold := false } else s

/-- R363: a request that has waited longer than HOLDMS completes without the host. -/
def State.holdOut (s : State) (w : HostWait) : State :=
  match w with
  | .load c i =>
    (match (s.core c).lateLoads[i]? with
    | none => s
    | some l =>
      let (fr, s) := s.freeBytes l.size
      s.updCore c (fun k => ({ k with lateLoads := k.lateLoads.eraseIdx i } : Core).landLoad l fr false true))
  | .tx c q =>
    (match q.hostDst with
    | some a => (s.writeLost a).txDone c q
    | none =>
      let (fr, s) := s.freeBytes (q.units.length * q.unit)
      let q : TxReq := { q with data := some (fr.map (fun b => (b, true))) }
      s.updCore c (fun k => { k with txReqs := k.txReqs.map (fun r => if r.tag = q.tag then q else r) }))
  | .req cl i =>
    (match (s.cluster cl).reqs[i]? with
    | none => s
    | some r => (s.updCluster cl (fun k => { k with reqs := k.reqs.eraseIdx i })).poisonFill cl r.key (r.scalar || r.kind.owns))
  | .store c =>
    (match (s.core c).storeBuf with
    | [] => s
    | e :: r => (s.updCore c (fun k => { k with storeBuf := r })).writeLost (((e.bytes.head?).map (fun x => x.1.a)).getD 0))
  | .home i =>
    (match s.homeWait[i]? with
    | some (.read cl key scalar _) => ({ s with homeWait := s.homeWait.eraseIdx i } : State).poisonFill cl key scalar
    | some (.readCur _ _) => { s with homeWait := s.homeWait.eraseIdx i }
    | _ => s)

/-- The i-th request that waits for the host link. -/
def execHoldmsExpiry (i : Nat) (s : State) : Host.Outcome State Fault Refusal :=
  if s.hostUp then .next s
  else match s.hostWaits[i]? with
    | some w => .next (s.holdOut w)
    | none => .next s

end Sys2Proof.Machine
end

