-- ==== Sys2Proof/Machine/Power.lean ====
section
/-! DEFINITION. Package reset, power, thermal control, clocks, pins and the SMBus sideband (chapter 18). -/

namespace Sys2Proof.Machine

/-! ## Package reset (R15, R28, R418 to R420) -/

/-- R339, R340, R364: a command that a package reset finds in the journal runs again when Cretas is back; a launch with NORERUN has
ended. -/
def afterReset (x : JSlot) : JSlot :=
  if !x.started || x.record.isSome || x.done.isSome then x
  else
    let again := { x with started := false, reruns := x.reruns + 1, launch := none, stream := none, gen := 0 }
    match x.launch with
    | some r => if r.norerun then { x with done := some (0xB020, 0), launch := none } else again
    | none => again

/-- The part of a die's registers that package reset keeps: SEAM.INCARN, and in the always-on domain the pairing and RS.STEP (R301,
R379, R387). -/
def keptRegs (s : State) (d : DieId) : Die :=
  if d ≠ 0 then {}
  else
    let k : Die := (({} : Die).setReg 0x740010 (BitVec.ofNat 64 (s.incarn + 1).toNat)).setReg 0x800108 ((s.die 0).reg 0x800108)
    (k.setFld 0x800100 25 16 (s.pkgFld 0x800100 25 16)).setFld 0x800100 5 3 (s.pkgFld 0x800100 5 3)

/-- The package enters reset: everything but the always-on domain, the fuses, the image store, the straps and host memory returns to
its reset value; device memory is out of reach until the fill of R264. -/
def State.packageReset (s : State) : State :=
  if s.pwr.rst then s
  else
    { pending := s.pending, hostMem := s.hostMem, straps := s.straps, freeCtr := s.freeCtr, commitSeq := s.commitSeq, answer := s.answer,
      journal := s.journal.map (fun (p : Nat × JSlot) => (p.1, afterReset p.2)),
      regions := s.regions.map (fun (r : Region) => { kept := r.kept }),
      dies := .ofFn (fun d => keptRegs s d),
      rs := { pfeed := s.rs.pfeed, forced := s.rs.forced, cur := s.rs.cur, slotLen := s.rs.slotLen },
      trust := { fuses := s.trust.fuses, sigs := s.trust.sigs, store := s.trust.store, preferred := s.trust.preferred, pins := s.trust.pins },
      pwr := { stby := s.pwr.stby, good := s.pwr.good, perst := s.pwr.perst, rst := true, faults := s.pwr.faults, vstbyLost := s.pwr.vstbyLost,
               seen := s.pwr.seen, ran := s.pwr.ran, trip := s.pwr.trip, releases := s.pwr.releases } }

/-- R420: the always-on domain is cleared; SEAM.INCARN starts from a value of its own (R301). -/
def State.vstbyClear (s : State) : State :=
  let (fr, s) := s.free
  let s := { s with commitSeq := 0, journal := [], rs := {}, regions := s.regions.map (fun (r : Region) => { r with kept := {} }),
                    pwr := { s.pwr with stby := false, faults := [], vstbyLost := true, seen := false, ran := false, trip := false, alert := false } }
  s.updDie 0 (fun d => ((d.setReg 0x740010 (BitVec.ofNat 64 (fr % 256))).setReg 0x800108 0).setReg 0x800100 0)

def State.updPwr (s : State) (f : Power → Power) : State := { s with pwr := f s.pwr }

/-- R414, R423: the straps are sampled and a latched trip ends. -/
def execPwrGoodRise (straps : Straps) (s : State) : Host.Outcome State Fault Refusal :=
  if s.pwr.good || !s.pwr.stby then .next s
  else .next (({ s with straps := straps } : State).updPwr (fun p => { p with good := true, seen := true, trip := false }))

/-- R418 step 6: reset ends, both timestamp counters start at 0, and MEM.MAP takes STRAP_MAP (R285). -/
def execPackageResetRelease (s : State) : Host.Outcome State Fault Refusal :=
  if !s.pwr.rst || !s.pwr.good || !s.pwr.stby then .next s
  else
    let s := s.updPwr (fun p => { p with perst := true, rst := false, pll := false, ran := true, releases := p.releases + 1 })
    let s := { s with dies := s.dies.map (fun (d : Die) => { d with ts := 0 }) }
    .next (s.setPkgFld 0x600000 0 0 s.straps.map.toNat)

/-- R418 step 7. -/
def execPllLock (s : State) : Host.Outcome State Fault Refusal := .next (if s.pwr.rst then s else s.updPwr (fun p => { p with pll := true }))

/-- R418, R420: a pin low for longer than 50 ns. -/
def execPackageResetEntry (pin : ResetPin) (s : State) : Host.Outcome State Fault Refusal :=
  match pin with
  | .pwrGood => .next (s.packageReset.updPwr (fun p => { p with good := false }))
  | .perst => .next (s.packageReset.updPwr (fun p => { p with perst := false }))
  | .stbyGood => .next s.packageReset.vstbyClear

/-- R420: VSTBY below 1.62 V (log 64: the package is then in reset too). -/
def execVstbyLoss (s : State) : Host.Outcome State Fault Refusal := .next s.packageReset.vstbyClear

/-- R418 step 2. -/
def execStbyGoodRise (s : State) : Host.Outcome State Fault Refusal := .next (s.updPwr (fun p => { p with stby := true }))

def railNum : Rail → Nat
  | .vcore0 => 0
  | .vcore1 => 1
  | .vmem => 2
  | .vio => 3
  | .vaux => 4

/-- The always-on domain records a fault for the next HELLO. -/
def State.aonFault (s : State) (code : BitVec 16) (n : Nat) : State := s.updPwr (fun p => { p with faults := p.faults ++ [(code, n)] })

/-- R419: a main rail leaves its tolerance while PWR_GOOD is high. -/
def execRailUndervoltage (rail : Rail) (s : State) : Host.Outcome State Fault Refusal :=
  .next (if s.pwr.good then s.packageReset.aonFault 0xE010 (railNum rail) else s)

/-- R427: REFCLK is missing while the package runs. -/
def execRefclkLoss (s : State) : Host.Outcome State Fault Refusal := .next (if s.pwr.rst then s else s.packageReset.aonFault 0xE020 0)

/-- R427: the die's seam-link ports go into Retrain. -/
def execSlRefclkLoss (d : DieId) (s : State) : Host.Outcome State Fault Refusal :=
  .next ((List.range 3).foldl (fun s i => s.retrain (Fin.ofNat 6 (3 * d.val + i)) none) s)

/-! ## The divider (R421 to R424) -/

/-- R415: the figure of the power class, in W. -/
def State.classWatts (s : State) : Nat := if s.pwrClass = 0 then 900 else if s.pwrClass = 1 then 1150 else 1400

def State.pwrCount (s : State) (hi lo : Nat) : State := s.setPkgFld 0xA00010 hi lo (satAdd 16 (s.pkgFld 0xA00010 hi lo) 1)

/-- R422. mayStep: the waits of 10 ms and 100 ms that the rule sets have passed. -/
def execPowerSample (avg : BitVec 11) (mayStep : Bool) (s : State) : Host.Outcome State Fault Refusal :=
  if s.pwr.rst then .next s
  else
    let s := s.updPwr (fun p => { p with avg := avg.toNat })
    let d := max s.pwr.dPower s.divFloor
    if mayStep && decide (s.classWatts < avg.toNat) && decide (d < 4) then
      .next (((s.updPwr (fun p => { p with dPower := d + 1 })).pwrCount 15 0).pkgReport 0xE030 true 0)
    else if mayStep && decide (100 * avg.toNat < 95 * s.classWatts) && decide (s.divFloor < d) && d = s.divNow then
      .next ((s.updPwr (fun p => { p with dPower := d - 1 })).pwrCount 15 0)
    else .next s

/-- R423: at 100 °C or above. t: in 1/8 °C. -/
def execTempHot (t : BitVec 16) (s : State) : Host.Outcome State Fault Refusal :=
  .next (if s.pwr.rst || s.pwr.hot || decide (t.toInt < 800) then s
  else (s.updPwr (fun p => { p with hot := true, alert := true, temp := t })).pkgReport 0xE031 true 0)

/-- R423: each 1 ms at 100 °C or above, one step slower. -/
def execTempStep (t : BitVec 16) (s : State) : Host.Outcome State Fault Refusal :=
  if s.pwr.rst then .next s
  else
    let d := max s.pwr.dTemp s.divFloor
    let s := s.updPwr (fun p => { p with temp := t })
    .next (if s.pwr.hot && decide (800 ≤ t.toInt) && decide (d < 4) then (s.updPwr (fun p => { p with dTemp := d + 1 })).pwrCount 31 16 else s)

/-- R423: below 95 °C. -/
def execTempCool (t : BitVec 16) (s : State) : Host.Outcome State Fault Refusal :=
  .next (if s.pwr.rst || decide (760 ≤ t.toInt) then s else s.updPwr (fun p => { p with temp := t, hot := false, dTemp := 0 }))

/-- R423, R432: at 115 °C. -/
def execThermalTrip (t : BitVec 16) (s : State) : Host.Outcome State Fault Refusal :=
  .next (if s.pwr.rst || decide (t.toInt < 920) then s
  else (s.packageReset.aonFault 0xE040 0).updPwr (fun p => { p with trip := true, alert := true }))

/-- R424: THROT_N low for 1 µs. -/
def execThrotNAssert (s : State) : Host.Outcome State Fault Refusal :=
  .next (if s.pwr.rst || s.pwr.throt then s
  else ((s.updPwr (fun p => { p with throt := true })).pwrCount 47 32).pkgReport 0xE032 true 0)

/-- R424: THROT_N high for 1 µs. -/
def execThrotNDeassert (s : State) : Host.Outcome State Fault Refusal := .next (s.updPwr (fun p => { p with throt := false }))

/-- R367: one droop event. -/
def execVoltageDroopEvent (s : State) : Host.Outcome State Fault Refusal :=
  .next (if s.pwr.rst then s else s.updPwr (fun p => { p with droops := (p.droops.headD 0 + 1) :: p.droops.drop 1 }))

/-! ## SMBus (R431, R432) -/

/-- R431: the package's address. -/
def State.smbAddr (s : State) : BitVec 7 := if s.pwr.seen then 0x58 + (s.straps.pos.setWidth 3).setWidth 7 else 0x58

/-- R24, R431: ARITH in MHz, the nearest whole number (log 65). -/
def divMHz (d : Nat) : Nat := if d = 0 then 4000 else if d = 1 then 3556 else if d = 2 then 3200 else if d = 3 then 2667 else 2000

/-- R431: the words. -/
def State.smbWord (s : State) (cmd : BitVec 8) : Option Nat :=
  if cmd = 0x04 then
    some (s.pwr.stby.toNat + 2 * s.pwr.seen.toNat + 4 * (!s.pwr.rst).toNat + 8 * s.pwr.hot.toNat + 16 * s.pwr.trip.toNat + 32 * s.pwrClass)
  else if !([0x01, 0x02, 0x03, 0x05, 0x06].contains cmd.toNat) then none
  else if !s.pwr.ran then some 0x8000
  else if cmd = 0x01 then some s.pwr.temp.toNat
  else if cmd = 0x02 then some s.pwr.avg
  else if cmd = 0x03 then some (divMHz s.divNow)
  else if cmd = 0x05 then some s.risk
  else some (s.straps.pos.toNat + s.straps.feed.toNat * 2 ^ 10)

/-- A Read Word. Nothing is answered at another address, to another command (NACK), or without VSTBY. -/
def execSmbReadWord (addr : BitVec 7) (cmd : BitVec 8) (s : State) : Host.Outcome State Fault Refusal :=
  .next { s with answer := if s.pwr.stby && addr == s.smbAddr then (match s.smbWord cmd with | some w => leBytes 2 w | none => []) else [] }

/-- R432: the package's address, and SMB_ALERT_N is released. -/
def execSmbAlertResponse (s : State) : Host.Outcome State Fault Refusal :=
  .next (if s.pwr.stby && s.pwr.alert then ({ s with answer := [s.smbAddr.setWidth 8] } : State).updPwr (fun p => { p with alert := false })
  else { s with answer := [] })

end Sys2Proof.Machine
end

