-- ==== Sys2Proof/Machine/Dispatch.lean ====
section
/-! DEFINITION. One arm for each command: a direct call of its meaning. -/

namespace Sys2Proof.Machine

def exec (i : Instr) (s : State) : Host.Outcome State Fault Refusal :=
  match i with
  | .bundleIssue c stall ahead => Sys2Proof.Machine.execBundleIssue c stall ahead s
  | .nop c => Sys2Proof.Machine.execNop c s
  | .br c disp => Sys2Proof.Machine.execBr c disp s
  | .call c disp => Sys2Proof.Machine.execCall c disp s
  | .ret c => Sys2Proof.Machine.execRet c s
  | .jr c gA => Sys2Proof.Machine.execJr c gA s
  | .callr c gA => Sys2Proof.Machine.execCallr c gA s
  | .bc c gA cc disp => Sys2Proof.Machine.execBc c gA cc disp s
  | .lpSet c n gA disp => Sys2Proof.Machine.execLpSet c n gA disp s
  | .ctlRd c gD idx => Sys2Proof.Machine.execCtlRd c gD idx s
  | .ctlWr c gA idx => Sys2Proof.Machine.execCtlWr c gA idx s
  | .sys c imm => Sys2Proof.Machine.execSys c imm s
  | .eret c => Sys2Proof.Machine.execEret c s
  | .fence c => Sys2Proof.Machine.execFence c s
  | .idle c => Sys2Proof.Machine.execIdle c s
  | .add c gD gA gB => Sys2Proof.Machine.execAdd c gD gA gB s
  | .sub c gD gA gB => Sys2Proof.Machine.execSub c gD gA gB s
  | .and c gD gA gB => Sys2Proof.Machine.execAnd c gD gA gB s
  | .or c gD gA gB => Sys2Proof.Machine.execOr c gD gA gB s
  | .xor c gD gA gB => Sys2Proof.Machine.execXor c gD gA gB s
  | .shl c gD gA gB => Sys2Proof.Machine.execShl c gD gA gB s
  | .shr c gD gA gB => Sys2Proof.Machine.execShr c gD gA gB s
  | .sra c gD gA gB => Sys2Proof.Machine.execSra c gD gA gB s
  | .rotl c gD gA gB => Sys2Proof.Machine.execRotl c gD gA gB s
  | .min c gD gA gB => Sys2Proof.Machine.execMin c gD gA gB s
  | .max c gD gA gB => Sys2Proof.Machine.execMax c gD gA gB s
  | .minu c gD gA gB => Sys2Proof.Machine.execMinu c gD gA gB s
  | .maxu c gD gA gB => Sys2Proof.Machine.execMaxu c gD gA gB s
  | .cmp c gD gA gB cc => Sys2Proof.Machine.execCmp c gD gA gB cc s
  | .sel c gD gA gB => Sys2Proof.Machine.execSel c gD gA gB s
  | .addi c gD gA imm => Sys2Proof.Machine.execAddi c gD gA imm s
  | .andi c gD gA imm => Sys2Proof.Machine.execAndi c gD gA imm s
  | .ori c gD gA imm => Sys2Proof.Machine.execOri c gD gA imm s
  | .xori c gD gA imm => Sys2Proof.Machine.execXori c gD gA imm s
  | .shli c gD gA amt => Sys2Proof.Machine.execShli c gD gA amt s
  | .shri c gD gA amt => Sys2Proof.Machine.execShri c gD gA amt s
  | .srai c gD gA amt => Sys2Proof.Machine.execSrai c gD gA amt s
  | .cmpi c gD gA cc imm => Sys2Proof.Machine.execCmpi c gD gA cc imm s
  | .clz c gD gA => Sys2Proof.Machine.execClz c gD gA s
  | .ctz c gD gA => Sys2Proof.Machine.execCtz c gD gA s
  | .popc c gD gA => Sys2Proof.Machine.execPopc c gD gA s
  | .parity c gD gA => Sys2Proof.Machine.execParity c gD gA s
  | .brev c gD gA imm => Sys2Proof.Machine.execBrev c gD gA imm s
  | .sext c gD gA sz => Sys2Proof.Machine.execSext c gD gA sz s
  | .zext c gD gA sz => Sys2Proof.Machine.execZext c gD gA sz s
  | .crc32c c gD gA gB sz => Sys2Proof.Machine.execCrc32c c gD gA gB sz s
  | .crc64 c gD gA gB sz => Sys2Proof.Machine.execCrc64 c gD gA gB sz s
  | .mfm c gD hi => Sys2Proof.Machine.execMfm c gD hi s
  | .fcmp c gD gA gB fmt cc => Sys2Proof.Machine.execFcmp c gD gA gB fmt cc s
  | .fmax c gD gA gB fmt => Sys2Proof.Machine.execFmax c gD gA gB fmt s
  | .fmin c gD gA gB fmt => Sys2Proof.Machine.execFmin c gD gA gB fmt s
  | .fcvt c gD gA ffrom fto rnd => Sys2Proof.Machine.execFcvt c gD gA ffrom fto rnd s
  | .movK c gD z pos imm => Sys2Proof.Machine.execMovK c gD z pos imm s
  | .capGetf c gD cA field => Sys2Proof.Machine.execCapGetf c gD cA field s
  | .capSeta c cD cA gB => Sys2Proof.Machine.execCapSeta c cD cA gB s
  | .capAdda c cD cA gB => Sys2Proof.Machine.execCapAdda c cD cA gB s
  | .capSetb c cD cA gB => Sys2Proof.Machine.execCapSetb c cD cA gB s
  | .capSetbo c cD cA gB => Sys2Proof.Machine.execCapSetbo c cD cA gB s
  | .capAndp c cD cA gB => Sys2Proof.Machine.execCapAndp c cD cA gB s
  | .capMv c cD cA => Sys2Proof.Machine.execCapMv c cD cA s
  | .capClrt c cD cA => Sys2Proof.Machine.execCapClrt c cD cA s
  | .capSeal c cD cA cB => Sys2Proof.Machine.execCapSeal c cD cA cB s
  | .capUnseal c cD cA cB => Sys2Proof.Machine.execCapUnseal c cD cA cB s
  | .capChk c gD cA gB perm => Sys2Proof.Machine.execCapChk c gD cA gB perm s
  | .capRds c cD sn => Sys2Proof.Machine.execCapRds c cD sn s
  | .capWrs c sn cA => Sys2Proof.Machine.execCapWrs c sn cA s
  | .ldB c m => Sys2Proof.Machine.execLdB c m s
  | .ldBu c m => Sys2Proof.Machine.execLdBu c m s
  | .ldH c m => Sys2Proof.Machine.execLdH c m s
  | .ldHu c m => Sys2Proof.Machine.execLdHu c m s
  | .ldW c m => Sys2Proof.Machine.execLdW c m s
  | .ldWu c m => Sys2Proof.Machine.execLdWu c m s
  | .ldD c m => Sys2Proof.Machine.execLdD c m s
  | .stB c m => Sys2Proof.Machine.execStB c m s
  | .stH c m => Sys2Proof.Machine.execStH c m s
  | .stW c m => Sys2Proof.Machine.execStW c m s
  | .stD c m => Sys2Proof.Machine.execStD c m s
  | .ldC c m => Sys2Proof.Machine.execLdC c m s
  | .stC c m => Sys2Proof.Machine.execStC c m s
  | .pf c m => Sys2Proof.Machine.execPf c m s
  | .mulS c gA gB => Sys2Proof.Machine.execMulS c gA gB s
  | .mulU c gA gB => Sys2Proof.Machine.execMulU c gA gB s
  | .divS c gA gB => Sys2Proof.Machine.execDivS c gA gB s
  | .divU c gA gB => Sys2Proof.Machine.execDivU c gA gB s
  | .loadDataArrival c ix hostData hostPoison => Sys2Proof.Machine.execLoadDataArrival c ix hostData hostPoison s
  | .productLands c => Sys2Proof.Machine.execProductLands c s
  | .storeDrain c hostData => Sys2Proof.Machine.execStoreDrain c hostData s
  | .stridePrefetchFill c => Sys2Proof.Machine.execStridePrefetchFill c s
  | .vxSetvl c f x => Sys2Proof.Machine.execVxSetvl c f x s
  | .vxSync c f => Sys2Proof.Machine.execVxSync c f s
  | .vxAdd c f x => Sys2Proof.Machine.execVxAdd c f x s
  | .vxSub c f x => Sys2Proof.Machine.execVxSub c f x s
  | .vxMul c f x => Sys2Proof.Machine.execVxMul c f x s
  | .vxFma c f x => Sys2Proof.Machine.execVxFma c f x s
  | .vxFms c f x => Sys2Proof.Machine.execVxFms c f x s
  | .vxDiv c f x => Sys2Proof.Machine.execVxDiv c f x s
  | .vxSqrt c f x => Sys2Proof.Machine.execVxSqrt c f x s
  | .vxMax c f x => Sys2Proof.Machine.execVxMax c f x s
  | .vxMin c f x => Sys2Proof.Machine.execVxMin c f x s
  | .vxAbs c f x => Sys2Proof.Machine.execVxAbs c f x s
  | .vxNeg c f x => Sys2Proof.Machine.execVxNeg c f x s
  | .vxCpsgn c f x => Sys2Proof.Machine.execVxCpsgn c f x s
  | .vxRndi c f x => Sys2Proof.Machine.execVxRndi c f x s
  | .vxLdexp c f x => Sys2Proof.Machine.execVxLdexp c f x s
  | .vxGetexp c f x => Sys2Proof.Machine.execVxGetexp c f x s
  | .vxCmp c f x => Sys2Proof.Machine.execVxCmp c f x s
  | .vxTwosum c f x => Sys2Proof.Machine.execVxTwosum c f x s
  | .vxMullo c f x => Sys2Proof.Machine.execVxMullo c f x s
  | .vxIadd c f x => Sys2Proof.Machine.execVxIadd c f x s
  | .vxIsub c f x => Sys2Proof.Machine.execVxIsub c f x s
  | .vxAnd c f x => Sys2Proof.Machine.execVxAnd c f x s
  | .vxOr c f x => Sys2Proof.Machine.execVxOr c f x s
  | .vxXor c f x => Sys2Proof.Machine.execVxXor c f x s
  | .vxShl c f x => Sys2Proof.Machine.execVxShl c f x s
  | .vxShr c f x => Sys2Proof.Machine.execVxShr c f x s
  | .vxSra c f x => Sys2Proof.Machine.execVxSra c f x s
  | .vxImin c f x => Sys2Proof.Machine.execVxImin c f x s
  | .vxImax c f x => Sys2Proof.Machine.execVxImax c f x s
  | .vxImul c f x => Sys2Proof.Machine.execVxImul c f x s
  | .vxLd c f x => Sys2Proof.Machine.execVxLd c f x s
  | .vxSt c f x => Sys2Proof.Machine.execVxSt c f x s
  | .vxLds c f x => Sys2Proof.Machine.execVxLds c f x s
  | .vxSts c f x => Sys2Proof.Machine.execVxSts c f x s
  | .vxLdx c f x => Sys2Proof.Machine.execVxLdx c f x s
  | .vxStx c f x => Sys2Proof.Machine.execVxStx c f x s
  | .vxPackPnl c f x => Sys2Proof.Machine.execVxPackPnl c f x s
  | .vxTqrd c f x => Sys2Proof.Machine.execVxTqrd c f x s
  | .vxTqhdr c f x => Sys2Proof.Machine.execVxTqhdr c f x s
  | .vxTqpop c f => Sys2Proof.Machine.execVxTqpop c f s
  | .vxMv c f => Sys2Proof.Machine.execVxMv c f s
  | .vxBcst c f x => Sys2Proof.Machine.execVxBcst c f x s
  | .vxExt c f x => Sys2Proof.Machine.execVxExt c f x s
  | .vxIns c f x => Sys2Proof.Machine.execVxIns c f x s
  | .vxPerm c f x => Sys2Proof.Machine.execVxPerm c f x s
  | .vxShuf c f x => Sys2Proof.Machine.execVxShuf c f x s
  | .vxPack c f x => Sys2Proof.Machine.execVxPack c f x s
  | .vxUnpack c f x => Sys2Proof.Machine.execVxUnpack c f x s
  | .vxCompress c f x => Sys2Proof.Machine.execVxCompress c f x s
  | .vxExpand c f x => Sys2Proof.Machine.execVxExpand c f x s
  | .vxMand c f => Sys2Proof.Machine.execVxMand c f s
  | .vxMor c f => Sys2Proof.Machine.execVxMor c f s
  | .vxMxor c f => Sys2Proof.Machine.execVxMxor c f s
  | .vxMnot c f => Sys2Proof.Machine.execVxMnot c f s
  | .vxMpop c f x => Sys2Proof.Machine.execVxMpop c f x s
  | .vxMfirst c f x => Sys2Proof.Machine.execVxMfirst c f x s
  | .vxCvt c f x => Sys2Proof.Machine.execVxCvt c f x s
  | .vxSlc c f x => Sys2Proof.Machine.execVxSlc c f x s
  | .vxWrd c f x => Sys2Proof.Machine.execVxWrd c f x s
  | .vxDraw c f x => Sys2Proof.Machine.execVxDraw c f x s
  | .vxDrawu c f x => Sys2Proof.Machine.execVxDrawu c f x s
  | .vxRsum c f x => Sys2Proof.Machine.execVxRsum c f x s
  | .vxRsumB c f x => Sys2Proof.Machine.execVxRsumB c f x s
  | .vxRmax c f x => Sys2Proof.Machine.execVxRmax c f x s
  | .vxRmaxB c f x => Sys2Proof.Machine.execVxRmaxB c f x s
  | .vxRmin c f x => Sys2Proof.Machine.execVxRmin c f x s
  | .vxRminB c f x => Sys2Proof.Machine.execVxRminB c f x s
  | .vxRsumi c f x => Sys2Proof.Machine.execVxRsumi c f x s
  | .vxRsumiB c f x => Sys2Proof.Machine.execVxRsumiB c f x s
  | .vxRmaxBlk c f x => Sys2Proof.Machine.execVxRmaxBlk c f x s
  | .vxRsumBlk c f x => Sys2Proof.Machine.execVxRsumBlk c f x s
  | .vectorRetire c ix ariCycles => Sys2Proof.Machine.execVectorRetire c ix ariCycles s
  | .vectorGregWrite c ix => Sys2Proof.Machine.execVectorGregWrite c ix s
  | .tileQueueEmptyNoProducer c => Sys2Proof.Machine.execTileQueueEmptyNoProducer c s
  | .mxLdd c md cM gK => Sys2Proof.Machine.execMxLdd c md cM gK s
  | .mxOpen c m t cM gK => Sys2Proof.Machine.execMxOpen c m t cM gK s
  | .mxAcc c m t mdA mdB => Sys2Proof.Machine.execMxAcc c m t mdA mdB s
  | .mxAccs c m t mdA mdB ix j fe => Sys2Proof.Machine.execMxAccs c m t mdA mdB ix j fe s
  | .mxClose c m t => Sys2Proof.Machine.execMxClose c m t s
  | .mxWait c gD a t => Sys2Proof.Machine.execMxWait c gD a t s
  | .mxStat c gD => Sys2Proof.Machine.execMxStat c gD s
  | .mxStop c cM gK => Sys2Proof.Machine.execMxStop c cM gK s
  | .mxResume c cM gK => Sys2Proof.Machine.execMxResume c cM gK s
  | .matrixOpStart c ix => Sys2Proof.Machine.execMatrixOpStart c ix s
  | .accBlockEnd c waits stalls bank => Sys2Proof.Machine.execAccBlockEnd c waits stalls s bank
  | .foldMergeEnd c parityBad => Sys2Proof.Machine.execFoldMergeEnd c parityBad s
  | .accRetire c stalls => Sys2Proof.Machine.execAccRetire c s stalls
  | .closeEnd c a => Sys2Proof.Machine.execCloseEnd c a s
  | .tileQueueEntry c => Sys2Proof.Machine.execTileQueueEntry c s
  | .tileQueueNotDrained c => Sys2Proof.Machine.execTileQueueNotDrained c s
  | .exceptionEntry c beats => Sys2Proof.Machine.execExceptionEntry c beats s
  | .timerInterrupt c => Sys2Proof.Machine.execTimerInterrupt c s
  | .debugHaltRequest c => Sys2Proof.Machine.execDebugHaltRequest c s
  | .txLast c gD cM gA => Sys2Proof.Machine.execTxLast c gD cM gA s
  | .txFuse c gD cM gA => Sys2Proof.Machine.execTxFuse c gD cM gA s
  | .txWait c gD gA => Sys2Proof.Machine.execTxWait c gD gA s
  | .txTest c gD gA => Sys2Proof.Machine.execTxTest c gD gA s
  | .txStw c gD gA gB => Sys2Proof.Machine.execTxStw c gD gA gB s
  | .txStp c gA gB => Sys2Proof.Machine.execTxStp c gA gB s
  | .prArrive c imm => Sys2Proof.Machine.execPrArrive c imm s
  | .prWait c imm => Sys2Proof.Machine.execPrWait c imm s
  | .prSync c imm => Sys2Proof.Machine.execPrSync c imm s
  | .mgPost c cM gA => Sys2Proof.Machine.execMgPost c cM gA s
  | .mgRot c cM gA => Sys2Proof.Machine.execMgRot c cM gA s
  | .mgWait c gD => Sys2Proof.Machine.execMgWait c gD s
  | .txRequestIssue c sn tagWait => Sys2Proof.Machine.execTxRequestIssue c sn tagWait s
  | .txRequestComplete c tag ord hostData outPoison => Sys2Proof.Machine.execTxRequestComplete c tag ord hostData outPoison s
  | .streamHaltRecord c sn => Sys2Proof.Machine.execStreamHaltRecord c sn s
  | .streamEnd c sn => Sys2Proof.Machine.execStreamEnd c sn s
  | .stageFire c sn stage => Sys2Proof.Machine.execStageFire c sn stage s
  | .slotHandover c sn stage => Sys2Proof.Machine.execSlotHandover c sn stage s
  | .spillReadback c sn edge => Sys2Proof.Machine.execSpillReadback c sn edge s
  | .sequencerQueueEntry c held => Sys2Proof.Machine.execSequencerQueueEntry c held s
  | .fusedStall c sn => Sys2Proof.Machine.execFusedStall c sn s
  | .mgRotationStart c => Sys2Proof.Machine.execMgRotationStart c s
  | .mgRotationEnd c => Sys2Proof.Machine.execMgRotationEnd c s
  | .pressArrivalEnter c ch => Sys2Proof.Machine.execPressArrivalEnter c ch s
  | .pressTimeout ch => Sys2Proof.Machine.execPressTimeout ch s
  | .translationWalk c ctx va acc => Sys2Proof.Machine.execTranslationWalk c ctx va acc s
  | .walkComplete c ix waitCycles => Sys2Proof.Machine.execWalkComplete c ix waitCycles s
  | .invDbWrite v => Sys2Proof.Machine.execInvDbWrite v s
  | .invBroadcast => Sys2Proof.Machine.execInvBroadcast s
  | .invUnitReceipt c => Sys2Proof.Machine.execInvUnitReceipt c s
  | .invUnitAck c parity => Sys2Proof.Machine.execInvUnitAck c s parity
  | .invDone => Sys2Proof.Machine.execInvDone s
  | .invTimeout => Sys2Proof.Machine.execInvTimeout s
  | .trinvWrite w c v => Sys2Proof.Machine.execTrinvWrite w c v s
  | .windowDrainEnd w => Sys2Proof.Machine.execWindowDrainEnd w s
  | .cacheRead cl line host scalar hostData bad errs => Sys2Proof.Machine.execCacheRead cl line host scalar hostData bad s errs
  | .cacheReadown cl line host hostData => Sys2Proof.Machine.execCacheReadown cl line host hostData s
  | .cacheUpgrade cl line host => Sys2Proof.Machine.execCacheUpgrade cl line host s
  | .cacheReadcur cl line => Sys2Proof.Machine.execCacheReadcur cl line s
  | .cacheWriteinv cl line mask data poison => Sys2Proof.Machine.execCacheWriteinv cl line mask data poison s
  | .snoopReturn cl ix => Sys2Proof.Machine.execSnoopReturn cl ix s
  | .l2Eviction cl set waits => Sys2Proof.Machine.execL2Eviction cl set waits s
  | .evictionAck cl line waits => Sys2Proof.Machine.execEvictionAck cl line s waits
  | .hamperWait cl => Sys2Proof.Machine.execHamperWait cl s
  | .retryReissue cl ix => Sys2Proof.Machine.execRetryReissue cl ix s
  | .holdWindowEnd cl line => Sys2Proof.Machine.execHoldWindowEnd cl line s
  | .writebackArrival r ix => Sys2Proof.Machine.execWritebackArrival r ix s
  | .h2dSnoop line want => Sys2Proof.Machine.execH2dSnoop line want s
  | .hostEvictGo cl line waits => Sys2Proof.Machine.execHostEvictGo cl line s waits
  | .l1Icinv c => Sys2Proof.Machine.execL1Icinv c s
  | .l1Dcinv c => Sys2Proof.Machine.execL1Dcinv c s
  | .amaxclr c beats => Sys2Proof.Machine.execAmaxclr c beats s
  | .mcRequestArrival r q => Sys2Proof.Machine.execMcRequestArrival r q s
  | .mcBurst r p ecc rtWait => Sys2Proof.Machine.execMcBurst r p ecc rtWait s
  | .entryAged r p ix => Sys2Proof.Machine.execEntryAged r p ix s
  | .rinseRead r p ecc => Sys2Proof.Machine.execRinseRead r p ecc s
  | .retrainStart r p tempMoved => Sys2Proof.Machine.execRetrainStart r p tempMoved s
  | .retrainEnd r ok => Sys2Proof.Machine.execRetrainEnd r ok s
  | .patchCopyGranule r ecc => Sys2Proof.Machine.execPatchCopyGranule r ecc s
  | .patchSwap r => Sys2Proof.Machine.execPatchSwap r s
  | .patchDone r => Sys2Proof.Machine.execPatchDone r s
  | .poisonFillEnd r p => Sys2Proof.Machine.execPoisonFillEnd r p s
  | .soakGo r p => Sys2Proof.Machine.execSoakGo r p s
  | .soakEnd r p back => Sys2Proof.Machine.execSoakEnd r p back s
  | .memoryStartup failed => Sys2Proof.Machine.execMemoryStartup failed s
  | .zeroFillEnd => Sys2Proof.Machine.execZeroFillEnd s
  | .linkDetect p energy => Sys2Proof.Machine.execLinkDetect p energy s
  | .linkTrainEnd p locked => Sys2Proof.Machine.execLinkTrainEnd p locked s
  | .configFlitRx p flit uncorrectable corrected => Sys2Proof.Machine.execConfigFlitRx p flit uncorrectable s corrected
  | .dataFlitRx p flit uncorrectable corrected => Sys2Proof.Machine.execDataFlitRx p flit uncorrectable s corrected
  | .idleFlitRx p flit uncorrectable corrected => Sys2Proof.Machine.execIdleFlitRx p flit uncorrectable s corrected
  | .linkReplay p => Sys2Proof.Machine.execLinkReplay p s
  | .laneLockLoss p lane => Sys2Proof.Machine.execLaneLockLoss p lane s
  | .uncorrectableCwBurst p lane count => Sys2Proof.Machine.execUncorrectableCwBurst p lane count s
  | .slRetrain p => Sys2Proof.Machine.execSlRetrain p s
  | .slEnable p en => Sys2Proof.Machine.execSlEnable p en s
  | .retrainAttemptEnd p ok locked => Sys2Proof.Machine.execRetrainAttemptEnd p ok locked s
  | .linkDownExpiry p => Sys2Proof.Machine.execLinkDownExpiry p s
  | .msgRd m => Sys2Proof.Machine.execMsgRd m s
  | .msgWr m => Sys2Proof.Machine.execMsgWr m s
  | .msgRaf m => Sys2Proof.Machine.execMsgRaf m s
  | .msgRab m => Sys2Proof.Machine.execMsgRab m s
  | .msgRai m => Sys2Proof.Machine.execMsgRai m s
  | .msgWinq m => Sys2Proof.Machine.execMsgWinq m s
  | .msgWinn m => Sys2Proof.Machine.execMsgWinn m s
  | .msgBar m => Sys2Proof.Machine.execMsgBar m s
  | .msgBarrel m => Sys2Proof.Machine.execMsgBarrel m s
  | .msgAck m => Sys2Proof.Machine.execMsgAck m s
  | .msgRdrsp m => Sys2Proof.Machine.execMsgRdrsp m s
  | .msgNack m => Sys2Proof.Machine.execMsgNack m s
  | .msgWinr m => Sys2Proof.Machine.execMsgWinr m s
  | .messageForward opc m => Sys2Proof.Machine.execMessageForward opc m s
  | .ackTimer src vc => Sys2Proof.Machine.execAckTimer src vc s
  | .e2eTimeout dst vc => Sys2Proof.Machine.execE2eTimeout dst vc s
  | .mbGo n => Sys2Proof.Machine.execMbGo n s
  | .qTailWrite q v => Sys2Proof.Machine.execQTailWrite q v s
  | .qCqheadWrite q v => Sys2Proof.Machine.execQCqheadWrite q v s
  | .qEnable q => Sys2Proof.Machine.execQEnable q s
  | .frHeadWrite v => Sys2Proof.Machine.execFrHeadWrite v s
  | .erHeadWrite v => Sys2Proof.Machine.execErHeadWrite v s
  | .registerWrite w t off size v => Sys2Proof.Machine.execRegisterWrite w t off size v s
  | .commandAccept q hostEntry => Sys2Proof.Machine.execCommandAccept q hostEntry s
  | .commandCommit j corr lost => Sys2Proof.Machine.execCommandCommit j corr s lost
  | .hello j => Sys2Proof.Machine.execHello j s
  | .caps j => Sys2Proof.Machine.execCaps j s
  | .mapFrames j => Sys2Proof.Machine.execMapFrames j s
  | .mapWindow j => Sys2Proof.Machine.execMapWindow j s
  | .mapContext j => Sys2Proof.Machine.execMapContext j s
  | .mapDeviceMap j => Sys2Proof.Machine.execMapDeviceMap j s
  | .unmapFrames j => Sys2Proof.Machine.execUnmapFrames j s
  | .unmapWindow j => Sys2Proof.Machine.execUnmapWindow j s
  | .invalRange j late => Sys2Proof.Machine.execInvalRange j late s
  | .loadImage j hostImage => Sys2Proof.Machine.execLoadImage j hostImage s
  | .launch j keys => Sys2Proof.Machine.execLaunch j keys s
  | .lexitWrite c v => Sys2Proof.Machine.execLexitWrite c v s
  | .launchTimeout j => Sys2Proof.Machine.execLaunchTimeout j s
  | .fuse j => Sys2Proof.Machine.execFuse j s
  | .pressCfg j => Sys2Proof.Machine.execPressCfg j s
  | .snap j => Sys2Proof.Machine.execSnap j s
  | .restore j outside => Sys2Proof.Machine.execRestore j outside s
  | .pair j answer => Sys2Proof.Machine.execPair j answer s
  | .partReset j => Sys2Proof.Machine.execPartReset j s
  | .partResetEnd level number => Sys2Proof.Machine.execPartResetEnd level number s
  | .partResetOverrun level number => Sys2Proof.Machine.execPartResetOverrun level number s
  | .patch j => Sys2Proof.Machine.execPatch j s
  | .soak j => Sys2Proof.Machine.execSoak j s
  | .statusSummary j => Sys2Proof.Machine.execStatusSummary j s
  | .statusWearGauge j => Sys2Proof.Machine.execStatusWearGauge j s
  | .statusWindowQuery j => Sys2Proof.Machine.execStatusWindowQuery j s
  | .events j => Sys2Proof.Machine.execEvents j s
  | .txresResume w c sn => Sys2Proof.Machine.execTxresResume w c sn s
  | .txresAbort w c sn => Sys2Proof.Machine.execTxresAbort w c sn s
  | .attest j nonce => Sys2Proof.Machine.execAttest j nonce s
  | .debugChallenge j nonce => Sys2Proof.Machine.execDebugChallenge j nonce s
  | .debugTokenUnlock j token age => Sys2Proof.Machine.execDebugTokenUnlock j token age s
  | .debugPasswordUnlock j block => Sys2Proof.Machine.execDebugPasswordUnlock j block s
  | .debugClose j => Sys2Proof.Machine.execDebugClose j s
  | .unlockHoldoffEnd => Sys2Proof.Machine.execUnlockHoldoffEnd s
  | .heartbeatLossTakeover => Sys2Proof.Machine.execHeartbeatLossTakeover s
  | .firmwareRestart => Sys2Proof.Machine.execFirmwareRestart s
  | .standbyFailure => Sys2Proof.Machine.execStandbyFailure s
  | .nestedErrorEscalate => Sys2Proof.Machine.execNestedErrorEscalate s
  | .queueSaturation q => Sys2Proof.Machine.execQueueSaturation q s
  | .faultRecordPost => Sys2Proof.Machine.execFaultRecordPost s
  | .eventPost => Sys2Proof.Machine.execEventPost s
  | .gaugeRecompute x => Sys2Proof.Machine.execGaugeRecompute x s
  | .captureQuiesced => Sys2Proof.Machine.execCaptureQuiesced s
  | .captureEnd => Sys2Proof.Machine.execCaptureEnd s
  | .captureAbandon tooLong => Sys2Proof.Machine.execCaptureAbandon tooLong s
  | .replicationEnd => Sys2Proof.Machine.execReplicationEnd s
  | .replicationFail code => Sys2Proof.Machine.execReplicationFail code s
  | .boot => Sys2Proof.Machine.execBoot s
  | .spdmGetVersion => Sys2Proof.Machine.execSpdmGetVersion s
  | .spdmGetCapabilities => Sys2Proof.Machine.execSpdmGetCapabilities s
  | .spdmNegotiateAlgorithms => Sys2Proof.Machine.execSpdmNegotiateAlgorithms s
  | .spdmGetDigests => Sys2Proof.Machine.execSpdmGetDigests s
  | .spdmGetCertificate => Sys2Proof.Machine.execSpdmGetCertificate s
  | .spdmChallenge nonce => Sys2Proof.Machine.execSpdmChallenge nonce s
  | .spdmGetMeasurements nonce => Sys2Proof.Machine.execSpdmGetMeasurements nonce s
  | .spdmChunkGet => Sys2Proof.Machine.execSpdmChunkGet s
  | .doeDiscovery index => Sys2Proof.Machine.execDoeDiscovery index s
  | .cdatRead entry => Sys2Proof.Machine.execCdatRead entry s
  | .doeAbort => Sys2Proof.Machine.execDoeAbort s
  | .tapIdcode => Sys2Proof.Machine.execTapIdcode s
  | .tapBypass tdi => Sys2Proof.Machine.execTapBypass tdi s
  | .tapSamplePreload pins => Sys2Proof.Machine.execTapSamplePreload pins s
  | .tapExtest pins => Sys2Proof.Machine.execTapExtest pins s
  | .tapUnlockstat => Sys2Proof.Machine.execTapUnlockstat s
  | .cxlMemRead hoff want => Sys2Proof.Machine.execCxlMemRead hoff want s
  | .cxlMemWrite hoff mask data poison giveUp => Sys2Proof.Machine.execCxlMemWrite hoff mask data poison giveUp s
  | .birspArrival line dirty => Sys2Proof.Machine.execBirspArrival line dirty s
  | .biconflict line => Sys2Proof.Machine.execBiconflict line s
  | .hostLinkRecovery cause => Sys2Proof.Machine.execHostLinkRecovery cause s
  | .hostLinkL0 => Sys2Proof.Machine.execHostLinkL0 s
  | .hostEnable => Sys2Proof.Machine.execHostEnable s
  | .holdmsExpiry ix => Sys2Proof.Machine.execHoldmsExpiry ix s
  | .pwrGoodRise straps => Sys2Proof.Machine.execPwrGoodRise straps s
  | .packageResetRelease => Sys2Proof.Machine.execPackageResetRelease s
  | .pllLock => Sys2Proof.Machine.execPllLock s
  | .packageResetEntry pin => Sys2Proof.Machine.execPackageResetEntry pin s
  | .vstbyLoss => Sys2Proof.Machine.execVstbyLoss s
  | .railUndervoltage rail => Sys2Proof.Machine.execRailUndervoltage rail s
  | .refclkLoss => Sys2Proof.Machine.execRefclkLoss s
  | .slRefclkLoss d => Sys2Proof.Machine.execSlRefclkLoss d s
  | .powerSample avg mayStep => Sys2Proof.Machine.execPowerSample avg mayStep s
  | .tempHot t => Sys2Proof.Machine.execTempHot t s
  | .tempStep t => Sys2Proof.Machine.execTempStep t s
  | .tempCool t => Sys2Proof.Machine.execTempCool t s
  | .thermalTrip t => Sys2Proof.Machine.execThermalTrip t s
  | .throtNAssert => Sys2Proof.Machine.execThrotNAssert s
  | .throtNDeassert => Sys2Proof.Machine.execThrotNDeassert s
  | .smbReadWord addr cmd => Sys2Proof.Machine.execSmbReadWord addr cmd s
  | .smbAlertResponse => Sys2Proof.Machine.execSmbAlertResponse s
  | .standbyRejoin => Sys2Proof.Machine.execStandbyRejoin s
  | .cxlLinkUp rate width fail => Sys2Proof.Machine.execCxlLinkUp rate width fail s
  | .stbyGoodRise => Sys2Proof.Machine.execStbyGoodRise s
  | .voltageDroopEvent => Sys2Proof.Machine.execVoltageDroopEvent s
  | .spdmSignatureDone => Sys2Proof.Machine.execSpdmSignatureDone s

end Sys2Proof.Machine
end

