-- ==== Sys2Proof/Machine/Tick.lean ====
section
/-! DEFINITION. What passes when no command waits. -/

namespace Sys2Proof.Machine

/-- R28: how far die 0's counter runs ahead of die 1's since the present release (log 57). -/
def State.bridgeD (s : State) : Nat := Config.bridgeLag s.pwr.releases % 5

/-- R28, R10: both dies' timestamp counters count F-cycles out of reset and stay at all ones (DESIGN CHOICE, log 1: one F-cycle for each
step on an empty queue); die 1's starts when the release has crossed the bridge. Two counters read at one instant differ by exactly D
or less in the model: the further count apart or closer that R28's unknown phase allows never shows (DESIGN CHOICE, log 57). -/
def State.tick (s : State) : State :=
  if s.pwr.rst then s
  else
    let a := s.dies.get 0
    let b := s.dies.get 1
    let far := decide (s.bridgeD ≤ a.ts.toNat) || b.ts != 0
    let up (x : W64) : W64 := BitVec.ofNat 64 (satAdd 64 x.toNat 1)
    { s with dies := (s.dies.set 0 { a with ts := up a.ts }).set 1 { b with ts := if far then up b.ts else b.ts } }

end Sys2Proof.Machine
end

