-- ==== Sys2Proof/Safety.lean ====
section
/-! DEFINITION. The words that statements about this machine use: when a core takes an instruction, the state that a retired
bundle leaves, the exception that a faulting bundle makes due, and the canonical form of the package's memories. -/

namespace Sys2Proof.Machine

/-- An instruction's syllables: its own and the extension that a vector instruction carries (R130, R151). -/
def syllablesOf (i : Instr) : Nat := match encodeSyl i with | some (_, _, some _) => 2 | _ => 1

/-- Core c is free to take a bundle: it runs, no exception waits, no bundle is held (R132, R153, R166). -/
def State.coreFree (s : State) (c : CoreId) : Bool := (s.core c).run == .running && (s.core c).exc.isNone && (s.core c).held.isNone

/-- The operands of i are there: no register that it reads or writes waits for a late value, and none that it reads is poisoned
(R139, R141, R142). -/
def Core.hasOperands (k : Core) (i : Instr) : Bool :=
  (srcRegs i ++ dstRegs i).all (fun r => !k.busyG r) && (capRegs i).all (fun r => !k.lateLoads.any (fun l => l.toCap && l.reg.setWidth 4 == r)) &&
    (srcRegs i).all (fun r => !k.poisoned r)

/-- Where a counted loop sends the core after this bundle, the core may go (R138). -/
def Core.loopOk (k : Core) : Bool := match k.loopStep.2 with | some t => k.targetOk t | none => true

/-- Core c takes instruction i as a bundle of its own: the core is free, the instruction's fields hold what its encoding admits, it
names no register twice as a destination, and its operands are there (R130 to R132, R141). -/
def State.takes (s : State) (c : CoreId) (i : Instr) : Bool :=
  s.coreFree c && i.wf && !namesTwice (dstReal i) && (s.core c).hasOperands i && (s.core c).loopOk

/-- The state after the bundle of one instruction that changes nothing but its core: the core moves to the next bundle, the loops
count, and f is the instruction's own effect (R132, R138). -/
def State.retired (s : State) (c : CoreId) (i : Instr) (f : Core → Core) : State :=
  s.updCore c (fun k => f (k.advance (syllablesOf i) false))

/-- The same for an instruction that sets the next bundle's address itself: the loops do not count (R138). -/
def State.jumped (s : State) (c : CoreId) (i : Instr) (f : Core → Core) : State :=
  s.updCore c (fun k => f (k.advance (syllablesOf i) true))

/-- Core c is left with the fault of a bundle to take: its code and address; nothing else of the package has changed (R132, R166). -/
def State.faulted (s t : State) (c : CoreId) (code : BitVec 16) (addr : W64) : Prop :=
  ∃ e : Exc, e.cls = 0 ∧ e.code = code ∧ e.addr = addr ∧ t = s.updCore c (fun k => { k with held := none, exc := some e })

/-- Where core c takes i, exec completes it: the bundle retires with f as the instruction's own effect on the core. -/
def State.does (s : State) (c : CoreId) (i : Instr) (f : Core → Core) : Prop :=
  s.takes c i = true → exec i s = .next (s.retired c i f)

/-- The same for an instruction that sets the next bundle's address itself. -/
def State.doesJump (s : State) (c : CoreId) (i : Instr) (f : Core → Core) : Prop :=
  s.takes c i = true → exec i s = .next (s.jumped c i f)

/-- The core goes on at address t and its prefetch queue is flushed (R133, R141). -/
def Core.goTo (k : Core) (pcc : Cap) (t : Nat) : Core := (k.setScap 0 (pcc.moved t)).flushQueue

/-- The bundle of one instruction is held, for that reason; nothing else of the package has changed (R132, R141). -/
def State.heldFor (s t : State) (c : CoreId) (why : Held) : Prop :=
  ∃ h : HeldAt, h.why = why ∧ t = s.updCore c (fun k => { k with held := some h })

/-- Where core c takes i, exec leaves the fault of its bundle. -/
def State.doesFault (s : State) (c : CoreId) (i : Instr) (code : BitVec 16) (addr : W64) : Prop :=
  s.takes c i = true → ∃ t, exec i s = .next t ∧ s.faulted t c code addr

/-- Where core c takes i, exec holds its bundle. -/
def State.doesHold (s : State) (c : CoreId) (i : Instr) (why : Held) : Prop :=
  s.takes c i = true → ∃ t, exec i s = .next t ∧ s.heldFor t c why

/-- R48, R54, R108, R112: i enters core c's vector queue with what it captures: VL, the general registers x and y, and the hem counter
where it draws n times from a stream; the controls are taken when it starts (ctl); gD is marked as written late. Registers, masks and
tile memory stay as they are. -/
def State.queues (s : State) (c : CoreId) (i : Instr) (x y : W64) (draws : Option (Nat × Nat)) (gD : GReg) : Prop :=
  let k := s.core c
  s.takes c i = true → ∃ (q : Core) (e : VEntry), exec i s = .next (s.setCore c q) ∧
    q.vq.map VEntry.instr = k.vq.map VEntry.instr ++ [i] ∧ q.vq.getLast? = some e ∧ e.vl = k.vl.toNat ∧ e.x = x ∧ e.y = y ∧
    e.drew = draws.isSome ∧ e.ctl = none ∧ e.pois = false ∧ e.beats = 0 ∧ e.done = false ∧ e.seq = none ∧
    (∀ st n, draws = some (st, n) → st < 4 → e.hem = k.reg (rHEM st 2) ∧ q.reg (rHEM st 2) = k.reg (rHEM st 2) + BitVec.ofNat 64 n) ∧
    (draws = none → ∀ st, st < 4 → q.reg (rHEM st 2) = k.reg (rHEM st 2)) ∧ (gD ≠ 0 → q.busyG gD = true) ∧
    q.g = k.g ∧ q.c = k.c ∧ q.v = k.v ∧ q.vm = k.vm ∧ q.vl = k.vl ∧ q.tile = k.tile ∧ q.exc = none ∧ q.held = none

/-- R112, R127: the first fault of the list that is present is taken; with none, a full queue holds the bundle and room takes it. -/
def State.issues (s : State) (c : CoreId) (i : Instr) (faults : List (Bool × BitVec 16)) (x y : W64) (draws : Option (Nat × Nat))
    (gD : GReg) : Prop :=
  (∀ a code b, faults = a ++ (true, code) :: b → (∀ p ∈ a, p.1 = false) → s.doesFault c i code 0) ∧
  ((∀ p ∈ faults, p.1 = false) → (8 ≤ (s.core c).vq.length → s.doesHold c i .queueFull) ∧
    ((s.core c).vq.length < 8 → s.queues c i x y draws gD))

/-- A core's tile memory is in the canonical form, and g0 reads 0 (R138). -/
def Core.canonical (k : Core) : Bool :=
  mwf zeroByte k.tile && mwf noFlag k.tileTags && mwf noFlag k.tilePoison && k.g.get 0 == 0

/-- The byte memories are in the canonical form, and every g0 reads 0. -/
def State.canonical (s : State) : Bool :=
  mwf zeroByte s.mem && mwf noFlag s.memTags && mwf zeroByte s.hostMem && (List.finRange 64).all (fun c => (s.core c).canonical)

end Sys2Proof.Machine
end

