-- ==== Sys2Proof/Certificates/Slice0/Obligations.lean ====
section
/-! DEFINITION. The statements about the machine, for the provers. -/

open Sys2Proof Sys2Proof.Machine

/-! ## The scalar processor -/

/-- R134: each register form of slots 1 and 2 that cannot trap, with its result. -/
def Sys2Proof.aluRegs : List ((CoreId → GReg → GReg → GReg → Instr) × (W64 → W64 → W64)) :=
  [(Instr.and, fun a b => a &&& b), (Instr.or, fun a b => a ||| b), (Instr.xor, fun a b => a ^^^ b),
   (Instr.shl, fun a b => a <<< (b.toNat % 64)), (Instr.shr, fun a b => a >>> (b.toNat % 64)),
   (Instr.sra, fun a b => a.sshiftRight (b.toNat % 64)), (Instr.rotl, fun a b => a.rotateLeft (b.toNat % 64)),
   (Instr.min, fun a b => if a.slt b then a else b), (Instr.max, fun a b => if a.slt b then b else a),
   (Instr.minu, fun a b => if a.ult b then a else b), (Instr.maxu, fun a b => if a.ult b then b else a),
   (fun c d a b => Instr.cmp c d a b 0, fun a b => if a = b then 1 else 0),
   (fun c d a b => Instr.cmp c d a b 1, fun a b => if a = b then 0 else 1),
   (fun c d a b => Instr.cmp c d a b 2, fun a b => if a.slt b then 1 else 0),
   (fun c d a b => Instr.cmp c d a b 3, fun a b => if a.slt b then 0 else 1),
   (fun c d a b => Instr.cmp c d a b 4, fun a b => if a.ult b then 1 else 0),
   (fun c d a b => Instr.cmp c d a b 5, fun a b => if a.ult b then 0 else 1)]

/-- R134, R138: a register form computes its result from the two sources and writes it to gD; sel writes gB where gA is not 0. The
core moves on, and nothing else in the package changes. -/
def Sys2Proof.registerForms : Prop :=
  ∀ (c : CoreId) (gD gA gB : GReg) (s : State),
    (∀ x ∈ aluRegs, s.does c (x.1 c gD gA gB) (fun k => k.setG gD (x.2 ((s.core c).getG gA) ((s.core c).getG gB)))) ∧
    s.does c (.sel c gD gA gB) (fun k => if (s.core c).getG gA = 0 then k else k.setG gD ((s.core c).getG gB))

/-- The exact signed sum or difference fits 64 bits. -/
def Sys2Proof.fits64 (n : Int) : Prop := -2 ^ 63 ≤ n ∧ n < 2 ^ 63

/-- R135: add, sub and addi wrap modulo 2^64; a signed result that does not fit faults with 0x1031 where the overflow trap is
enabled, and the destination then keeps its value. -/
def Sys2Proof.addSubtract : Prop :=
  ∀ (c : CoreId) (gD gA gB : GReg) (imm : BitVec 10) (s : State),
    let a := (s.core c).getG gA
    let b := (s.core c).getG gB
    let j := imm.signExtend 64
    let trap := (s.core c).fld rARITHCTL 1 1 = 1
    ((¬trap ∨ fits64 (a.toInt + b.toInt)) → s.does c (.add c gD gA gB) (fun k => k.setG gD (a + b))) ∧
    ((¬trap ∨ fits64 (a.toInt - b.toInt)) → s.does c (.sub c gD gA gB) (fun k => k.setG gD (a - b))) ∧
    ((¬trap ∨ fits64 (a.toInt + j.toInt)) → s.does c (.addi c gD gA imm) (fun k => k.setG gD (a + j))) ∧
    (trap → ¬fits64 (a.toInt + b.toInt) → s.doesFault c (.add c gD gA gB) 0x1031 0) ∧
    (trap → ¬fits64 (a.toInt - b.toInt) → s.doesFault c (.sub c gD gA gB) 0x1031 0) ∧
    (trap → ¬fits64 (a.toInt + j.toInt) → s.doesFault c (.addi c gD gA imm) 0x1031 0)

/-- R134, R135, R138: the register forms of slots 1 and 2, and the sums with their overflow trap. -/
def Obligations.AluRegisterForms : Prop := registerForms ∧ addSubtract


/-- R134, R149, R150, R163: the forms of one source, or of a source and an immediate. -/
def Sys2Proof.immediateForms : Prop :=
  ∀ (c : CoreId) (gD gA gB : GReg) (s : State),
    let a := (s.core c).getG gA
    let b := (s.core c).getG gB
    let puts (i : Instr) (v : W64) : Prop := s.does c i (fun k => k.setG gD v)
    (∀ imm : BitVec 10, puts (.andi c gD gA imm) (a &&& imm.signExtend 64) ∧ puts (.ori c gD gA imm) (a ||| imm.signExtend 64) ∧
      puts (.xori c gD gA imm) (a ^^^ imm.signExtend 64)) ∧
    (∀ n : BitVec 6, puts (.shli c gD gA n) (a <<< n.toNat) ∧ puts (.shri c gD gA n) (a >>> n.toNat) ∧
      puts (.srai c gD gA n) (a.sshiftRight n.toNat)) ∧
    (∀ imm : BitVec 6, puts (.cmpi c gD gA 0 imm) (if a = imm.signExtend 64 then 1 else 0) ∧
      puts (.cmpi c gD gA 1 imm) (if a = imm.signExtend 64 then 0 else 1) ∧
      puts (.cmpi c gD gA 2 imm) (if a.slt (imm.signExtend 64) then 1 else 0) ∧
      puts (.cmpi c gD gA 3 imm) (if a.slt (imm.signExtend 64) then 0 else 1) ∧
      puts (.cmpi c gD gA 4 imm) (if a.ult (imm.signExtend 64) then 1 else 0) ∧
      puts (.cmpi c gD gA 5 imm) (if a.ult (imm.signExtend 64) then 0 else 1)) ∧
    puts (.clz c gD gA) (BitVec.ofNat 64 (clzN a.toNat)) ∧ puts (.ctz c gD gA) (BitVec.ofNat 64 (ctzN a.toNat)) ∧
    puts (.popc c gD gA) (BitVec.ofNat 64 (popN a.toNat)) ∧ puts (.parity c gD gA) (BitVec.ofNat 64 (popN a.toNat % 2)) ∧
    (∀ n : BitVec 6, puts (.brev c gD gA n) (BitVec.ofNat 64 (brevN a.toNat (n.toNat + 1)))) ∧
    (∀ z : BitVec 2, puts (.sext c gD gA z) (BitVec.ofInt 64 (BitVec.ofNat (8 * 2 ^ z.toNat) a.toNat).toInt) ∧
      puts (.zext c gD gA z) (BitVec.ofNat 64 (a.toNat % 2 ^ (8 * 2 ^ z.toNat)))) ∧
    (∀ z : BitVec 2, puts (.crc32c c gD gA gB z) (BitVec.ofNat 64 (crcStep (a.toNat % 2 ^ 32) b.toNat (2 ^ z.toNat) polyCrc32c)) ∧
      puts (.crc64 c gD gA gB z) (BitVec.ofNat 64 (crcStep a.toNat b.toNat (2 ^ z.toNat) polyCrc64))) ∧
    (∀ hi : Bool, puts (.mfm c gD hi) ((s.core c).reg (if hi then 0x1518 else 0x1510))) ∧
    (∀ (z : Bool) (pos : BitVec 2) (imm : BitVec 16), puts (.movK c gD z pos imm)
      (BitVec.ofNat 64 (setBits (if z then 0 else ((s.core c).getG gD).toNat) (16 * pos.toNat + 15) (16 * pos.toNat) imm.toNat))) ∧
    (∀ idx : BitVec 12, puts (.ctlRd c gD idx) ((s.core c).readReg (0x1000 + 8 * idx.toNat)))

/-- R134, R150: what the counts of bits and the reversal answer, for every 64-bit value. -/
def Sys2Proof.bitCounts : Prop :=
  ∀ x : Nat, x < 2 ^ 64 →
    (x ≠ 0 → clzN x < 64 ∧ x.testBit (63 - clzN x) = true ∧ x < 2 ^ (64 - clzN x)) ∧ clzN 0 = 64 ∧
    (x ≠ 0 → ctzN x < 64 ∧ x.testBit (ctzN x) = true ∧ x % 2 ^ ctzN x = 0) ∧ ctzN 0 = 64 ∧
    popN x ≤ 64 ∧ (∀ n, n < 64 → ∀ j, j ≤ n → (brevN x (n + 1)).testBit j = x.testBit (n - j)) ∧
    (∀ n, n < 64 → brevN x (n + 1) < 2 ^ (n + 1))

/-- R134, R149, R150, R163: the forms of one source or of an immediate, and what the counts of bits answer. -/
def Obligations.AluImmediateForms : Prop := immediateForms ∧ bitCounts


/-- R39, R40, R51, R134: the scalar floating-point operations write their result and raise its flags in S_. -/
def Obligations.ScalarFloat : Prop :=
  ∀ (c : CoreId) (gD gA gB : GReg) (fmt : BitVec 2) (s : State),
    let f := scalarFmt fmt.toNat
    let x := ((s.core c).getG gA).toNat
    let y := ((s.core c).getG gB).toNat
    let puts (i : Instr) (v : Nat) (fl : NF) : Prop := s.does c i (fun k => (k.setG gD (BitVec.ofNat 64 v)).raiseFlags 0 fl)
    (∀ cc : BitVec 2, puts (.fcmp c gD gA gB fmt cc) (fcmpHolds f cc x y).1.toNat { nv := (f.decode x).isSNaN || (f.decode y).isSNaN }) ∧
    puts (.fmax c gD gA gB fmt) (f.maxMin true (x % 2 ^ f.width) (y % 2 ^ f.width)).1
      { nv := (f.maxMin true (x % 2 ^ f.width) (y % 2 ^ f.width)).2 } ∧
    puts (.fmin c gD gA gB fmt) (f.maxMin false (x % 2 ^ f.width) (y % 2 ^ f.width)).1
      { nv := (f.maxMin false (x % 2 ^ f.width) (y % 2 ^ f.width)).2 } ∧
    (∀ (from_ to_ : BitVec 3) (rnd : BitVec 2), puts (.fcvt c gD gA from_ to_ rnd)
      (fcvtTo from_.toNat to_.toNat rnd ((s.core c).getG gA)).1 (fcvtTo from_.toNat to_.toNat rnd ((s.core c).getG gA)).2)

/-- R133, R141, R146: where control goes. A target must lie within PCC on a syllable boundary, a slot of the return stack within RSCAP
in tile memory outside the emergency area; the prefetch queue is flushed by a taken branch. Where the rules leave a
point open it follows the model's own choices (logs 53, 72, 73), which are no rules of the spec. -/
def Obligations.Branches : Prop :=
  ∀ (c : CoreId) (s : State),
    let k0 := s.core c
    let next := (k0.pc + 4) % 2 ^ 64
    let rs := k0.rscap.addr
    s.does c (.nop c) (fun k => k) ∧
    (∀ d : BitVec 22, let t := (BitVec.ofInt 64 ((k0.pc : Int) + 4 * d.toInt)).toNat
      k0.targetOk t = true →
        s.doesJump c (.br c d) (fun k => k.goTo k0.pcc t) ∧
        (k0.retSlotOk ((rs : Int) - 8) = true → s.doesJump c (.call c d) (fun k => (k.push next).goTo k0.pcc t))) ∧
    (∀ gA : GReg, let t := (k0.getG gA).toNat
      k0.targetOk t = true →
        s.doesJump c (.jr c gA) (fun k => k.goTo k0.pcc t) ∧
        (k0.retSlotOk ((rs : Int) - 8) = true → s.doesJump c (.callr c gA) (fun k => (k.push next).goTo k0.pcc t))) ∧
    (k0.retSlotOk rs = true → k0.targetOk (k0.tileNat rs 8) = true →
      s.doesJump c (.ret c) (fun k => ({ (k.setScap 1 (k0.rscap.moved (rs + 8))) with retBuf := k.retBuf.drop 1 } : Core).goTo k0.pcc (k0.tileNat rs 8))) ∧
    (∀ (gA : GReg) (cc : BitVec 3) (d : BitVec 13), let t := (BitVec.ofInt 64 ((k0.pc : Int) + 4 * d.toInt)).toNat
      (bcHolds cc (k0.getG gA) = false → s.does c (.bc c gA cc d) (fun k => k)) ∧
      (bcHolds cc (k0.getG gA) = true → k0.targetOk t = true → s.doesJump c (.bc c gA cc d) (fun k => k.goTo k0.pcc t)))

/-- R138: lp.set starts loop n: LCn takes the count, LSn the next bundle and LEn the bundle DISP syllables on; a count of 0 sets them
and goes past the bundle at LEn. -/
def Sys2Proof.loopSet : Prop :=
  ∀ (c : CoreId) (n : BitVec 1) (gA : GReg) (d : BitVec 13) (s : State),
    let k0 := s.core c
    let cnt := k0.getG gA
    let le := (k0.pc + 4 * d.toNat) % 2 ^ 64
    let set (k : Core) : Core := { (((k.setReg (rLC n.toNat) cnt).setReg (rLS n.toNat) (BitVec.ofNat 64 (k0.pc + 4))).setReg (rLE n.toNat)
      (BitVec.ofNat 64 le)) with lpLast := n == 1 }
    (cnt ≠ 0 → s.does c (.lpSet c n gA d) set) ∧
    (cnt = 0 → ∀ ws, s.fetchAt c le = .ok ws → k0.targetOk ((le + 4 * ws.length) % 2 ^ 64) = true →
      s.doesJump c (.lpSet c n gA d) (fun k => (set k).goTo k0.pcc ((le + 4 * ws.length) % 2 ^ 64)))

/-- R138: what the core does after a bundle that sets no address itself: it moves past the bundle, or, where a loop's end lies at the
bundle and its count is above 1, the count falls by 1 and the core goes to the loop's start; a count of 1 ends the loop. -/
def Sys2Proof.loopSteps : Prop :=
  ∀ (k : Core) (len : Nat),
    let lc (n : Nat) := k.reg (rLC n)
    let atEnd (n : Nat) := (k.reg (rLE n)).toNat = k.pc
    ((lc 0 = 0 ∨ ¬atEnd 0) → (lc 1 = 0 ∨ ¬atEnd 1) →
      k.advance len false = { (k.setScap 0 (k.pcc.moved ((k.pc + 4 * len) % 2 ^ 64))) with held := none }) ∧
    (∀ n, n < 2 → atEnd n → 1 < (lc n).toNat → (lc (1 - n) = 0 ∨ ¬atEnd (1 - n)) →
      k.advance len false = { ((k.setReg (rLC n) (lc n - 1)).setScap 0 (k.pcc.moved (k.reg (rLS n)).toNat)) with held := none }) ∧
    (∀ n, n < 2 → atEnd n → lc n = 1 → (lc (1 - n) = 0 ∨ ¬atEnd (1 - n)) →
      k.advance len false = { ((k.setReg (rLC n) 0).setScap 0 (k.pcc.moved ((k.pc + 4 * len) % 2 ^ 64))) with held := none })

/-- R138: counted loops: lp.set, and what the core does after each bundle. Where the rules leave a
point open it follows the model's own choices (logs 55, 72), which are no rules of the spec. -/
def Obligations.CountedLoops : Prop := loopSet ∧ loopSteps

/-- R133, R142, R166, R167: sys makes a class 1 exception due; fence waits for the store buffer and the loads in flight, idle for an
interrupt source. -/
def Sys2Proof.controlInstructions : Prop :=
  ∀ (c : CoreId) (s : State),
    let k0 := s.core c
    (∀ imm : BitVec 16, s.does c (.sys c imm) (fun k => { k with exc := some { cls := 1, code := imm } })) ∧
    (k0.storeBuf = [] → k0.lateLoads = [] → s.does c (.fence c) id) ∧
    ((k0.storeBuf ≠ [] ∨ k0.lateLoads ≠ []) → s.doesHold c (.fence c) .fence) ∧
    (k0.fld 0x1618 7 0 ≠ 0 → s.does c (.idle c) id) ∧
    (k0.fld 0x1618 7 0 = 0 → s.doesHold c (.idle c) .idle)

/-- R138, R141, R181: ctl.wr writes a register of its core; one that would change a SYS field needs a PCC with SYS, and a loop address
written flushes the prefetch queue. MLO, MHI, the loop registers and EXTIMER take the value whole. -/
def Sys2Proof.controlWrite : Prop :=
  ∀ (c : CoreId) (gA : GReg) (idx : BitVec 12) (s : State),
    let k0 := s.core c
    let i := Instr.ctlWr c gA idx
    let off := 0x1000 + 8 * idx.toNat
    let v := k0.getG gA
    let sys := if off = 0x1610 then 0xFF01 else if off = 0x1630 then 2 ^ 64 - 1 else 0
    let same := v.toNat &&& sys = (k0.reg off).toNat &&& sys
    (k0.pcc.perm pSYS = false → ¬same → s.doesFault c i 0x1043 0) ∧
    (k0.pcc.perm pSYS = true ∨ same →
      (off ∈ [0x1510, 0x1518, 0x1520, 0x1528, 0x1630] → s.does c i (fun k => k.setReg off v)) ∧
      (off ∈ [0x1530, 0x1538, 0x1540, 0x1548] → s.does c i (fun k => (k.setReg off v).flushQueue)) ∧
      (off ∉ [0x1530, 0x1538, 0x1540, 0x1548] → s.takes c i = true →
        exec i s = .next ((s.updCore c (fun k => k.advance 1 false)).writeCore (.agent c) c off v (2 ^ 64 - 1))))

/-- R133, R138, R141, R142, R166, R167, R181: sys, fence, idle and ctl.wr. -/
def Obligations.ControlInstructions : Prop := controlInstructions ∧ controlWrite

/-- R156, R162, R163, R164: the capability operations and what they fault on. -/
def Sys2Proof.capabilityOps : Prop :=
  ∀ (c : CoreId) (gD gB : GReg) (cD cA cB : CReg) (s : State),
    let k0 := s.core c
    let x := k0.getC cA
    let y := k0.getC cB
    let b := (k0.getG gB).toNat
    let put (i : Instr) (z : Cap) : Prop := s.does c i (fun k => k.setC cD z)
    let fault (i : Instr) (code : BitVec 16) : Prop := s.doesFault c i code 0
    let sealer := y.usable && y.perm pSEAL && decide (1 ≤ y.addr) && decide (y.addr ≤ 14)
    let kept (z : Cap) : Cap := { z with tag := z.tag && x.usable }
    (∀ f : BitVec 3, s.does c (.capGetf c gD cA f) (fun k => k.setG gD (BitVec.ofNat 64 (match f.toNat with
      | 0 => x.addr | 1 => x.base | 2 => x.top - x.base | 3 => x.top | 4 => x.perms | 5 => x.ctx.toNat | 6 => x.seal | _ => x.tagged.toNat)))) ∧
    put (.capSeta c cD cA gB) (kept (x.moved b)) ∧ put (.capAdda c cD cA gB) (kept (x.moved ((x.addr + b) % 2 ^ 64))) ∧
    put (.capMv c cD cA) x ∧ put (.capClrt c cD cA) { x with tag := false } ∧
    (x.usable = true → put (.capAndp c cD cA gB) (x.setPerms (x.perms &&& b))) ∧
    (x.usable = false → fault (.capAndp c cD cA gB) 0x1040 ∧ fault (.capSeal c cD cA cB) 0x1040 ∧
      fault (.capSetb c cD cA gB) 0x1040 ∧ fault (.capSetbo c cD cA gB) 0x1040) ∧
    (x.usable = true → sealer = true → put (.capSeal c cD cA cB) (x.setSeal y.addr)) ∧
    (x.usable = true → sealer = false → fault (.capSeal c cD cA cB) 0x1042) ∧
    (x.tagged = true → sealer = true → x.seal = y.addr → put (.capUnseal c cD cA cB) (x.setSeal 0)) ∧
    (x.tagged = true → (sealer = false ∨ x.seal ≠ y.addr) → fault (.capUnseal c cD cA cB) 0x1042) ∧
    (x.tagged = false → fault (.capUnseal c cD cA cB) 0x1040) ∧
    (∀ p : BitVec 4, s.does c (.capChk c gD cA gB p) (fun k => k.setG gD (if x.allows [p.toNat] x.addr b then 1 else 0))) ∧
    (∀ n : BitVec 3, n.toNat < 5 →
      ((n.toNat < 2 ∨ k0.pcc.perm pSYS = true) → put (.capRds c cD n) (k0.scap.get (scapIx n))) ∧
      (2 ≤ n.toNat → k0.pcc.perm pSYS = false → fault (.capRds c cD n) 0x1043) ∧
      ((k0.pcc.perm pSYS = false ∨ n = 0) → fault (.capWrs c n cA) 0x1043) ∧
      (k0.pcc.perm pSYS = true → n = 2 → ¬(x.perm pESTK = true ∧ x.tile = true) → fault (.capWrs c n cA) 0x1042) ∧
      (k0.pcc.perm pSYS = true → n ≠ 0 → (n = 2 → x.perm pESTK = true ∧ x.tile = true) →
        s.does c (.capWrs c n cA) (fun k => k.setScap (scapIx n) x)))

/-- R164: cap.setb and cap.setbo narrow the bounds: exactly, or rounded outward to the exponent's multiples; what the source does not
hold faults. -/
def Sys2Proof.capabilityBounds : Prop :=
  (∀ len : Nat, len < 2 ^ 64 → len < 2 ^ (leastE len + 17) ∧ ∀ e, e < leastE len → 2 ^ (e + 17) ≤ len) ∧
  ∀ (c : CoreId) (gB : GReg) (cD cA : CReg) (s : State),
    let x := (s.core c).getC cA
    let len := ((s.core c).getG gB).toNat
    let e := leastE len
    let inside (lo n : Nat) := x.base ≤ lo ∧ lo + n ≤ x.top
    x.usable = true →
      ((x.addr % 2 ^ e ≠ 0 ∨ len % 2 ^ e ≠ 0) → s.doesFault c (.capSetb c cD cA gB) 0x1041 0) ∧
      (x.addr % 2 ^ e = 0 → len % 2 ^ e = 0 →
        (inside x.addr len → e ≤ 47 → ∃ z : Cap, s.does c (.capSetb c cD cA gB) (fun k => k.setC cD z) ∧
          z.base = x.addr ∧ z.top = x.addr + len ∧ z.addr = x.addr ∧ z.perms = x.perms ∧ z.ctx = x.ctx ∧ z.seal = x.seal ∧ z.tag = x.tag) ∧
        (¬inside x.addr len → s.doesFault c (.capSetb c cD cA gB) 0x1042 0)) ∧
      ∃ e' lo n : Nat, (e' = e ∨ e' = e + 1) ∧ lo = x.addr / 2 ^ e' * 2 ^ e' ∧ (lo + n) % 2 ^ e' = 0 ∧ x.addr + len ≤ lo + n ∧
        lo + n < x.addr + len + 2 ^ e' ∧ n < 2 ^ (e' + 17) ∧
        (inside lo n → e' ≤ 47 → ∃ z : Cap, s.does c (.capSetbo c cD cA gB) (fun k => k.setC cD z) ∧ z.base = lo ∧ z.top = lo + n ∧ z.addr = x.addr) ∧
        (¬inside lo n → s.doesFault c (.capSetbo c cD cA gB) 0x1042 0)

/-- R160 to R165: what the capability instructions compute, and where they fault. Where the rules leave a
point open it follows the model's own choices (logs 72, 75), which are no rules of the spec. -/
def Obligations.Capabilities : Prop := capabilityOps ∧ capabilityBounds


/-- The scalar loads and stores of slot 3: size in bytes, and whether a load extends the sign (R136). -/
def Sys2Proof.loadForms : List ((CoreId → MemF → Instr) × Nat × Bool) :=
  [(Instr.ldB, 1, true), (Instr.ldBu, 1, false), (Instr.ldH, 2, true), (Instr.ldHu, 2, false), (Instr.ldW, 4, true), (Instr.ldWu, 4, false),
   (Instr.ldD, 8, false)]
def Sys2Proof.storeForms : List ((CoreId → MemF → Instr) × Nat) := [(Instr.stB, 1), (Instr.stH, 2), (Instr.stW, 4), (Instr.stD, 8)]

/-- R137, R145: what every slot 3 access does to its core beside its own data: the addressing mode's update, and the count of an
access that crosses a 64-byte boundary. -/
def Sys2Proof.memMoved (m : MemF) (n : Nat) (k0 k : Core) : Core :=
  memApply m n k0 (if 64 < (memEa m k0 n).toNat % 64 + n then k.count 0x1568 63 0 1 else k)

/-- R136, R137, R143, R144, R159, R160: a load from tile memory writes gD extended, with the tag for ld.c; bytes that a buffered store
holds whole come from it while FWD = 1, and otherwise hold the load; an access that its capability does not allow faults. -/
def Sys2Proof.tileLoads : Prop :=
  ∀ (c : CoreId) (m : MemF) (s : State),
    let k0 := s.core c
    let cm := k0.getC m.cM
    (∀ p ∈ loadForms,
      let i := p.1 c m
      let n := p.2.1
      let ea := (memEa m k0 n).toNat
      (cm.allows [pLD] ea n = false → s.doesFault c i 0x1014 (BitVec.ofNat 64 ea)) ∧
      (cm.allows [pLD] ea n = true → cm.tile = true → ea + n ≤ Config.tileBytes →
        (k0.youngest (bytesAt .tile ea n) = none →
          s.does c i (fun k => (memMoved m n k0 k).putG m.gD (loadWord n p.2.2 (k0.tileRead ea n)) (k0.tilePois ea n))) ∧
        (∀ e, k0.youngest (bytesAt .tile ea n) = some e → (bytesAt .tile ea n).all e.has = true → k0.fld 0x1508 0 0 = 1 →
          s.does c i (fun k => (memMoved m n k0 k).putG m.gD (loadWord n p.2.2 ((bytesAt .tile ea n).map e.byteAt)) false)) ∧
        (∀ e, k0.youngest (bytesAt .tile ea n) = some e → ¬((bytesAt .tile ea n).all e.has = true ∧ k0.fld 0x1508 0 0 = 1) →
          s.takes c i = true → ∃ t, exec i s = .next t ∧ (s.updCore c (fun k => k.count 0x1560 63 0 1)).heldFor t c .overlap))) ∧
    (let ea := (memEa m k0 16).toNat
     (ea % 16 ≠ 0 → s.doesFault c (.ldC c m) 0x1013 (BitVec.ofNat 64 ea)) ∧
     (ea % 16 = 0 → cm.allows [pLD] ea 16 = false → s.doesFault c (.ldC c m) 0x1014 (BitVec.ofNat 64 ea)) ∧
     (ea % 16 = 0 → cm.allows [pLD] ea 16 = true → cm.tile = true → ea + 16 ≤ Config.tileBytes → k0.youngest (bytesAt .tile ea 16) = none →
       let x : Cap := { bits := BitVec.ofNat 128 (k0.tileNat ea 16), tag := k0.tileTag ea && cm.perm pLDC && !k0.tilePois ea 16 }
       s.does c (.ldC c m) (fun k => (memMoved m 16 k0 k).setC (m.gD.setWidth 4) { x with tag := x.tag && !x.malformed })))

/-- R136, R143, R159: a store puts its bytes, and st.c its tag, into the store buffer, which holds 8; a tagged capability needs STC. -/
def Obligations.TileStores : Prop :=
  ∀ (c : CoreId) (m : MemF) (s : State),
    let k0 := s.core c
    let cm := k0.getC m.cM
    let put (i : Instr) (n ea : Nat) (bs : List Byte) (tag : Option Bool) : Prop := s.does c i (fun k =>
      let q := memMoved m n k0 k
      { q with storeBuf := q.storeBuf ++ [{ bytes := (bytesAt .tile ea n).zip bs, ctx := cm.ctx, nc := false, cap := tag, va := BitVec.ofNat 64 ea }] })
    (∀ p ∈ storeForms,
      let i := p.1 c m
      let n := p.2
      let ea := (memEa m k0 n).toNat
      (cm.allows [pST] ea n = false → s.doesFault c i 0x1014 (BitVec.ofNat 64 ea)) ∧
      (cm.allows [pST] ea n = true → cm.tile = true → ea + n ≤ Config.tileBytes →
        (k0.storeBuf.length < 8 → put i n ea (leBytes n (k0.getG m.gD).toNat) none) ∧
        (8 ≤ k0.storeBuf.length → s.doesHold c i .storeBufFull))) ∧
    (let ea := (memEa m k0 16).toNat
     let x := k0.getC (m.gD.setWidth 4)
     (ea % 16 ≠ 0 → s.doesFault c (.stC c m) 0x1013 (BitVec.ofNat 64 ea)) ∧
     (ea % 16 = 0 → cm.allows [pST] ea 16 = false → s.doesFault c (.stC c m) 0x1014 (BitVec.ofNat 64 ea)) ∧
     (ea % 16 = 0 → cm.allows [pST] ea 16 = true → cm.tile = true → ea + 16 ≤ Config.tileBytes →
       (x.tagged = true → cm.perm pSTC = false → s.doesFault c (.stC c m) 0x1014 (BitVec.ofNat 64 ea)) ∧
       ((x.tagged = false ∨ cm.perm pSTC = true) → k0.storeBuf.length < 8 → put (.stC c m) 16 ea (leBytes 16 x.bits.toNat) (some x.tagged))))

/-- R137, R237: pf updates its address register and takes no fault: a prefetch in tile memory, or one that its capability does not
allow, is dropped; one of a cacheable line leaves the line in the L1D or the basket. -/
def Sys2Proof.prefetch : Prop :=
  ∀ (c : CoreId) (m : MemF) (s : State),
    let k0 := s.core c
    let cm := k0.getC m.cM
    let ea := (memEa m k0 64).toNat
    ((cm.tile = true ∨ cm.allows [pLD] ea 64 = false) → s.does c (.pf c m) (memApply m 64 k0)) ∧
    (∀ x key, cm.tile = false → cm.allows [pLD] ea 64 = true →
      (s.retired c (.pf c m) (memApply m 64 k0)).xlateSpan c cm.ctx ea 64 .load = .ok x → cacheable x = true → lineKeys x.bytes = [key] →
      (isHost key = true ∨ s.frameOk (some cm.ctx) (64 * key) = true) → s.takes c (.pf c m) = true → ∃ t, exec (.pf c m) s = .next t ∧
        (((t.core c).l1d.any (fun l => l.key == key)) || ((t.core c).basket.any (fun l => l.key == key))) = true)

/-- R136, R137, R143, R144, R159, R160, R237: loads from tile memory, and prefetches. Where the rules leave a
point open it follows the model's own choices (logs 72, 75), which are no rules of the spec. -/
def Obligations.TileLoadsAndPrefetch : Prop := tileLoads ∧ prefetch

/-- R135, R147: the products and quotients that slot 4 sends on their way; a divide by 0 gives 0 and the dividend, and traps where its
trap is enabled; the quotient that does not fit is the dividend; a divide in flight holds every later one. -/
def Obligations.MultiplyDivide : Prop :=
  ∀ (c : CoreId) (gA gB : GReg) (s : State),
    let k0 := s.core c
    let a := k0.getG gA
    let b := k0.getG gB
    let busy := k0.products.any Product.divide
    let sends (i : Instr) (lo hi : W64) (dv : Bool) : Prop := s.does c i (fun k => { k with products := k.products ++ [⟨lo, hi, dv⟩] })
    let tooBig := a.toInt = -2 ^ 63 ∧ b.toInt = -1
    (busy = true → ∀ i ∈ [Instr.mulS c gA gB, .mulU c gA gB, .divS c gA gB, .divU c gA gB], s.doesHold c i .divide) ∧
    (busy = false →
      (∃ lo hi : W64, (hi.toInt * 2 ^ 64 + lo.toNat = a.toInt * b.toInt) ∧ sends (.mulS c gA gB) lo hi false) ∧
      (∃ lo hi : W64, hi.toNat * 2 ^ 64 + lo.toNat = a.toNat * b.toNat ∧ sends (.mulU c gA gB) lo hi false) ∧
      (b = 0 → (k0.fld 0x1600 0 0 = 1 → s.doesFault c (.divS c gA gB) 0x1030 0 ∧ s.doesFault c (.divU c gA gB) 0x1030 0) ∧
        (k0.fld 0x1600 0 0 = 0 → sends (.divS c gA gB) 0 a true ∧ sends (.divU c gA gB) 0 a true)) ∧
      (tooBig → (k0.fld 0x1600 1 1 = 1 → s.doesFault c (.divS c gA gB) 0x1031 0) ∧ (k0.fld 0x1600 1 1 = 0 → sends (.divS c gA gB) a 0 true)) ∧
      (b ≠ 0 → ¬tooBig → ∃ q r : W64, q.toInt * b.toInt + r.toInt = a.toInt ∧ r.toInt.natAbs < b.toInt.natAbs ∧
        (r = 0 ∨ (0 ≤ r.toInt ↔ 0 ≤ a.toInt)) ∧ sends (.divS c gA gB) q r true) ∧
      (b ≠ 0 → ∃ q r : W64, q.toNat * b.toNat + r.toNat = a.toNat ∧ r.toNat < b.toNat ∧ sends (.divU c gA gB) q r true))

/-- R132, R141: a bundle retires whole: each syllable's outcome is found on the state before the bundle, and the effects apply in slot
order. Where one faults and none holds, the lowest faulting slot's fault is taken and nothing has changed but the fetch. -/
def Sys2Proof.bundlePassage : Prop :=
  ∀ (c : CoreId) (stall ahead : Nat) (s s1 : State) (ws : List W32) (l : List Syl),
    let k0 := s.core c
    let ps := l.map (fun (y : Syl) => y.piece c)
    let n := ws.length
    k0.run = .running → k0.exc = none → s.fetchHead c = .ok (s1, ws) → bundleOf c ws = .ok l → (s1.core c).ready ps = true →
    (∀ p ∈ ps, p.waits (s1.core c) = false) →
      ((∀ p ∈ ps, ∃ u, p.issue n s1 c = .go u) → (s1.core c).loopOk = true →
        exec (.bundleIssue c stall ahead) s =
          .next ((s1.retireBundle c (ps.map (fun p => (p, p.issue n s1 c))) n (ps.any (fun p => p.jumps (s1.core c)))).leaveD c k0.pc ahead)) ∧
      (∀ a p b code addr, ps = a ++ p :: b → (∀ q ∈ ps, (q.issue n s1 c).holds = none) → (∀ q ∈ a, (q.issue n s1 c).faults = none) →
        p.issue n s1 c = .fault code addr → ¬(0x7010 ≤ code.toNat ∧ code.toNat ≤ 0x703F) →
        exec (.bundleIssue c stall ahead) s = .next ((s1.updCore c (fun k =>
          { k with held := none, exc := some { cls := 0, code := code, addr := addr, syl := p.syl, slot := p.slot, len := n } })).leaveD c k0.pc ahead))

/-- R132: a bundle of one syllable does what the command that names the syllable does. -/
def Sys2Proof.bundleOfOne : Prop :=
  ∀ (c : CoreId) (stall ahead : Nat) (i : Instr) (y : Syl) (s s1 : State) (ws : List W32),
    (s.core c).run = .running → (s.core c).exc = none → s.fetchHead c = .ok (s1, ws) → bundleOf c ws = .ok [y] →
    pieceOf i = some (y.piece c) → ws.length = syllablesOf i → s1.takes c i = true →
      exec (.bundleIssue c stall ahead) s = .next ((s1.issueOne c i).leaveD c (s.core c).pc ahead)

/-- R132, R141: the passage of a bundle, of many syllables and of one. Where the rules leave a
point open it follows the model's own choices (logs 72, 74), which are no rules of the spec. -/
def Obligations.Bundles : Prop := bundlePassage ∧ bundleOfOne


/-- R166, R167: which exception is due: a bundle's own, then the debug halt, then the lowest interrupt source that is pending and
enabled, at depth 0 or 1 with IE = 1. -/
def Obligations.ExceptionPriority : Prop :=
  ∀ k : Core,
    let on (n : Nat) : Prop := n < 8 ∧ (k.reg 0x1618).toNat.testBit n = true ∧ (k.reg 0x1610).toNat.testBit (8 + n) = true
    let open_ : Prop := k.fld 0x1610 0 0 = 1 ∧ k.fld 0x1608 1 0 ≤ 1
    (∀ e, k.exc = some e → k.due = some { cls := e.cls, code := e.code, addr := e.addr, syl := e.syl, slot := e.slot, len := e.len }) ∧
    (k.exc = none → k.haltReq = true → k.due = some { cls := 3, code := 0 }) ∧
    (k.exc = none → k.haltReq = false → open_ → ∀ n, on n → (∀ m, m < n → ¬on m) → k.due = some { cls := 2, code := BitVec.ofNat 16 n }) ∧
    (k.exc = none → k.haltReq = false → (¬open_ ∨ ∀ n, ¬on n) → k.due = none)

/-- The frame of an exception as R170 and R171 lay it out at lo: q is the core after entry, k the core as it stood. -/
def Sys2Proof.frameHolds (k q : Core) (c : CoreId) (d : Due) (lo : Nat) : Prop :=
  q.tileNat lo 1 = 1 ∧ q.tileNat (lo + 1) 1 = k.depth ∧ q.tileNat (lo + 4) 2 = d.code.toNat ∧ q.tileNat (lo + 6) 1 = d.cls % 256 ∧
  q.tileNat (lo + 8) 8 = d.addr.toNat ∧ q.tileNat (lo + 16) 8 = (k.reg 0x1628).toNat ∧ q.tileNat (lo + 24) 4 = d.syl.toNat ∧
  (∀ (n : Nat) (x : Cap), k.frameCaps[n]? = some x →
    q.tileNat (lo + 0x40 + 16 * n) 16 = x.bits.toNat ∧ q.tileTag (lo + 0x40 + 16 * n) = x.tagged ∧ (q.tileNat (lo + 32) 3).testBit n = x.tagged) ∧
  (∀ (n : Nat) (e : VEntry), (k.vq.filter (fun e => e.seq.isNone))[n]? = some e → q.tileRead (lo + 0x160 + 64 * n) 64 = vDarn c e) ∧
  (∀ r : GReg, r ≠ 0 → q.tileNat (lo + 0x358 + 8 * r.toNat) 8 = (k.getG r).toNat) ∧
  (∀ (n r : Nat), frameRegs[n]? = some r → q.tileNat (lo + 0x558 + 8 * n) 8 = (k.reg r).toNat) ∧
  q.tileNat (lo + 0x598) 8 = k.vl.toNat

/-- R166, R168 to R171: an exception pushes a frame of 1,536 bytes below ESCAP and enters the handler of EHCAP; the cause and its
address are noted, the depth rises, IE and SKIP clear, and the other registers and the rest of tile memory stay. k is the core with
its vector engine stopped (R128). Where the rules leave a
point open it follows the model's own choices (logs 41, 74), which are no rules of the spec. -/
def Obligations.ExceptionEntry : Prop :=
  ∀ (c : CoreId) (beats : List Nat) (s : State) (d : Due),
    let k0 := s.core c
    let k := k0.vStop beats (Config.freeNat s.freeCtr)
    let lo := k.escap.addr - 1536
    k0.due = some d → k0.run = .running → k0.settled = true → ¬(2 ≤ d.cls ∧ k0.heldInM = true) →
    k.depth ≤ 1 → 1536 ≤ k.escap.addr → k.escapOk lo = true → k.vq.length ≤ 8 →
      ∃ q : Core, exec (.exceptionEntry c beats) s = .next (({ s with freeCtr := s.freeCtr + 1 } : State).setCore c q) ∧
        frameHolds k q c d lo ∧ (∀ a, (a < lo ∨ lo + 1536 ≤ a) → q.tileByte a = k.tileByte a) ∧
        q.pcc = k.scap[3] ∧ q.rscap = k.rscap ∧ q.escap = k.escap.moved lo ∧ q.scap[3] = k.scap[3] ∧ q.scap[4] = k.scap[4] ∧
        q.depth = k.depth + 1 ∧ q.fld 0x1608 2 2 = k.fld 0x1608 2 2 ∧ q.fld 0x1608 63 48 = d.code.toNat ∧ q.fld 0x1608 7 6 = d.cls % 4 ∧
        q.fld 0x1610 1 0 = 0 ∧ q.fld 0x1610 15 8 = k.fld 0x1610 15 8 ∧ q.reg 0x1620 = d.addr ∧ q.reg 0x1628 = k.reg 0x1628 + 1 ∧
        q.g = k.g ∧ q.c = k.c ∧ q.v = k.v ∧ q.vm = k.vm ∧ q.vl = k.vl ∧ q.vq = [] ∧ q.pq = [] ∧ q.held = none ∧ q.exc = none ∧
        (∀ r ∈ frameRegs, q.reg r = k.reg r)

/-- R177: an exception at depth 2, or one whose frame ESCAP cannot take, writes the emergency frame, halts the core and is reported. -/
def Sys2Proof.nestedFaults : Prop :=
  ∀ (c : CoreId) (beats : List Nat) (s : State) (d : Due),
    let k0 := s.core c
    let k := k0.vStop beats (Config.freeNat s.freeCtr)
    let room : Prop := 1536 ≤ k.escap.addr ∧ k.escapOk (k.escap.addr - 1536) = true
    let em := Config.emergencyBase
    k0.due = some d → k0.run = .running → k0.settled = true → ¬(2 ≤ d.cls ∧ k0.heldInM = true) → k.depth = 2 ∨ ¬room →
      ∃ t r, exec (.exceptionEntry c beats) s = .next t ∧ t.frWait = s.frWait ++ [r] ∧ r.num = c.val ∧ r.addr = d.addr ∧
        r.code = (if k.depth = 2 then 0x1052 else 0x1051) ∧
        let q := t.core c
        q.run = .halted ∧ q.fld 0x1608 3 3 = 1 ∧ q.fld 0x1608 63 48 = r.code.toNat ∧ q.fld 0x1608 7 6 = d.cls % 4 ∧ q.depth = k.depth ∧
        q.g = k.g ∧ q.c = k.c ∧ q.scap = k.scap ∧
        q.tileNat (em + 0x40) 16 = k.pcc.bits.toNat ∧ q.tileNat (em + 0x50) 16 = k.escap.bits.toNat ∧ q.tileNat (em + 0x60) 16 = k.rscap.bits.toNat ∧
        (∀ r : GReg, 1 ≤ r.toNat → r.toNat ≤ 31 → q.tileNat (em + 0x78 + 8 * r.toNat) 8 = (k.getG r).toNat) ∧
        ∀ a, a < em → q.tileByte a = k.tileByte a

/-- R173 to R176: eret restores the frame at ESCAP's address: the capabilities with the tags that the mask and the granules agree on, the
general registers, the loop registers, VL, the depth and IE; ESCAP rises by 1,536; a fault's handler that set SKIP goes past the bundle. -/
def Obligations.Eret : Prop :=
  ∀ (c : CoreId) (s : State),
    let k0 := s.core c
    let lo := k0.escap.addr
    let h := k0.tileNat lo 64
    let raw (n : Nat) : Cap := { bits := BitVec.ofNat 128 (k0.tileNat (lo + 0x40 + 16 * n) 16), tag := (h >>> 256).testBit n && k0.tileTag (lo + 0x40 + 16 * n) }
    let cap (n : Nat) : Cap := { raw n with tag := (raw n).tag && !(raw n).malformed }
    ((k0.storeBuf ≠ [] ∨ k0.vq ≠ []) → s.doesHold c (.eret c) .eret) ∧
    (k0.storeBuf = [] → k0.vq = [] →
      (k0.depth = 0 → s.doesFault c (.eret c) 0x1053 0) ∧
      (k0.depth ≠ 0 → k0.escapOk lo = true → k0.frameSound lo = true → k0.sealMatches lo = true → s.takes c (.eret c) = true →
        ∃ q : Core, exec (.eret c) s = .next (s.setCore c q) ∧
          q.pcc = (if k0.fld 0x1610 1 1 = 1 ∧ bitsOf h 55 48 = 0 then (cap 0).moved ((cap 0).addr + 4 * bitsOf h 63 56) else cap 0) ∧
          q.rscap = cap 1 ∧ (∀ r : CReg, q.getC r = cap (r.toNat + 2)) ∧ q.escap = k0.escap.moved (lo + 1536) ∧
          (∀ r : GReg, r ≠ 0 → q.getG r = BitVec.ofNat 64 (k0.tileNat (lo + 0x358 + 8 * r.toNat) 8) ∧
            q.poisoned r = k0.tilePois (lo + 0x358 + 8 * r.toNat) 8) ∧
          (∀ (n r : Nat), frameRegs[n]? = some r → q.reg r = BitVec.ofNat 64 (k0.tileNat (lo + 0x558 + 8 * n) 8)) ∧
          q.vl = BitVec.ofNat 13 (k0.tileNat (lo + 0x598) 8) ∧ q.depth = bitsOf h 9 8 ∧ q.fld 0x1608 2 2 = 0 ∧ q.fld 0x1610 0 0 = bitsOf h 24 24 ∧
          q.fld 0x1610 1 1 = 0 ∧ q.tile = k0.tile ∧ q.tileTags = k0.tileTags ∧ q.pq = [] ∧ q.held = none ∧ q.v = k0.v))

/-- R175, R177: a frame that fails its checks enters the handler of FBCAP with its address in EXADDR, once; while FB is 1 the core
halts. -/
def Sys2Proof.sealFaults : Prop :=
  ∀ (c : CoreId) (s : State),
    let k0 := s.core c
    let lo := k0.escap.addr
    k0.storeBuf = [] → k0.vq = [] → k0.depth ≠ 0 → (k0.escapOk lo && k0.frameSound lo && k0.sealMatches lo) = false → s.takes c (.eret c) = true →
      ∃ t r, exec (.eret c) s = .next t ∧ t.frWait = s.frWait ++ [r] ∧ r.num = c.val ∧
        let q := t.core c
        q.depth = k0.depth ∧ q.g = k0.g ∧ q.c = k0.c ∧ q.escap = k0.escap ∧ (∀ a, a < Config.emergencyBase → q.tileByte a = k0.tileByte a) ∧
        (k0.fld 0x1608 2 2 = 0 → r.code = 0x1050 ∧ q.run = .running ∧ q.pcc = k0.scap[4] ∧ q.fld 0x1608 2 2 = 1 ∧ q.fld 0x1608 63 48 = 0x1050 ∧
          q.reg 0x1620 = BitVec.ofNat 64 lo ∧ q.pq = []) ∧
        (k0.fld 0x1608 2 2 = 1 → r.code = 0x1051 ∧ q.run = .halted ∧ q.fld 0x1608 3 3 = 1)

/-- R172, R175, R177: the faults of the exception machinery itself: what halts a core, and what enters the handler of FBCAP. Where the rules leave a
point open it follows the model's own choices (logs 41, 74), which are no rules of the spec. -/
def Obligations.FrameFaults : Prop := nestedFaults ∧ sealFaults


/-- R168 to R174: what an exception pushes, eret puts back: a frame just pushed is sound, its seal matches, and its restoration gives
every register, capability, depth and enable its value from before the exception; a malformed capability comes back untagged (R158). Where the rules leave a
point open it follows the model's own choices (logs 41, 85), which are no rules of the spec. -/
def Obligations.EntryThenReturn : Prop :=
  ∀ (c : CoreId) (k : Core) (d : Due),
    let lo := k.escap.addr - 1536
    let q := k.pushFrame c d
    let r := q.restore c lo
    let sound (x : Cap) : Cap := { x with tag := x.tag && !x.malformed }
    k.depth ≤ 1 → 1536 ≤ k.escap.addr → k.escapOk lo = true → k.vq = [] →
      q.frameSound lo = true ∧ q.sealMatches lo = true ∧ q.escapOk lo = true ∧
      (∀ n : GReg, r.getG n = k.getG n) ∧ (∀ n : CReg, r.getC n = sound (k.getC n)) ∧ r.pcc = sound k.pcc ∧ r.rscap = sound k.rscap ∧ r.escap = k.escap ∧
      r.vl = k.vl ∧ r.depth = k.depth ∧ r.ie = k.ie ∧ (∀ x ∈ frameRegs, r.reg x = k.reg x) ∧
      ∀ a, (a < lo ∨ lo + 1536 ≤ a) → r.tileByte a = k.tileByte a

/-- R46, R55, R167, R238, R335, R400, R148: the events that act on one core's registers, and nothing else of the package. -/
def Obligations.CoreEvents : Prop :=
  ∀ (c : CoreId) (s : State),
    let k0 := s.core c
    let becomes (i : Instr) (f : Core → Core) : Prop := exec i s = .next (s.updCore c f)
    ((k0.reg 0x1630).toNat ≤ (s.die (coreDie c)).ts.toNat → becomes (.timerInterrupt c) (fun k => k.setFld 0x1618 1 1 1)) ∧
    ((s.die (coreDie c)).ts.toNat < (k0.reg 0x1630).toNat → exec (.timerInterrupt c) s = .next s) ∧
    (2 ≤ s.trust.openScope → becomes (.debugHaltRequest c) (fun k => { k with haltReq := true })) ∧
    (s.trust.openScope < 2 → exec (.debugHaltRequest c) s = .next s) ∧
    (∀ beats, ∃ t, exec (.amaxclr c beats) s = .next t ∧ (t.core c).reg 0x1010 = 0 ∧
      (k0.vq = [] → t = ({ s with freeCtr := s.freeCtr + 1 } : State).updCore c (fun k => k.setReg 0x1010 0))) ∧
    (∀ v : W32, becomes (.lexitWrite c v) (fun k => { (k.setReg 0x1C00 (v.setWidth 64)) with run := .halted, held := none, launch := none })) ∧
    becomes (.l1Icinv c) (fun k => ({ k with l1i := [] } : Core).flushQueue) ∧
    becomes (.l1Dcinv c) (fun k => { k with l1d := [], basket := [] }) ∧
    (∀ p r, k0.products = p :: r → becomes (.productLands c) (fun k => (({ k with products := r } : Core).setReg 0x1510 p.lo).setReg 0x1518 p.hi)) ∧
    (∀ h, k0.held = some h → h.why = .tqEmpty → k0.queuesResult = false → k0.fld 0x1418 0 0 = 1 → ∃ e : Exc, e.code = 0x2021 ∧ e.cls = 0 ∧
      e.syl = h.syl ∧ e.slot = h.slot ∧ becomes (.tileQueueEmptyNoProducer c) (fun k => { k with held := none, exc := some e })) ∧
    (k0.fld 0x1B00 2 2 = 0 → exec (.stridePrefetchFill c) s = .next s) ∧
    (k0.fld 0x1B00 2 2 = 1 → ∃ t, exec (.stridePrefetchFill c) s = .next t ∧ (t.core c).stride = [] ∧
      ∀ a, (strideAhead k0.stride).getLast? = some a → paKind a = .dev → s.frameOk (some k0.strideCtx) a = true →
        ((t.core c).l1d.any (fun l => l.key == a / 64) || (t.core c).basket.any (fun l => l.key == a / 64)) = true)

/-- R142, R143, R159, R436: a late load's data land in its register; the oldest buffered store of tile memory changes its own bytes
and no others, clears the tags it touches, and takes the tag of an st.c. Where the rules leave a
point open it follows the model's own choices (logs 54), which are no rules of the spec. -/
def Obligations.LateLoadsAndStores : Prop :=
  ∀ (c : CoreId) (s : State),
    let k0 := s.core c
    (∀ (ix : Nat) (l : LateLoad) (hostData : List Byte) (hp : Bool), k0.lateLoads[ix]? = some l → l.need = 0 → l.bytes.any remoteAddr = false →
      s.loadGate c l.bytes = none → s.frameBad c l.ctx l.bytes = none → l.toCap = false → l.reg ≠ 0 →
        let r := (s.hostFill l.bytes hostData).loadLocal c l
        ∃ t, exec (.loadDataArrival c ix hostData hp) s = .next t ∧ (t.core c).getG l.reg = loadWord l.size l.sx r.1 ∧
          (t.core c).busyG l.reg = false ∧ (t.core c).poisoned l.reg = (r.2.2.1 || l.pois || (hp && l.bytes.any (fun a => a.sp == .host))) ∧
          ∀ g : GReg, g ≠ l.reg → (t.core c).getG g = k0.getG g) ∧
    (∀ (e : StoreE) (r : List StoreE) (a : Nat) (bs : List Byte) (hostData : List Byte), k0.storeBuf = e :: r → bs ≠ [] →
      e.bytes = (bytesAt .tile a bs.length).zip bs → (∀ tag, e.cap = some tag → bs.length = 16 ∧ a % 16 = 0) →
        ∃ q : Core, exec (.storeDrain c hostData) s = .next (s.setCore c q) ∧ q.storeBuf = r ∧
          (∀ n (h : n < bs.length), q.tileByte (a + n) = bs[n]) ∧ (∀ x, (x < a ∨ a + bs.length ≤ x) → q.tileByte x = k0.tileByte x) ∧
          (∀ x, a / 16 ≤ x / 16 → x / 16 ≤ (a + bs.length - 1) / 16 → q.tileTag x = e.cap.getD false) ∧
          (∀ x, (x / 16 < a / 16 ∨ (a + bs.length - 1) / 16 < x / 16) → q.tileTag x = k0.tileTag x) ∧ q.g = k0.g ∧ q.c = k0.c)

/-! ## The vector engine -/

/-- R114, R115: the element-wise floating-point instructions: whether FP64 is accepted, and whether a result is rounded. -/
def Sys2Proof.floatForms : List ((CoreId → VF → ExtA → Instr) × Bool × Bool) :=
  [(Instr.vxAdd, false, true), (Instr.vxSub, false, true), (Instr.vxMul, false, true), (Instr.vxDiv, false, true), (Instr.vxFma, false, true),
   (Instr.vxFms, false, true), (Instr.vxSqrt, false, true), (Instr.vxRndi, false, true), (Instr.vxLdexp, false, true),
   (Instr.vxMax, true, false), (Instr.vxMin, true, false), (Instr.vxAbs, true, false), (Instr.vxNeg, true, false), (Instr.vxCpsgn, false, false),
   (Instr.vxCmp, true, false), (Instr.vxRmaxB, true, false), (Instr.vxRminB, true, false), (Instr.vxRmaxBlk, false, false), (Instr.vxRsumBlk, false, false)]

/-- R114, R115: the integer instructions, with what one element becomes; results wrap, amounts are taken modulo the width. -/
def Sys2Proof.intForms : List ((CoreId → VF → ExtA → Instr) × ((w : Nat) → BitVec w → BitVec w → BitVec w)) :=
  [(Instr.vxIadd, fun _ a b => a + b), (Instr.vxIsub, fun _ a b => a - b), (Instr.vxAnd, fun _ a b => a &&& b), (Instr.vxOr, fun _ a b => a ||| b),
   (Instr.vxXor, fun _ a b => a ^^^ b), (Instr.vxShl, fun w a b => a <<< (b.toNat % w)), (Instr.vxShr, fun w a b => a >>> (b.toNat % w)),
   (Instr.vxSra, fun w a b => a.sshiftRight (b.toNat % w)), (Instr.vxImin, fun _ a b => if a.slt b then a else b),
   (Instr.vxImax, fun _ a b => if a.slt b then b else a), (Instr.vxImul, fun _ a b => a * b)]

/-- R48: a rounding field uses stream 0 where it names stochastic rounding, itself or as the default, with one draw for 8 elements. -/
def Sys2Proof.srDraws (k : Core) (rnd : BitVec 2) : Option (Nat × Nat) :=
  if rnd = 2 ∨ (rnd = 3 ∧ k.fld 0x1008 1 0 = 2) then some (0, (k.vl.toNat + 7) / 8) else none

/-- R48, R108, R112, R114, R115, R127: the checks and the entry into the queue of the element-wise instructions: each that meets its
own checks enters, and the first check that fails is its fault. A default rounding takes its draws by the VRND last written, which is
the model's choice (log 89). -/
def Obligations.VectorElementwiseIssue : Prop :=
  ∀ (c : CoreId) (f : VF) (x : ExtA) (s : State),
    let k := s.core c
    let tooBig (w : Nat) : Bool := decide (vlmax w < k.vl.toNat)
    let w := fmtWidth x.f1
    let enters (i : Instr) : Prop := s.takes c i = true → k.vq.length < 8 → ∃ q : Core, exec i s = .next (s.setCore c q) ∧
      q.vq.map VEntry.instr = k.vq.map VEntry.instr ++ [i] ∧ q.v = k.v ∧ q.vm = k.vm ∧ q.tile = k.tile ∧ q.exc = none
    (∀ i ∈ [Instr.vxAdd c f x, .vxSub c f x, .vxMul c f x, .vxFma c f x, .vxFms c f x, .vxDiv c f x, .vxSqrt c f x, .vxCpsgn c f x, .vxRndi c f x,
      .vxLdexp c f x, .vxRmaxBlk c f x, .vxRsumBlk c f x], x.f1.toNat ≤ 2 → tooBig w = false → enters i) ∧
    (∀ i ∈ [Instr.vxMax c f x, .vxMin c f x, .vxAbs c f x, .vxNeg c f x, .vxCmp c f x, .vxRmaxB c f x, .vxRminB c f x],
      (x.f1.toNat ≤ 2 ∨ x.f1 = 0xB) → tooBig w = false → enters i) ∧
    (∀ i ∈ [Instr.vxIadd c f x, .vxIsub c f x, .vxAnd c f x, .vxOr c f x, .vxXor c f x, .vxShl c f x, .vxShr c f x, .vxSra c f x, .vxImin c f x,
      .vxImax c f x, .vxImul c f x], x.f1.toNat < 4 → tooBig (8 * 2 ^ x.f1.toNat) = false → enters i) ∧
    (x.f1.toNat ≤ 2 → tooBig 32 = false → enters (.vxGetexp c f x) ∧ enters (.vxRsumB c f x)) ∧
    (x.f1 = 0 → tooBig 32 = false → enters (.vxMullo c f x) ∧ (f.vd ≠ x.aux → enters (.vxTwosum c f x))) ∧
    (x.f1.toNat < 4 → tooBig 64 = false → enters (.vxRsumiB c f x)) ∧
    ((x.aux = 2 ∨ x.aux = 3) → tooBig 32 = false → enters (.vxDraw c f x) ∧ enters (.vxDrawu c f x)) ∧
    (∀ p ∈ floatForms, s.issues c (p.1 c f x) [(decide (¬(x.f1.toNat ≤ 2 ∨ (p.2.1 = true ∧ x.f1 = 0xB))), 0x2010), (tooBig w, 0x2012)] 0 0
      (if p.2.2 then srDraws k x.rnd else none) 0) ∧
    (∀ p ∈ intForms, s.issues c (p.1 c f x) [(decide (4 ≤ x.f1.toNat), 0x2010), (tooBig (8 * 2 ^ x.f1.toNat), 0x2012)] 0 0 none 0) ∧
    s.issues c (.vxGetexp c f x) [(decide (2 < x.f1.toNat), 0x2010), (tooBig 32, 0x2012)] 0 0 none 0 ∧
    s.issues c (.vxTwosum c f x) [(decide (x.f1 ≠ 0), 0x2010), (decide (f.vd = x.aux), 0x2011), (tooBig 32, 0x2012)] 0 0 none 0 ∧
    s.issues c (.vxMullo c f x) [(decide (x.f1 ≠ 0), 0x2010), (tooBig 32, 0x2012)] 0 0 none 0 ∧
    s.issues c (.vxRsumB c f x) [(decide (2 < x.f1.toNat), 0x2010), (tooBig 32, 0x2012)] 0 0 none 0 ∧
    s.issues c (.vxRsumiB c f x) [(decide (4 ≤ x.f1.toNat), 0x2010), (tooBig 64, 0x2012)] 0 0 none 0 ∧
    (∀ i ∈ [Instr.vxDraw c f x, .vxDrawu c f x], s.issues c i [(decide (x.aux ≠ 2 ∧ x.aux ≠ 3), 0x2014), (tooBig 32, 0x2012)] 0 0
      (some (x.aux.toNat, (k.vl.toNat + 3) / 4)) 0)

/-- R108, R113, R118, R119, R121, R124, R127: the checks and the entry of the permutes, masks, conversions and reductions; vx.setvl sets
VL at once and vx.sync waits for an empty queue. Where the rules leave a
point open it follows the model's own choices (logs 31, 72), which are no rules of the spec. -/
def Obligations.VectorOtherIssue : Prop :=
  ∀ (c : CoreId) (f : VF) (x : ExtA) (y : ExtM) (s : State),
    let k := s.core c
    let tooBig (w : Nat) : Bool := decide (vlmax w < k.vl.toNat)
    let none_ (code : BitVec 4) : Bool := (fmtOf code).isNone
    let w := fmtWidth x.f1
    let wd := fmtWidth x.f2
    let wy := fmtWidth y.fmt
    let a := 8 * 2 ^ x.f1.toNat
    let b := 8 * 2 ^ x.f2.toNat
    let two : Bool := decide (f.vd = f.va ∨ f.vd = f.vb)
    let one : Bool := decide (f.vd = f.va)
    let vs : Bool := decide (f.vb = f.vd ∨ f.vb = f.va)
    let enters (i : Instr) : Prop := s.takes c i = true → k.vq.length < 8 → ∃ q : Core, exec i s = .next (s.setCore c q) ∧
      q.vq.map VEntry.instr = k.vq.map VEntry.instr ++ [i] ∧ q.v = k.v ∧ q.vm = k.vm ∧ q.tile = k.tile ∧ q.exc = none
    (none_ x.f1 = false → tooBig w = false → (two = false → enters (.vxPerm c f x) ∧ enters (.vxShuf c f x)) ∧
      (one = false → enters (.vxCompress c f x) ∧ enters (.vxExpand c f x))) ∧
    (x.f1.toNat < 4 → x.f2.toNat < 4 → (b < a → two = false → tooBig a = false → enters (.vxPack c f x)) ∧
      (a < b → one = false → tooBig b = false → enters (.vxUnpack c f x))) ∧
    (two = false → enters (.vxMand c f) ∧ enters (.vxMor c f) ∧ enters (.vxMxor c f)) ∧ (one = false → enters (.vxMnot c f)) ∧
    enters (.vxMv c f) ∧ enters (.vxMpop c f y) ∧ enters (.vxMfirst c f y) ∧
    (none_ y.fmt = false → tooBig wy = false → enters (.vxBcst c f y) ∧
      ((k.getG y.gY).toNat < vlmax wy → enters (.vxExt c f y) ∧ enters (.vxIns c f y))) ∧
    (none_ x.f1 = false → none_ x.f2 = false → x.f1 ≠ 0xA → x.f2 ≠ 0xA → (w ≠ wd → one = false) → vs = false → tooBig w = false →
      tooBig wd = false → enters (.vxCvt c f x)) ∧
    ((y.fmt.toNat ≤ 2 ∨ y.fmt = 0xB) → tooBig wy = false → enters (.vxRmax c f y) ∧ enters (.vxRmin c f y) ∧
      (y.aux.toNat < k.fld 0x1300 3 0 → (wy ≠ 8 → one = false) → vs = false → enters (.vxSlc c f y))) ∧
    (y.fmt.toNat ≤ 2 → tooBig wy = false → enters (.vxRsum c f y)) ∧
    (y.fmt.toNat < 4 → tooBig (8 * 2 ^ y.fmt.toNat) = false → enters (.vxRsumi c f y)) ∧
    (∀ i ∈ [Instr.vxPerm c f x, .vxShuf c f x], s.issues c i [(none_ x.f1, 0x2010), (two, 0x2011), (tooBig w, 0x2012)] 0 0 none 0) ∧
    (∀ i ∈ [Instr.vxCompress c f x, .vxExpand c f x], s.issues c i [(none_ x.f1, 0x2010), (one, 0x2011), (tooBig w, 0x2012)] 0 0 none 0) ∧
    s.issues c (.vxPack c f x) [(decide (4 ≤ x.f1.toNat ∨ 4 ≤ x.f2.toNat ∨ a ≤ b), 0x2010), (two, 0x2011), (tooBig a, 0x2012)] 0 0 none 0 ∧
    s.issues c (.vxUnpack c f x) [(decide (4 ≤ x.f1.toNat ∨ 4 ≤ x.f2.toNat ∨ b ≤ a), 0x2010), (one, 0x2011), (tooBig b, 0x2012)] 0 0 none 0 ∧
    (∀ i ∈ [Instr.vxMand c f, .vxMor c f, .vxMxor c f], s.issues c i [(two, 0x2011)] 0 0 none 0) ∧
    s.issues c (.vxMnot c f) [(one, 0x2011)] 0 0 none 0 ∧ s.issues c (.vxMv c f) [] 0 0 none 0 ∧
    (∀ i ∈ [Instr.vxMpop c f y, .vxMfirst c f y], s.issues c i [] 0 0 none y.gX) ∧
    s.issues c (.vxBcst c f y) [(none_ y.fmt, 0x2010), (tooBig wy, 0x2012)] (k.getG y.gX) 0 none 0 ∧
    s.issues c (.vxExt c f y) [(none_ y.fmt, 0x2010), (decide (vlmax wy ≤ (k.getG y.gY).toNat), 0x2014),
      (tooBig wy, 0x2012)] 0 (k.getG y.gY) none (if k.vl = 0 then 0 else y.gX) ∧
    s.issues c (.vxIns c f y) [(none_ y.fmt, 0x2010), (decide (vlmax wy ≤ (k.getG y.gY).toNat), 0x2014),
      (tooBig wy, 0x2012)] (k.getG y.gX) (k.getG y.gY) none 0 ∧
    s.issues c (.vxCvt c f x) [(none_ x.f1 || none_ x.f2 || decide (x.f1 = 0xA) || decide (x.f2 = 0xA), 0x2010),
      ((decide (w ≠ wd) && one) || vs, 0x2011), (tooBig w || tooBig wd, 0x2012)] 0 0 (srDraws k x.rnd) 0 ∧
    s.issues c (.vxSlc c f y) [(decide (2 < y.fmt.toNat ∧ y.fmt ≠ 0xB), 0x2010), (decide (k.fld 0x1300 3 0 ≤ y.aux.toNat), 0x2014),
      ((decide (wy ≠ 8) && one) || vs, 0x2011), (tooBig wy, 0x2012)] (k.getG y.gX) 0 none 0 ∧
    s.issues c (.vxRsum c f y) [(decide (2 < y.fmt.toNat), 0x2010), (tooBig wy, 0x2012)] 0 0 none y.gX ∧
    (∀ i ∈ [Instr.vxRmax c f y, .vxRmin c f y], s.issues c i [(decide (2 < y.fmt.toNat ∧ y.fmt ≠ 0xB), 0x2010), (tooBig wy, 0x2012)] 0 0 none y.gX) ∧
    s.issues c (.vxRsumi c f y) [(decide (4 ≤ y.fmt.toNat), 0x2010), (tooBig (8 * 2 ^ y.fmt.toNat), 0x2012)] 0 0 none y.gX ∧
    (k.vq = [] → s.does c (.vxSync c f) id) ∧ (k.vq ≠ [] → s.doesHold c (.vxSync c f) .vxSync) ∧
    (8 ≤ k.vq.length → s.doesHold c (.vxSetvl c f y) .queueFull) ∧
    (s.takes c (.vxSetvl c f y) = true → k.vq.length < 8 →
      let width := match y.aux.toNat with | 0 => 8 | 1 => 16 | 2 => 32 | 3 => 64 | 4 => 4 | _ => 6
      let n := min (k.getG y.gY).toNat (vlmax width)
      ∃ q : Core, exec (.vxSetvl c f y) s = .next (s.setCore c q) ∧ q.vl.toNat = n ∧ (y.gX ≠ 0 → q.getG y.gX = BitVec.ofNat 64 n) ∧
        (∀ r, r ≠ y.gX → q.getG r = k.getG r) ∧ q.v = k.v ∧ q.vm = k.vm ∧ q.vq.map VEntry.instr = k.vq.map VEntry.instr)

/-- R117, R122, R123, R125, R127, R160: the checks and the entry of the instructions that reach tile memory and the tile queue: the
bytes of their elements lie in tile memory where cM allows them; an empty tile queue holds. -/
def Obligations.VectorMemoryIssue : Prop :=
  ∀ (c : CoreId) (f : VF) (x : ExtM) (s : State),
    let k := s.core c
    let m := k.getC x.cM
    let a := (k.getG x.gX).toNat
    let n := k.vl.toNat
    let w := fmtWidth x.fmt
    let bad : Bool := (fmtOf x.fmt).isNone
    let tooBig (w : Nat) : Bool := decide (vlmax w < n)
    let denied (p lo len : Nat) : Bool := !(m.tile && m.allows [p] lo len)
    let beyond (hi : Nat) : Bool := decide (Config.tileBytes < hi)
    let len := (n * w + 7) / 8
    (∀ p ∈ [(Instr.vxLd c f x, pLD), (.vxSt c f x, pST)], s.issues c p.1 [(bad, 0x2010), (tooBig w, 0x2012),
      (decide (0 < len) && denied p.2 a len, 0x2013), (decide (0 < len) && beyond (a + len), 0x2015)] (k.getG x.gX) 0 none 0) ∧
    (let last : Int := a + ((n : Int) - 1) * (k.getG x.gY).toInt
     let lo := min (a : Int) last
     let hi := max (a : Int) last + w / 8
     ∀ p ∈ [(Instr.vxLds c f x, pLD), (.vxSts c f x, pST)], s.issues c p.1 [(bad, 0x2010), (decide (w < 8), 0x2014), (tooBig w, 0x2012),
       (decide (0 < n) && (decide (lo < 0) || denied p.2 lo.toNat (hi - lo).toNat), 0x2013),
       (decide (0 < n) && decide ((Config.tileBytes : Int) < hi), 0x2015)] (k.getG x.gX) (k.getG x.gY) none 0) ∧
    (let at_ (j : Nat) := a + elem 32 (k.vreg f.vb) j
     let busy := k.vq.any (fun e => ((vDep e.instr).wr &&& 2 ^ f.vb.toNat) != 0 || (f.mkd && ((vDep e.instr).mwr &&& 2 ^ f.vm.toNat) != 0))
     let act := List.range n
     ∀ p ∈ [(Instr.vxLdx c f x, pLD), (.vxStx c f x, pST)],
       (busy = true → s.doesHold c p.1 .vxSync) ∧
       (busy = false → s.issues c p.1 [(bad, 0x2010), (decide (w < 8), 0x2014), (tooBig (max w 32), 0x2012),
         (act.any (fun j => denied p.2 (at_ j) (w / 8)), 0x2013), (act.any (fun j => beyond (at_ j + w / 8)), 0x2015)] (k.getG x.gX) 0 none 0)) ∧
    (let l := (k.getG x.gY).toNat
     let lo := a + (panelPlace w l 0).1
     let hi := a + (panelPlace w l (n - 1)).1 + (if w = 6 then 3 else 4)
     s.issues c (.vxPackPnl c f x) [(!isMx x.fmt, 0x2010), (decide (32 ≤ l ∨ a % 16 ≠ 0), 0x2014), (tooBig w || decide (n % 32 ≠ 0), 0x2012),
       (decide (0 < n) && denied pST lo (hi - lo), 0x2013), (decide (0 < n) && beyond hi, 0x2015)] (k.getG x.gX) (k.getG x.gY) none 0) ∧
    s.issues c (.vxWrd c f x) [(decide (x.fmt ≠ 0 ∧ x.fmt ≠ 0xB), 0x2010), (tooBig w, 0x2012), (decide (0 < n) && denied pLD a (80 * n), 0x2013),
      (decide (0 < n) && beyond (a + 80 * n), 0x2015)] (k.getG x.gX) (k.getG x.gY) (srDraws k x.rnd) 0 ∧
    (let enters (i : Instr) : Prop := s.takes c i = true → k.vq.length < 8 → ∃ q : Core, exec i s = .next (s.setCore c q) ∧
       q.vq.map VEntry.instr = k.vq.map VEntry.instr ++ [i] ∧ q.v = k.v ∧ q.vm = k.vm ∧ q.tile = k.tile ∧ q.exc = none
     let room (p hi : Nat) : Bool := m.tile && m.allows [p] a (hi - a) && decide (hi ≤ Config.tileBytes)
     bad = false → 0 < n →
       (tooBig w = false → (room pLD (a + len) = true → enters (.vxLd c f x)) ∧ (room pST (a + len) = true → enters (.vxSt c f x)) ∧
         (8 ≤ w → (k.getG x.gY).toNat * (n - 1) < 2 ^ 24 →
           (room pLD (a + (k.getG x.gY).toNat * (n - 1) + w / 8) = true → enters (.vxLds c f x)) ∧
           (room pST (a + (k.getG x.gY).toNat * (n - 1) + w / 8) = true → enters (.vxSts c f x)))) ∧
       (8 ≤ w → tooBig (max w 32) = false → (∀ e ∈ k.vq, (vDep e.instr).wr = 0 ∧ (vDep e.instr).mwr = 0) →
         (m.tile = true ∧ ∀ j, j < n → let p := a + elem 32 (k.vreg f.vb) j; p + w / 8 ≤ Config.tileBytes ∧ m.allows [pLD] p (w / 8) = true ∧
           m.allows [pST] p (w / 8) = true) → enters (.vxLdx c f x) ∧ enters (.vxStx c f x)) ∧
       (isMx x.fmt = true → (k.getG x.gY).toNat < 32 → a % 16 = 0 → tooBig w = false → n % 32 = 0 →
         (let lo := a + (panelPlace w (k.getG x.gY).toNat 0).1
          let hi := a + (panelPlace w (k.getG x.gY).toNat (n - 1)).1 + (if w = 6 then 3 else 4)
          (m.tile && m.allows [pST] lo (hi - lo) && decide (hi ≤ Config.tileBytes)) = true) → enters (.vxPackPnl c f x)) ∧
       ((x.fmt = 0 ∨ x.fmt = 0xB) → tooBig w = false → room pLD (a + 80 * n) = true → enters (.vxWrd c f x))) ∧
    (let enters (i : Instr) : Prop := s.takes c i = true → k.vq.length < 8 → ∃ q : Core, exec i s = .next (s.setCore c q) ∧
       q.vq.map VEntry.instr = k.vq.map VEntry.instr ++ [i] ∧ q.v = k.v ∧ q.vm = k.vm ∧ q.tile = k.tile ∧ q.exc = none
     tqLeft k ≠ 0 → enters (.vxTqpop c f) ∧ (a = 0 → enters (.vxTqrd c f x)) ∧ ((k.getG x.gY).toNat < 8 → enters (.vxTqhdr c f x))) ∧
    (tqLeft k = 0 → ∀ i ∈ [Instr.vxTqrd c f x, .vxTqhdr c f x, .vxTqpop c f], s.doesHold c i .tqEmpty) ∧
    (tqLeft k ≠ 0 →
      (let fmt := (((k.tileQueue.drop (tqPops k)).headD ⟨[], []⟩).hdr.getD 9 0).toNat % 16
       s.issues c (.vxTqrd c f x) [(decide (¬(a = 0 ∨ (fmt = 0 ∧ a = 16))), 0x2014)] (k.getG x.gX) 0 none 0) ∧
      s.issues c (.vxTqhdr c f x) [(decide (8 ≤ (k.getG x.gY).toNat), 0x2014)] 0 (k.getG x.gY) none x.gX ∧
      s.issues c (.vxTqpop c f) [] 0 0 none 0)

/-- R109: one element of a result: an active element takes its value, an inactive one below VL stays, or is 0 under Z. -/
def Sys2Proof.elemAfter (k : Core) (f : VF) (w vl old j v : Nat) : Nat :=
  if j < vl then (if k.active f j then v else if f.z then 0 else elem w old j) else elem w old j

/-- Entry 0 of core c's queue is e, a whole instruction of the program that has not begun. -/
def Sys2Proof.heads (k : Core) (e : VEntry) (r : List VEntry) : Prop :=
  k.vq = e :: r ∧ e.done = false ∧ e.beats = 0 ∧ e.seq = none ∧ e.vl ≠ 0

/-- R107, R109, R111, R114, R115: an integer instruction at the queue's head retires: each element of vd below VL becomes what its
operation gives, under the mask; nothing else is written and no numeric flag is raised. That vx.imin and vx.imax compare signed elements is
the model's choice (log 93). -/
def Obligations.VectorIntegerRetires : Prop :=
  ∀ (c : CoreId) (ari : Nat) (f : VF) (x : ExtA) (s : State) (e : VEntry) (r : List VEntry),
    let k := s.core c
    let w := 8 * 2 ^ x.f1.toNat
    ∀ p ∈ intForms, heads k e r → e.instr = p.1 c f x → x.f1.toNat < 4 → e.vl ≤ vlmax w →
      ∃ q : Core, exec (.vectorRetire c 0 ari) s = .next (({ s with freeCtr := s.freeCtr + 1 } : State).setCore c q) ∧ q.vq = r ∧
        (∀ j, j < vlmax w → elem w (q.vreg f.vd) j = elemAfter k f w e.vl (k.vreg f.vd) j
          (p.2 w (BitVec.ofNat w (elem w (k.vreg f.va) j)) (BitVec.ofNat w (elem w (k.vreg f.vb) j))).toNat) ∧
        (∀ v, v ≠ f.vd → q.vreg v = k.vreg v) ∧ q.vm = k.vm ∧ q.g = k.g ∧ q.tile = k.tile ∧ q.reg 0x1000 = k.reg 0x1000

/-- R37, R42, R48, R54, R107, R109, R111, R115: add, sub, mul, div, fma, fms and sqrt at the queue's head: each active element is the exact
result rounded once, by the field or by the default in force when it starts. That a default which is stochastic only at the start takes
its draws there is the model's choice (log 89). -/
def Obligations.VectorFloatRetires : Prop :=
  ∀ (c : CoreId) (ari : Nat) (f : VF) (x : ExtA) (g : FFmt) (s : State) (e : VEntry) (r : List VEntry),
    let k := s.core c
    let w := g.width
    let val (v : BitVec 5) (j : Nat) := g.decode (elem w (k.vreg v) j)
    let hem : W64 := if x.rnd = 3 ∧ k.vRnd = 2 ∧ e.drew = false then k.reg (rHEM 0 2) else e.hem
    let rnd (j : Nat) : Rnd := match (if x.rnd = 3 then k.vRnd else x.rnd).toNat with
      | 0 => .rne | 1 => .rtz | _ => .sr (draw16 (k.hemKey 0) hem.toNat j)
    let ops : List (Instr × (Nat → XRes)) := [(.vxAdd c f x, fun j => addX (val f.va j) (val f.vb j)), (.vxSub c f x, fun j => subX (val f.va j) (val f.vb j)),
      (.vxMul c f x, fun j => mulX (val f.va j) (val f.vb j)), (.vxDiv c f x, fun j => divX (val f.va j) (val f.vb j)),
      (.vxFma c f x, fun j => fmaX (val f.va j) (val f.vb j) (val x.aux j)), (.vxFms c f x, fun j => fmaX (val f.va j) (val f.vb j) (val x.aux j).neg),
      (.vxSqrt c f x, fun j => sqrtX (val f.va j))]
    ∀ p ∈ ops, heads k e r → e.instr = p.1 → x.f1.toNat ≤ 2 → ffmtOf x.f1 = some g → e.vl ≤ vlmax w → e.ctl = none →
      ∃ q : Core, exec (.vectorRetire c 0 ari) s = .next (({ s with freeCtr := s.freeCtr + 1 } : State).setCore c q) ∧ q.vq = r ∧
        (∀ j, j < vlmax w → elem w (q.vreg f.vd) j = elemAfter k f w e.vl (k.vreg f.vd) j ((g.write (rnd j) k.vSat (p.2 j)).bits % 2 ^ w)) ∧
        (∀ v, v ≠ f.vd → q.vreg v = k.vreg v) ∧ q.vm = k.vm ∧ q.g = k.g ∧ q.tile = k.tile

/-- R109, R117: a vector store at the queue's head changes the bytes of its elements and no other byte of tile memory, and no
register; a load changes no byte. -/
def Obligations.VectorMemoryFrame : Prop :=
  ∀ (c : CoreId) (ari : Nat) (f : VF) (x : ExtM) (s : State) (e : VEntry) (r : List VEntry) (a : Nat),
    let k := s.core c
    let w := fmtWidth x.fmt
    let base := e.x.toNat
    let apart (lo n : Nat) : Prop := a < lo ∨ lo + n ≤ a
    heads k e r →
      ((e.instr = .vxLd c f x ∨ e.instr = .vxLds c f x ∨ e.instr = .vxLdx c f x ∨
        (e.instr = .vxSt c f x ∧ apart base ((e.vl * w + 7) / 8)) ∨
        (e.instr = .vxSts c f x ∧ ∀ j, j < e.vl → apart (base + j * e.y.toInt).toNat (w / 8)) ∨
        (e.instr = .vxStx c f x ∧ ∀ j, j < e.vl → apart (base + elem 32 (k.vreg f.vb) j) (w / 8)) ∨
        (e.instr = .vxPackPnl c f x ∧ isMx x.fmt = true ∧ ∀ j, j < e.vl → apart (base + (panelPlace w e.y.toNat j).1) 4)) →
      ∃ q : Core, exec (.vectorRetire c 0 ari) s = .next (({ s with freeCtr := s.freeCtr + 1 } : State).setCore c q) ∧ q.vq = r ∧
        q.tileByte a = k.tileByte a ∧ q.g = k.g ∧ q.vm = k.vm ∧ ∀ v, v ≠ f.vd → q.vreg v = k.vreg v)

/-- R112, R118, R121, R128: an instruction whose result is a general register computes it when it retires and writes it later; the
integer sum, the count and the first position are exact, and vx.ext reads one element. -/
def Obligations.VectorGeneralResults : Prop :=
  ∀ (c : CoreId) (s : State) (e : VEntry) (r : List VEntry),
    let k := s.core c
    (∀ (ari : Nat) (f : VF) (x : ExtM), heads k e r →
      let results : List (Instr × Nat) := [(.vxMpop c f x, ((List.range e.vl).filter (k.vmask f.vm).testBit).length),
        (.vxMfirst c f x, ((List.range e.vl).find? (k.vmask f.vm).testBit).getD e.vl), (.vxExt c f x, elem (fmtWidth x.fmt) (k.vreg f.va) e.y.toNat)]
      ∀ p ∈ results, e.instr = p.1 → ∃ q : Core, exec (.vectorRetire c 0 ari) s = .next (({ s with freeCtr := s.freeCtr + 1 } : State).setCore c q) ∧
        q.vq = { e with done := true, gval := BitVec.ofNat 64 p.2 } :: r ∧ q.g = k.g ∧ q.v = k.v ∧ q.vm = k.vm ∧ q.tile = k.tile) ∧
    (∀ (f : VF) (x : ExtM) (ari w : Nat), heads k e r → e.instr = .vxRsumi c f x → intWidth x.fmt = some w →
      ∃ q : Core, exec (.vectorRetire c 0 ari) s = .next (({ s with freeCtr := s.freeCtr + 1 } : State).setCore c q) ∧
        q.vq = { e with done := true, gval := BitVec.ofInt 64 (((List.range e.vl).filter (k.active f)).map
          (fun j => (BitVec.ofNat w (elem w (k.vreg f.va) j)).toInt)).sum } :: r) ∧
    (∀ (f : VF) (x : ExtM), k.vq = e :: r → e.done = true → e.vl ≠ 0 →
      (e.instr = .vxMpop c f x ∨ e.instr = .vxMfirst c f x ∨ e.instr = .vxExt c f x ∨ e.instr = .vxRsumi c f x ∨ e.instr = .vxTqhdr c f x) →
      ∃ q : Core, exec (.vectorGregWrite c 0) s = .next (s.setCore c q) ∧ q.vq = r ∧ (x.gX ≠ 0 → q.getG x.gX = e.gval ∧ q.busyG x.gX = false) ∧
        (∀ g, g ≠ x.gX → q.getG g = k.getG g) ∧ q.v = k.v ∧ q.tile = k.tile)

/-! ## The matrix arrays -/

/-- R71, R72: a matrix operation enters core c's queue at its end; the registers, tiles and tile memory stay as they are. -/
def Sys2Proof.mxQueues (s : State) (c : CoreId) (i : Instr) (m : BitVec 4) (t : Fin 2) (op : MOp) : Prop :=
  let k := s.core c
  s.takes c i = true → ∃ q : Core, exec i s = .next (s.setCore c q) ∧
    q.mq.map (fun e => (e.m, e.t, e.op, e.src)) = k.mq.map (fun e => (e.m, e.t, e.op, e.src)) ++ [(m, t, op, none)] ∧
    q.stopped = false ∧ q.tiles = k.tiles ∧ q.md = k.md ∧ q.tile = k.tile ∧ q.g = k.g ∧ q.c = k.c ∧ q.v = k.v ∧ q.exc = none ∧ q.held = none

/-- R71, R72: the first fault present is taken; with none, a full queue holds and room takes the operation. -/
def Sys2Proof.mxIssues (s : State) (c : CoreId) (i : Instr) (faults : List (Bool × BitVec 16)) (m : BitVec 4) (t : Fin 2) (op : MOp) : Prop :=
  (∀ a code b, faults = a ++ (true, code) :: b → (∀ p ∈ a, p.1 = false) → s.doesFault c i code 0) ∧
  ((∀ p ∈ faults, p.1 = false) → (8 ≤ (s.core c).mq.length → s.doesHold c i .queueFull) ∧
    ((s.core c).mq.length < 8 → mxQueues s c i m t op))

/-- R66 to R72, R101, R195: mx.open, mx.acc, mx.accs and mx.close: what each faults on, and its place in the queue. -/
def Obligations.MatrixIssue : Prop :=
  ∀ (c : CoreId) (m : BitVec 4) (t : Bool) (cM : CReg) (gK : GReg) (mdA mdB i j : BitVec 3) (fe : Bool) (s : State),
    let k := s.core c
    let cm := k.getC cM
    let a := (k.getG gK).toNat
    let tt : Fin 2 := if t then 1 else 0
    let reads (n : Nat) : Bool := cm.tile && cm.allows [pLD] a n && decide (a + n ≤ Config.tileBytes)
    let x := k.tileNat a 64
    let d := BitVec.ofNat 256 x
    let held : Bool := decide (m &&& k.mxReserved ≠ 0)
    let after (b : Fin 4) := (k.slotAfter b tt).1
    let n := k.accS.toNat
    let sliceBad : Bool := decide (n ≤ i.toNat ∨ n ≤ j.toNat ∨ (k.accFull = false ∧ n - 1 < i.toNat + j.toNat))
    mxIssues s c (.mxOpen c m t cM gK) [(decide (a % 64 ≠ 0), 0x3011), (!reads 64, 0x3012), (!outFmtOk (dFmt d), 0x3010),
      (decide (m = 0) || tileDescBad x, 0x3011), (!tileDescSpansOk d cm, 0x3012), (held, 0x6016),
      ((named m).any (fun b => after b == .opened), 0x3015), (k.weltBad d m tt, 0x3016)] m tt (.mopen d (k.getG gK)) ∧
    mxIssues s c (.mxClose c m t) [(decide (m = 0), 0x3011), (held, 0x6016), ((named m).any (fun b => after b != .opened), 0x3014)] m tt .close ∧
    ((k.md.get ⟨mdA.toNat, mdA.isLt⟩ = none ∨ k.md.get ⟨mdB.toNat, mdB.isLt⟩ = none) →
      s.doesFault c (.mxAcc c m t mdA mdB) 0x3013 0 ∧ s.doesFault c (.mxAccs c m t mdA mdB i j fe) 0x3013 0) ∧
    (∀ da db, k.md.get ⟨mdA.toNat, mdA.isLt⟩ = some da → k.md.get ⟨mdB.toNat, mdB.isLt⟩ = some db →
      mxIssues s c (.mxAcc c m t mdA mdB) [(decide (m = 0 ∨ da.nblkM1 ≠ db.nblkM1), 0x3011), (held, 0x6016),
        ((named m).any (fun b => after b != .opened), 0x3014)] m tt (.acc da db none 0) ∧
      mxIssues s c (.mxAccs c m t mdA mdB i j fe) [(decide (da.fmt ≠ 8 ∨ db.fmt ≠ 8), 0x3010), (decide (m = 0 ∨ da.nblkM1 ≠ db.nblkM1), 0x3011),
        (sliceBad, 0x4010), (held, 0x6016), ((named m).any (fun b => after b != .opened), 0x3014)] m tt (.acc da db (some ⟨i.toNat, j.toNat, fe⟩) 0))

/-- R68 to R70, R72, R77, R84, R195: mx.ldd loads an operand descriptor; mx.wait gives a tile's last status once no close of it is pending,
and refuses a reserved array; mx.stat gives MXSTAT; each is held while the matrix queue is full. -/
def Obligations.MatrixRegisters : Prop :=
  ∀ (c : CoreId) (md : BitVec 3) (cM : CReg) (gK gD : GReg) (ar : BitVec 2) (t : Bool) (s : State),
    let k := s.core c
    let cm := k.getC cM
    let a := (k.getG gK).toNat
    let x := k.tileNat a 32
    let d := opDescOf x
    let checks : List (Bool × BitVec 16) := [(decide (a % 32 ≠ 0), 0x3011), (!(cm.tile && cm.allows [pLD] a 32 && decide (a + 32 ≤ Config.tileBytes)), 0x3012),
      (!isMx d.fmt, 0x3010), (opDescBad x, 0x3011), (!d.spansOk cm, 0x3012)]
    let tt : Fin 2 := if t then 1 else 0
    let af : Fin 4 := Fin.ofNat 4 ar.toNat
    (∀ l code r, checks = l ++ (true, code) :: r → (∀ p ∈ l, p.1 = false) → s.doesFault c (.mxLdd c md cM gK) code 0) ∧
    (8 ≤ k.mq.length → ((∀ p ∈ checks, p.1 = false) → s.doesHold c (.mxLdd c md cM gK) .queueFull) ∧ s.doesHold c (.mxStat c gD) .queueFull ∧
      (k.mxReserved.getLsbD ar.toNat = false → k.closePending af tt = false → s.doesHold c (.mxWait c gD ar t) .queueFull)) ∧
    ((∀ p ∈ checks, p.1 = false) → k.mq.length < 8 → s.takes c (.mxLdd c md cM gK) = true → ∃ q : Core, exec (.mxLdd c md cM gK) s = .next (s.setCore c q) ∧
      (∀ n : Fin 8, q.md.get n = if n.val = md.toNat then some d else k.md.get n) ∧ q.g = k.g ∧ q.tile = k.tile ∧ q.tiles = k.tiles) ∧
    (k.mxReserved.getLsbD ar.toNat = true → s.doesFault c (.mxWait c gD ar t) 0x6016 0) ∧
    (k.mxReserved.getLsbD ar.toNat = false → k.closePending af tt = true → s.doesHold c (.mxWait c gD ar t) (.mxWait (tileIx af tt).val)) ∧
    (k.mxReserved.getLsbD ar.toNat = false → k.closePending af tt = false → k.mq.length < 8 → s.takes c (.mxWait c gD ar t) = true → ∃ q : Core, exec (.mxWait c gD ar t) s = .next (s.setCore c q) ∧
      (gD ≠ 0 → q.getG gD = k.lastStatus.get (tileIx af tt)) ∧ (∀ r, r ≠ gD → q.getG r = k.getG r) ∧ q.tile = k.tile ∧ q.tiles = k.tiles) ∧
    (gD ≠ 0 → k.mq.length < 8 → k.tileQueue.length < 8 → s.takes c (.mxStat c gD) = true →
      ∃ q : Core, exec (.mxStat c gD) s = .next (s.setCore c q) ∧ (∀ r, r ≠ gD → q.getG r = k.getG r) ∧ q.tiles = k.tiles ∧
        let v := (q.getG gD).toNat
        bitsOf v 63 24 = 0 ∧ bitsOf v 23 23 = k.stopped.toNat ∧ bitsOf v 22 19 = k.mq.length ∧ bitsOf v 18 16 = k.tileQueue.length ∧
          ∀ n : Fin 8, bitsOf v (2 * n.val + 1) (2 * n.val) = (k.tiles.get n).st.code)

/-- R83, R98, R99: mx.stop waits for folds and closes, then writes its save area and leaves the unit empty; mx.resume refuses a save area
whose header is wrong, and otherwise takes the tiles back as Open and the operations back at the queue's head. Where the rules leave a
point open it follows the model's own choices (logs 47, 83, 94, 97), which are no rules of the spec. -/
def Obligations.MatrixStopResume : Prop :=
  ∀ (c : CoreId) (cM : CReg) (gK : GReg) (s : State),
    let k := s.core c
    let cm := k.getC cM
    let a := (k.getG gK).toNat
    let fits (p : Nat) : Bool := decide (a % 64 = 0) && tileSpanOk cm p a 132160
    let h := k.tileNat a 64
    (fits pST = false → s.doesFault c (.mxStop c cM gK) 0x3012 0) ∧
    (fits pST = true → 8 ≤ k.mq.length → s.doesHold c (.mxStop c cM gK) .stopFull) ∧
    (fits pST = true → k.mq.length < 8 → k.stopWaits = true → s.doesHold c (.mxStop c cM gK) .stop) ∧
    (fits pST = true → k.mq.length < 8 → k.stopWaits = false → k.mxReserved = 0 → s.takes c (.mxStop c cM gK) = true →
      ∃ q : Core, exec (.mxStop c cM gK) s = .next (s.setCore c q) ∧ q.stopped = true ∧ (∀ e ∈ q.mq, e.src.isSome = true) ∧
        (∀ n : Fin 8, (q.tiles.get n).st = .free) ∧ q.tileNat a 1 = 1 ∧
        (∀ n : Fin 8, (q.tileNat (a + 1) 1).testBit n.val = ((k.tiles.get n).st == .opened)) ∧ q.tileNat (a + 2) 1 = k.stopOps.length ∧
        (∀ n : Fin 8, (k.tiles.get n).st = .opened → q.tileNat (a + 64 + 16448 * n.val) 32 = (k.tiles.get n).desc.toNat ∧
          ∀ j, j < 1024 → q.tileNat (a + 128 + 16448 * n.val + 16 * j) 16 = (mget zeroCell (k.tiles.get n).cells j).toNat) ∧
        (∀ b, (b < a ∨ a + 132160 ≤ b) → q.tileByte b = k.tileByte b) ∧ q.g = k.g ∧ q.c = k.c) ∧
    (fits pLD = false → s.doesFault c (.mxResume c cM gK) 0x3012 0) ∧
    (fits pLD = true → (h % 256 ≠ 1 ∨ 8 < bitsOf h 23 16 ∨ h >>> 24 ≠ 0) → s.doesFault c (.mxResume c cM gK) 0x3017 0) ∧
    (fits pLD = true → h % 256 = 1 → bitsOf h 23 16 ≤ 8 → h >>> 24 = 0 → 8 ≤ k.mq.length → s.doesHold c (.mxResume c cM gK) .queueFull) ∧
    (fits pLD = true → h % 256 = 1 → bitsOf h 23 16 ≤ 8 → h >>> 24 = 0 → k.mq.length < 8 → s.takes c (.mxResume c cM gK) = true →
      ∃ q : Core, exec (.mxResume c cM gK) s = .next (s.setCore c q) ∧ q.stopped = false ∧ q.tile = k.tile ∧ q.g = k.g ∧
        (∀ n : Fin 8, (h / 256).testBit n.val = false → q.tiles.get n = k.tiles.get n) ∧
        (∀ n : Fin 8, (h / 256).testBit n.val = true → (q.tiles.get n).st = .opened ∧
          (q.tiles.get n).desc.toNat = k.tileNat (a + 64 + 16448 * n.val) 32 ∧
          ∀ j, j < 1024 → (mget zeroCell (q.tiles.get n).cells j).toNat = k.tileNat (a + 128 + 16448 * n.val + 16 * j) 16))

/-- R65, R66, R73, R76: a queued operation starts where its tiles are free of earlier ones: an open leaves its tiles Open, an accumulate
becomes the running one, a close begins on its arrays. Where the rules leave a
point open it follows the model's own choices (logs 40), which are no rules of the spec. -/
def Obligations.MatrixStarts : Prop :=
  ∀ (c : CoreId) (ix : Nat) (s : State) (e : MqE),
    let k := s.core c
    k.mq[ix]? = some e → k.stopping = false → (∀ a ∈ named e.m, k.mxFree ix e a = true) →
      (∀ d off, e.op = .mopen d off → (∀ a ∈ named e.m, (k.tileAt a e.t).st = .free) →
        ∃ q : Core, exec (.matrixOpStart c ix) s = .next (s.setCore c q) ∧ q.mq = k.mq.eraseIdx ix ∧ q.tile = k.tile ∧
          ∀ a t, q.tileAt a t = if a ∈ named e.m ∧ t = e.t then openedTile d else k.tileAt a t) ∧
      (∀ oa ob sl blk, e.op = .acc oa ob sl blk → k.acc = none →
        exec (.matrixOpStart c ix) s = .next (s.updCore c (fun k => { k with mq := k.mq.eraseIdx ix, acc := some e }))) ∧
      (e.op = .close → (∀ a ∈ named e.m, k.closes.get a = none ∧ (k.tileAt a e.t).st = .opened) →
        ∃ q : Core, exec (.matrixOpStart c ix) s = .next (s.setCore c q) ∧ q.mq = k.mq.eraseIdx ix ∧ q.tile = k.tile ∧
          (∀ a ∈ named e.m, (∃ r, q.closes.get a = some r ∧ r.t = e.t ∧ r.rnd = BitVec.ofNat 2 (k.fld 0x1008 3 2)) ∧
            q.tileAt a e.t = { (k.tileAt a e.t) with st := .closing }) ∧
          ∀ a t, ¬(a ∈ named e.m ∧ t = e.t) → q.tileAt a t = k.tileAt a t)

/-- R57, R73, R86 to R93: the running accumulate ends a K-block: each named array's tile takes what the block adds, captures go to the
shadows and the fold queue, and the steps are counted; after its last block it retires. Where the rules leave a
point open it follows the model's own choices (logs 40, 83, 96, 98, 100), which are no rules of the spec. -/
def Obligations.MatrixBlocks : Prop :=
  ∀ (c : CoreId) (waits stalls : Nat) (bank : List Nat) (s : State) (e : MqE) (oa ob : OpDesc) (sl : Option Slice) (blk : Nat),
    let k := (s.core c).bankErrors bank
    let k0 := s.core c
    let find (a : Fin 4) := k.arrayEnd e.t oa ob sl blk a
    k0.acc = some e → e.op = .acc oa ob sl blk →
      (k.stopping = false → blk ≤ oa.nblkM1.toNat → (∀ a ∈ named e.m, (find a).shadow.isSome = true → k.shadows.get a = none) →
        ∃ q : Core, exec (.accBlockEnd c waits stalls bank) s = .next (s.setCore c q) ∧ q.acc = some { e with op := .acc oa ob sl (blk + 1), anchors := ((named e.m).map find).filterMap (fun r => r.anchor.map (fun x => (r.a, x))) } ∧
          (∀ a t, q.tileAt a t = if a ∈ named e.m ∧ t = e.t then (find a).tile else k.tileAt a t) ∧
          (∀ a, q.shadows.get a = if a ∈ named e.m ∧ (find a).shadow.isSome = true then (find a).shadow else k.shadows.get a) ∧
          q.feq = k.feq ++ ((named e.m).filter (fun a => (find a).shadow.isSome)).map FeJob.merge ∧
          ((k.reg 0x1218).toNat + 8 < 2 ^ 64 → (q.reg 0x1218).toNat = (k.reg 0x1218).toNat + (if oa.w = 4 ∧ ob.w = 4 then 4 else 8)) ∧
          q.tile = k.tile ∧ q.g = k.g ∧ q.mq = k.mq) ∧
      (oa.nblkM1.toNat < blk → (∀ z, sl = some z → z.fe = false) →
        ∃ q : Core, exec (.accRetire c stalls) s = .next (s.setCore c q) ∧ q.acc = none ∧ q.tiles = k0.tiles ∧ q.shadows = k0.shadows ∧
          q.tile = k0.tile ∧ q.g = k0.g) ∧
      (oa.nblkM1.toNat < blk → (∃ z, sl = some z ∧ z.fe = true) → (∀ a ∈ named e.m, k0.shadows.get a = none) →
        ∃ q : Core, exec (.accRetire c stalls) s = .next (s.setCore c q) ∧ q.acc = none ∧ q.feq = k0.feq ++ (named e.m).map FeJob.merge ∧
          (∀ a ∈ named e.m, (q.shadows.get a).isSome = true ∧ (q.tileAt a e.t).cells = [] ∧ (q.tileAt a e.t).weltValid = true) ∧
          q.tile = k0.tile ∧ q.g = k0.g)

/-- R58, R86, R88, R89: while a tile keeps its base and anchor, a block's slabs inside the window are added without rounding: each
cell's value grows by exactly the slab's. Values are counted here in units of 2^−2000. -/
def Obligations.SlabsAddExactly : Prop :=
  ∀ (t : Tile) (ts : Fin 2) (q : Int) (sl : Option Slice) (l : List CellSlab) (x : CellSlab) (n m : Int),
    let b := t.base.toInt
    let a := t.anchor.toInt
    t.baseSet = true → t.anchSet = true → -32 ≤ q → q ≤ 0 → (blockFind t q l).why.fold = false → (l.map CellSlab.cell).Nodup → x ∈ l →
    x.slab = .fin m → windowOf b x.x = .within → cellOf (mget zeroCell t.cells x.cell) = (n, 0) → n.natAbs < 2 ^ 125 →
      ∃ n' : Int, cellOf (mget zeroCell (tileAfterBlock t ts q sl l).1.cells x.cell) = (n', 0) ∧
        (n' - n) * 2 ^ (b + a + 2000).toNat = m * 2 ^ (q + x.x + 2000).toNat

/-- R90, R92, R93: a fold moves a capture into the welt exactly: after the merge each untagged element holds its old value plus the cell's,
in units of 2^(base − 288); no byte outside the tile's welt changes. -/
def Obligations.FoldsMergeExactly : Prop :=
  ∀ (k : Core) (sh : Shadow),
    let q := (mergeShadow k sh []).1
    sh.welt % 16 = 0 → sh.rows ≤ 32 → sh.cols ≤ 32 → sh.slabs = [] → sh.tags = [] → -288 ≤ sh.anchor →
      (∀ cell ∈ unmasked sh.rows sh.cols, ∀ w n : Int, (if sh.first then w = 0 else k.weltRead (sh.welt + 80 * cell) = (w, 0)) →
        cellOf (mget zeroCell sh.cells cell) = (n, 0) → (w + n * 2 ^ (sh.anchor + 288).toNat).natAbs < 2 ^ 638 →
          q.weltRead (sh.welt + 80 * cell) = (w + n * 2 ^ (sh.anchor + 288).toNat, 0)) ∧
      ∀ a, (a < sh.welt ∨ sh.welt + 81920 ≤ a) → q.tileByte a = k.tileByte a

/-- R76 to R80, R93, R95, R105: a fold's merge ends; a close ends: with DEST = 0 its output is written and its slot is Free, else it joins
the tile queue, or waits while that holds four; a waiting close enters when there is room. An FP32 element is its exact value rounded
once. Where the rules leave a
point open it follows the model's own choices (logs 83), which are no rules of the spec. -/
def Obligations.MatrixEnds : Prop :=
  ∀ (c : CoreId) (s : State),
    let k := s.core c
    (∀ (a : Fin 4) (r : List FeJob) (sh : Shadow), k.feq = .merge a :: r → k.shadows.get a = some sh →
      ∃ q : Core, exec (.foldMergeEnd c []) s = .next (s.setCore c q) ∧ q.feq = r ∧ q.shadows.get a = none ∧
        q.tile = (mergeShadow k sh []).1.tile ∧ q.g = k.g) ∧
    (∀ (a : Fin 4) (run : CloseRun), k.closes.get a = some run → (∀ sh, k.shadows.get a = some sh → sh.t ≠ run.t) →
      let x := k.tileAt a run.t
      let z := closeTile k x run
      let st := statusWord x z
      let d := x.desc
      ∃ q : Core, exec (.closeEnd c a) s = .next (s.setCore c q) ∧ q.closes.get a = none ∧ q.g = k.g ∧
        (dDest d = 0 → (q.tileAt a run.t).st = .free ∧ q.lastStatus.get (tileIx a run.t) = st ∧ q.tileQueue = k.tileQueue) ∧
        ((dDest d = 1 ∨ dDest d = 2) → k.tileQueue.length < 4 → k.qwait = [] → (q.tileAt a run.t).st = .free ∧
          q.tileQueue = k.tileQueue ++ [tqEntry a run.t x z st] ∧ q.lastStatus.get (tileIx a run.t) = st) ∧
        ((dDest d = 1 ∨ dDest d = 2) → (4 ≤ k.tileQueue.length ∨ k.qwait ≠ []) → (q.tileAt a run.t).st = .qwait ∧
          q.tileQueue = k.tileQueue ∧ q.qwait = k.qwait ++ [⟨a, run.t, tqEntry a run.t x z st, st⟩]) ∧
        (dDest d = 1 → q.tile = k.tile) ∧
        (dDest d = 0 → dFmt d = 0 → 4 * dCols d ≤ dStride d → ∀ i j, i < dRows d → j < dCols d →
          ∀ v : XRes, k.elementAt x (32 * i + j) = (v, 0) →
            q.tileNat (dOut d + i * dStride d + 4 * j) 4 = (fp32.write (closeRound k x run (32 * i + j)) run.sat v).bits % 2 ^ 32)) ∧
    (∀ (w : QWait) (r : List QWait), k.qwait = w :: r → k.tileQueue.length < 4 →
      ∃ q : Core, exec (.tileQueueEntry c) s = .next (s.setCore c q) ∧ q.qwait = r ∧ q.tileQueue = k.tileQueue ++ [w.e] ∧
        (q.tileAt w.a w.t).st = .free ∧ q.lastStatus.get (tileIx w.a w.t) = w.status ∧ q.tile = k.tile ∧ q.g = k.g) ∧
    (∀ h, k.held = some h → k.waitsOnQueue = true → k.popQueued = false → k.fld 0x1208 1 1 = 1 → ∃ e : Exc, e.cls = 0 ∧ e.code = 0x3021 ∧
      e.syl = h.syl ∧ e.slot = h.slot ∧ exec (.tileQueueNotDrained c) s = .next (s.updCore c (fun k => { k with held := none, exc := some e })))

/-! ## Transfers, fused commands, the press tree and the mangle ring -/

/-- R183, R184: the first check that a last fails, with the address that the fault reports. -/
def Sys2Proof.lastChecks : Prop :=
  ∀ (k : Core) (cm : Cap) (off : Nat) (srcOk dstOk : Nat → Bool),
    let x := k.tileNat off 96
    let l := lastOf k off x
    let ss := l.span l.src (!l.scatter) l.esz
    let ds := l.span l.dst l.scatter l.dsz
    let reads : Bool := cm.tile && cm.allows [pLD] off 96 && decide (off + 96 ≤ Config.tileBytes)
    let srcDenied : Bool := decide (l.srcSp ≠ 2) && !xferAllows (k.getC (BitVec.ofNat 4 (bitsOf x 19 16))) pLD l.srcSp ss
    let dstDenied : Bool := decide (l.dstSp ≠ 2) && !xferAllows (k.getC (BitVec.ofNat 4 (bitsOf x 23 20))) pST l.dstSp ds
    let recDenied : Bool := !(cm.tile && cm.allows [pST] l.resume 64 && decide (l.resume + 64 ≤ Config.tileBytes))
    let r := checkLast k cm off srcOk dstOk
    (off % 32 ≠ 0 → r = .error (0x6010, off)) ∧
    (off % 32 = 0 → reads = false → r = .error (0x6011, off)) ∧
    (off % 32 = 0 → reads = true → lastBad off x srcOk dstOk = true → r = .error (0x6010, off)) ∧
    (off % 32 = 0 → reads = true → lastBad off x srcOk dstOk = false →
      (srcDenied = true → r = .error (0x6011, ss.1.toNat)) ∧
      (srcDenied = false → dstDenied = true → r = .error (0x6011, ds.1.toNat)) ∧
      (srcDenied = false → dstDenied = false → recDenied = true → r = .error (0x6011, l.resume)) ∧
      (srcDenied = false → dstDenied = false → recDenied = false → r = .ok l))

/-- R184, R189, R190: tx.last and tx.fuse start a stream in the first free context, hold while none is free, and fault on a bad command;
tx.wait and tx.test return a stream's end and free its context. -/
def Sys2Proof.transferInstructions : Prop :=
  ∀ (c : CoreId) (gD gA : GReg) (cM : CReg) (s : State),
    let k := s.core c
    let off := (k.getG gA).toNat
    let n := (k.getG gA).toNat % 16
    let last := checkLast k (k.getC cM) off (fun x => decide (x < 2)) (fun x => decide (x < 2))
    let fuse := checkFused k (k.getC cM) off
    let runs (i : Instr) (q : Core) : Prop := exec i s = .next (s.setCore c q) ∧ (∀ r, r ≠ gD → q.getG r = k.getG r) ∧ q.tile = k.tile ∧ q.c = k.c ∧ q.vq = k.vq
    (∀ code a, last = .error (code, a) → s.doesFault c (.txLast c gD cM gA) code (BitVec.ofNat 64 a)) ∧
    (∀ l, last = .ok l → k.freeCtxs = [] → s.doesHold c (.txLast c gD cM gA) .txFull) ∧
    (∀ l i r, last = .ok l → k.freeCtxs = i :: r → s.takes c (.txLast c gD cM gA) = true → ∃ (q : Core) (y : Stream), runs (.txLast c gD cM gA) q ∧
      (gD ≠ 0 → q.getG gD = BitVec.ofNat 64 i) ∧ q.stream i = some y ∧ y.last = some l ∧ y.st = .running ∧ y.free = false ∧ y.issued = 0 ∧
      y.limit = l.total ∧ y.landed = [] ∧ ∀ j, j ≠ i → (q.stream j).map (fun z => (z.last, z.st, z.issued, z.landed, z.free)) =
        (k.stream j).map (fun z => (z.last, z.st, z.issued, z.landed, z.free))) ∧
    (∀ code a, fuse = .error (code, a) → s.doesFault c (.txFuse c gD cM gA) code (BitVec.ofNat 64 a)) ∧
    (∀ p, fuse = .ok p → k.freeCtxs.length < p.lasts.length + 1 → s.doesHold c (.txFuse c gD cM gA) .txFull) ∧
    (∀ p i r, fuse = .ok p → k.freeCtxs = i :: r → p.lasts.length ≤ r.length → s.takes c (.txFuse c gD cM gA) = true →
      ∃ (q : Core) (y : Stream) (u : Fused), runs (.txFuse c gD cM gA) q ∧ (gD ≠ 0 → q.getG gD = BitVec.ofNat 64 i) ∧ q.stream i = some y ∧
        y.st = .running ∧ y.free = false ∧ y.fused = some u ∧ u.edges = p.fused.edges ∧ u.stages.length = p.fused.stages.length) ∧
    (k.stream n = none → ∀ i ∈ [Instr.txWait c gD gA, .txTest c gD gA], s.takes c i = true → ∃ q, runs i q ∧ (gD ≠ 0 → q.getG gD = 0)) ∧
    (∀ x, k.stream n = some x →
      (x.st = .ended → ∀ i ∈ [Instr.txWait c gD gA, .txTest c gD gA], s.takes c i = true →
        ∃ q, runs i q ∧ (gD ≠ 0 → q.getG gD = if x.aborted then 1 else 0) ∧ q.ctxFree n = true) ∧
      (x.st ≠ .ended → s.doesHold c (.txWait c gD gA) .txWait) ∧
      (x.st ≠ .ended → s.takes c (.txTest c gD gA) = true →
        ∃ q, runs (.txTest c gD gA) q ∧ (gD ≠ 0 → q.getG gD = if x.st = .halted then 3 else 2)))

/-- R183, R184, R189, R190: the checks of a last, and what the instructions of the transfer engine do. Where the rules leave a
point open it follows the model's own choices (logs 46, 48), which are no rules of the spec. -/
def Obligations.TransferInstructions : Prop := lastChecks ∧ transferInstructions


/-- R196: tx.stw gives a PROG stage the slots of its next firing, or the marker that ends it, and holds while neither is there; tx.stp
completes the firing; a stream and stage that name no running PROG stage fault. -/
def Obligations.ProgStages : Prop :=
  ∀ (c : CoreId) (gD gA gB : GReg) (s : State),
    let k := s.core c
    let n := (k.getG gA).toNat % 16
    let i := (k.getG gB).toNat
    (k.progStage n i = none → s.doesFault c (.txStw c gD gA gB) 0x6015 0 ∧ s.doesFault c (.txStp c gA gB) 0x6015 0) ∧
    (∀ u z, k.progStage n i = some (u, z) →
      (stwResult u i z = .wait → s.doesHold c (.txStw c gD gA gB) .txWait) ∧
      (∀ v, (stwResult u i z = .marker false ∧ v = 2 ^ 60 ∨ stwResult u i z = .marker true ∧ v = 2 ^ 61 ∨
          ∃ a b, stwResult u i z = .fire a b ∧ v = a % 2 ^ 23 + b % 2 ^ 23 * 2 ^ 32) → s.takes c (.txStw c gD gA gB) = true →
        ∃ q : Core, exec (.txStw c gD gA gB) s = .next (s.setCore c q) ∧ (gD ≠ 0 → q.getG gD = BitVec.ofNat 64 v) ∧
          (∀ r, r ≠ gD → q.getG r = k.getG r) ∧ q.tile = k.tile) ∧
      (∀ f, z.flight = [f] → (∀ o ∈ f.outs, o.isSome = true) → s.takes c (.txStp c gA gB) = true →
        ∃ q : Core, exec (.txStp c gA gB) s = .next (s.setCore c q) ∧ q.g = k.g ∧ q.tile = k.tile ∧
          ∃ u' z', (q.stream n).bind Stream.fused = some u' ∧ u'.stages[i]? = some z' ∧ z'.flight = [] ∧ z'.completed = z.completed + 1))

/-- R183, R185, R188, R198: a running stream's next request: from tile memory to tile memory it copies up to 64 bytes, element by element
where its last says; from memory it takes the lowest free tag; where translation fails the stream halts. -/
def Obligations.TransferRequests : Prop :=
  ∀ (c : CoreId) (sn : StreamId) (tagWait : Nat) (s : State) (x : Stream) (l : Last),
    let k := s.core c
    let p := x.issued
    k.stream sn.val = some x → x.last = some l → x.st = .running → p < x.limit → l.op = 0 → 0 < l.esz → l.dstSp = 1 → l.scatter = false →
      (l.srcSp = 1 →
        let m := min (x.limit - p) 64
        ∃ (q : Core) (y : Stream), exec (.txRequestIssue c sn tagWait) s = .next (s.setCore c q) ∧ q.stream sn.val = some y ∧ y.issued = p + m ∧
          y.landed = addRange x.landed p (p + m) ∧ y.st = .running ∧ q.g = k.g ∧ q.txReqs = k.txReqs ∧
          (∀ j, j < m → q.tileByte (l.dst + p + j) = k.tileByte (l.srcAt ((p + j) / l.esz) + (p + j) % l.esz)) ∧
          ∀ a, (a < l.dst + p ∨ l.dst + p + m ≤ a) → q.tileByte a = k.tileByte a) ∧
      (l.srcSp = 0 →
        let at_ (j : Nat) := l.srcAt ((p + j) / l.esz) + (p + j) % l.esz
        let m := x.runLength l p (min (x.limit - p - 1) 255) 1
        1 ≤ m ∧ m ≤ x.limit - p ∧ (∀ j, j < m → at_ j = at_ 0 + j ∧ at_ j / 256 = at_ 0 / 256) ∧
        (∀ f, s.xlateSide c l.sctx (at_ 0) m .load = .error f →
          ∃ (t : State) (y : Stream), exec (.txRequestIssue c sn tagWait) s = .next t ∧ (t.core c).stream sn.val = some y ∧ y.st = .halting ∧
            y.code = f ∧ y.va = BitVec.ofNat 64 (at_ 0) ∧ y.pos = p ∧ y.issued = p ∧ (t.core c).tile = k.tile ∧ (t.core c).txReqs = k.txReqs) ∧
        (∀ xl w tag, s.xlateSide c l.sctx (at_ 0) m .load = .ok (xl, w) → k.tagFor l.bulk = some tag → (xl.host = true ∨ xl.pa.testBit 47 = false) →
          ∃ (t : State) (y : Stream) (r : TxReq), exec (.txRequestIssue c sn tagWait) s = .next t ∧ (t.core c).txReqs = k.txReqs ++ [r] ∧
            r.tag = tag ∧ r.s = sn.val ∧ r.e0 = p ∧ r.n = m ∧ r.data = none ∧ (∀ q ∈ k.txReqs, q.tag ≠ tag) ∧
            (t.core c).stream sn.val = some y ∧ y.issued = p + m ∧ y.st = .running ∧ (t.core c).tile = k.tile))

/-- R185, R198 to R200, R209, R214: a request completes: its tag is free and its bytes are delivered; a halt is recorded and reported; a
stream ends when its bytes are there, or its abort is complete; TXRES, from Cretas alone, resumes or aborts a halted stream. Where the rules leave a
point open it follows the model's own choices (logs 46, 50), which are no rules of the spec. -/
def Obligations.TransferEnds : Prop :=
  ∀ (c : CoreId) (s : State),
    let k := s.core c
    (∀ (tag : Nat) (ord : List Nat) (hostData : List Byte) (pois : Bool) (q : TxReq) (x : Stream) (a b : SAddr),
      let n := q.units.length * q.unit
      k.txReqs.find? (fun r => r.tag == tag) = some q → q.msg = false → q.data = none → k.stream q.s = some x → q.units.head? = some (a, b) →
      a.sp = .pa → paKind a.a = .dev → b.sp = .tile → s.gate (some (coreCluster c)) (memKeys (bytesAt .pa a.a n)) false = none →
      s.txFrameBad c q.sctx a n = false →
        ∃ (t : State) (y : Stream), exec (.txRequestComplete c tag ord hostData pois) s = .next t ∧
          (t.core c).txReqs = k.txReqs.filter (fun r => r.tag != tag) ∧ (t.core c).stream q.s = some y ∧
          y.landed = addRange x.landed q.e0 (q.e0 + q.n) ∧ (t.core c).g = k.g) ∧
    (∀ (sn : StreamId) (x : Stream) (l : Last), k.stream sn.val = some x → x.last = some l → x.fused = none →
      let n := x.pos / l.esz
      (x.st = .halting → k.outstanding x.gen = false → x.wrote = false → s.frRoom s.frWait.length = true →
        ∃ (t : State) (r : Report), exec (.streamHaltRecord c sn) s = .next t ∧ t.frWait = s.frWait ++ [r] ∧ r.code = x.code ∧ r.num = c.val ∧
          r.tag = l.tag ∧ r.addr = x.va ∧ r.answer = true ∧ ((t.core c).stream sn.val).map Stream.st = some .halted ∧
          (t.core c).tileRead l.resume 64 = x.darn c 3 x.code n n ∧ (l.irq = true → (t.core c).fld 0x1618 2 2 = 1) ∧
          ∀ a, (a < l.resume ∨ l.resume + 64 ≤ a) → (t.core c).tileByte a = k.tileByte a) ∧
      (x.st = .running → covered x.landed 0 l.total = true →
        ∃ q : Core, exec (.streamEnd c sn) s = .next (s.setCore c q) ∧ q.stream sn.val = some { x with st := .ended } ∧
          (l.irq = true → q.fld 0x1618 2 2 = 1) ∧ (l.irq = false → q.reg 0x1618 = k.reg 0x1618) ∧ q.tile = k.tile ∧ q.g = k.g) ∧
      (x.st = .aborting → k.outstanding x.gen = false →
        ∃ q : Core, exec (.streamEnd c sn) s = .next (s.setCore c q) ∧ q.stream sn.val = some { x with st := .ended } ∧
          q.tileNat (l.resume + 16) 8 = x.delivered % 2 ^ 64 ∧ (l.irq = true → q.fld 0x1618 2 2 = 1)) ∧
      (x.st = .halted →
        (let rec_ := k.tileRead l.resume 64
         let m := l.elementOf ((List.range 5).map (fun d => leNat ((rec_.drop (40 + 4 * d)).take 4)))
         exec (.txresResume .cretas c sn) s = .next (s.updCore c (fun k => k.updStream sn.val (fun x =>
           { x with st := .running, issued := min l.total (m * l.esz), code := 0 })))) ∧
        (∃ (t : State) (r : Report) (y : Stream), exec (.txresAbort .cretas c sn) s = .next t ∧ t.frWait = s.frWait ++ [r] ∧ r.code = 0x6020 ∧
          r.detail = BitVec.ofNat 128 x.code.toNat ∧ (t.core c).stream sn.val = some y ∧ y.st = .aborting ∧ y.aborted = true)) ∧
      (∀ w, (w ≠ .cretas ∨ x.st ≠ .halted) → ∀ i ∈ [Instr.txresResume w c sn, .txresAbort w c sn], ∃ t, exec i s = .next t ∧
        (t.core c).streams = k.streams ∧ (t.core c).tile = k.tile ∧ (k.fld 0x1918 47 32 < 2 ^ 16 - 1 → (t.core c).fld 0x1918 47 32 = k.fld 0x1918 47 32 + 1)))

/-- R190, R191, R193 to R195, R197: what waits for the spill ring goes on first (s1); then a stage that may fire takes its inputs and reserves its outputs; a firing that is done hands its slots
over; a spilled item returns to an ordinary slot; what the sequencer holds enters its queue; a stall is reported. Where the rules leave a
point open it follows the model's own choices (logs 46), which are no rules of the spec. -/
def Obligations.FusedEvents : Prop :=
  ∀ (c : CoreId) (sn : StreamId) (s : State) (x : Stream) (u : Fused),
    let s1 := s.spillDue c sn.val
    let k := s1.core c
    let k0 := s.core c
    let stageOf (q : Core) (n : Nat) := ((q.stream sn.val).bind Stream.fused).bind (fun u => u.stages[n]?)
    k.stream sn.val = some x → x.fused = some u →
      (∀ (stage : Fin 6) (z : StageS), u.stages[stage.val]? = some z → x.st = .running → z.kind = .cvt → z.child = none → u.ready stage.val z = true →
        ∃ (q : Core) (z' : StageS), exec (.stageFire c sn stage) s = .next (s1.setCore c q) ∧ stageOf q stage.val = some z' ∧ z'.fired = z.fired + 1 ∧
          z'.flight.length = z.flight.length + 1 ∧ q.vq.length + q.seqHeldV.length = k.vq.length + k.seqHeldV.length + 1 ∧ q.tile = k.tile) ∧
      (∀ (stage : Fin 6) (z : StageS) (f : Firing) (r : List Firing), u.stages[stage.val]? = some z → z.flight = f :: r → z.kind ≠ .prog →
        z.aborted = false → u.stages.all (fun z => !z.aborted) = true → u.edges.all (fun e => e.marker.isNone) = true →
        k.firingDone z f = true → (∀ o ∈ f.outs, o.isSome = true) →
        ∃ (q : Core) (z' : StageS), exec (.slotHandover c sn stage) s = .next (s1.setCore c q) ∧ stageOf q stage.val = some z' ∧
          z'.completed = z.completed + 1 ∧ z'.flight = r ∧ q.tile = k.tile ∧ q.g = k.g) ∧
      (∀ (edge : Fin 8) (e : EdgeS) (o : Nat) (r : List Nat) (bs : List Byte) (p : Bool) (s' : State), u.edges[edge.val]? = some e → e.ring = o :: r →
        e.resv = 0 → e.used < e.ord → k.tagFor true ≠ none → spillIn (e.size / 64 + 2) s1 c u.spillCtx (u.spillVa + o) e.size = .ok (some (bs, p), s') →
        (s'.core c).streams = k.streams →
        ∃ (t : State) (u' : Fused) (e' : EdgeS), exec (.spillReadback c sn edge) s = .next t ∧ ((t.core c).stream sn.val).bind Stream.fused = some u' ∧
          u'.edges[edge.val]? = some e' ∧ e'.ring = r ∧ e'.full = e.full + 1 ∧ (t.core c).tileRead (e.slotAt e.used) bs.length = bs) ∧
      (∀ (held : Nat) (e : VEntry) (v : SeqV) (r : List VEntry), k0.seqHeldV = e :: r → k0.seqHeldM = [] → e.seq = some v → k0.vq.length < 8 →
        (k0.waitsFor 5 = false ∨ 16 ≤ held) → ∃ q : Core, exec (.sequencerQueueEntry c held) s = .next (s.setCore c q) ∧ q.seqHeldV = r ∧
          q.vq.map VEntry.seq = k0.vq.map VEntry.seq ++ [some v] ∧ q.tile = k0.tile ∧ q.g = k0.g) ∧
      (∀ y, k0.stream sn.val = some y → y.fused.isSome = true → y.st = .running → k0.fld 0x1908 31 16 ≠ 0 → ∃ (t : State) (r : Report), exec (.fusedStall c sn) s = .next t ∧ t.erWait = s.erWait ++ [r] ∧
        r.code = 0x6021 ∧ r.num = c.val ∧ r.tag = (match y.last, y.fused with | some l, _ => l.tag | none, some w => w.tag | _, _ => 0) ∧ t.cores = s.cores)

/-- R189, R205 to R208: pr.arrive makes an arrival, pr.wait waits for its release, pr.sync does both; an arrival enters the tree when the
streams it drains have ended; when every member of a channel of this package has arrived, all are released and the epoch counts. -/
def Obligations.PressTree : Prop :=
  ∀ (c : CoreId) (imm : BitVec 6) (ch : PressId) (s : State),
    let k := s.core c
    let n : PressId := chOfImm imm
    let p := k.press n
    (s.isMember c n = false → s.doesFault c (.prArrive c imm) 0x6041 0 ∧ (p.bySync = false → s.doesFault c (.prSync c imm) 0x6041 0)) ∧
    (s.isMember c n = true → p.pending = true → s.doesHold c (.prArrive c imm) .prArrive) ∧
    (s.isMember c n = true → p.pending = false → s.takes c (.prArrive c imm) = true → ∃ q : Core, exec (.prArrive c imm) s = .next (s.setCore c q) ∧
      (q.press n).pending = true ∧ (q.press n).entered = false ∧ (q.press n).drain = imm.getLsbD 2 ∧ (∀ m, m ≠ n → q.press m = k.press m) ∧
      q.g = k.g ∧ q.tile = k.tile) ∧
    (p.pending = true → s.doesHold c (.prWait c imm) .prWait ∧ (p.bySync = true → s.doesHold c (.prSync c imm) .prSync)) ∧
    (p.pending = false → s.takes c (.prWait c imm) = true → ∃ q : Core, exec (.prWait c imm) s = .next (s.setCore c q) ∧ q.pr = k.pr ∧ q.g = k.g ∧ q.tile = k.tile) ∧
    (p.bySync = true → p.pending = false → s.takes c (.prSync c imm) = true → ∃ q : Core, exec (.prSync c imm) s = .next (s.setCore c q) ∧
      q.press n = { p with bySync := false } ∧ q.held = none ∧ q.g = k.g ∧ q.tile = k.tile) ∧
    (p.bySync = false → p.pending = false → s.isMember c n = true → s.takes c (.prSync c imm) = true →
      ∃ (q : Core) (h : HeldAt), exec (.prSync c imm) s = .next (s.setCore c q) ∧ q.held = some h ∧ h.why = .prSync ∧ (q.press n).pending = true ∧
        (q.press n).bySync = true ∧ q.pcc = k.pcc ∧ q.g = k.g) ∧
    (let a := k.press ch
     let s1 := s.updCore c (fun k => k.updPress ch (fun x => { x with entered := true }))
     a.pending = true → a.entered = false → a.waits.all (fun g => !k.openGens.contains g && !k.outstanding g) = true → s.isMember c ch = true →
       (s1.localDone ch = false → exec (.pressArrivalEnter c ch) s = .next s1) ∧
       (s1.localDone ch = true → s.system ch = false → s.rs.capture = none → s.rs.standing = none → s.rs.snaps = [] →
         ∃ t, exec (.pressArrivalEnter c ch) s = .next t ∧
           (∀ d, s.isMember d ch = true → ((t.core d).press ch).pending = false ∧
             (((s.core d).press ch).pending = true → ((t.core d).press ch).entered = false ∧
               ((s.core d).pressWaits ch = false → (t.core d).fld 0x1618 3 3 = 1)) ∧
             (t.core d).g = (s.core d).g ∧ (t.core d).tile = (s.core d).tile) ∧
           ((s.epoch ch).toNat < 2 ^ 64 - 1 → t.epoch ch = s.epoch ch + 1))) ∧
    (s.pressRuns ch = true → s.pkgFld 0x400000 15 0 ≠ 0 → ∃ (t : State) (r : Report), exec (.pressTimeout ch) s = .next t ∧ t.erWait = s.erWait ++ [r] ∧
      r.code = 0x6040 ∧ r.detail = BitVec.ofNat 128 ch.val ∧ t.cores = s.cores)

/-- R201 to R204, R211: mg.post and mg.rot take a ring descriptor, mg.wait gives the code that ended them; a rotation moves the core's area
to the next core's posted area, byte for byte, and unequal lengths move nothing. Where the rules leave a
point open it follows the model's own choices (logs 82, 102), which are no rules of the spec. -/
def Obligations.MangleRing : Prop :=
  ∀ (c : CoreId) (cM : CReg) (gA gD : GReg) (s : State),
    let k := s.core c
    let n : CoreId := ringNext c
    let off := (k.getG gA).toNat
    let desc (perm : Nat) := ringDesc k (k.getC cM) off perm
    (∀ code a, desc pST = .error (code, a) → s.doesFault c (.mgPost c cM gA) code (BitVec.ofNat 64 a)) ∧
    (∀ code a, desc pLD = .error (code, a) → s.doesFault c (.mgRot c cM gA) code (BitVec.ofNat 64 a)) ∧
    (∀ d, desc pST = .ok d → (k.mgPost ≠ none → s.doesHold c (.mgPost c cM gA) .mgSlot) ∧
      (k.mgPost = none → s.takes c (.mgPost c cM gA) = true → ∃ q : Core, exec (.mgPost c cM gA) s = .next (s.setCore c q) ∧ q.mgPost = some d ∧
        q.mgRot = k.mgRot ∧ q.g = k.g ∧ q.tile = k.tile)) ∧
    (∀ d, desc pLD = .ok d → (k.mgRot ≠ none → s.doesHold c (.mgRot c cM gA) .mgSlot) ∧
      (k.mgRot = none → s.takes c (.mgRot c cM gA) = true → ∃ q : Core, exec (.mgRot c cM gA) s = .next (s.setCore c q) ∧ q.mgRot = some d ∧
        q.mgPost = k.mgPost ∧ q.g = k.g ∧ q.tile = k.tile)) ∧
    (let l := k.mgPost.toList ++ k.mgRot.toList
     (l.all MgOp.ended = false → s.doesHold c (.mgWait c gD) .mgWait) ∧
     (l.all MgOp.ended = true → s.takes c (.mgWait c gD) = true → ∃ q : Core, exec (.mgWait c gD) s = .next (s.setCore c q) ∧ q.mgPost = none ∧ q.mgRot = none ∧
       (gD ≠ 0 → q.getG gD = (((l.map MgOp.code).find? (fun x => x != 0)).getD 0).setWidth 64) ∧ (∀ r, r ≠ gD → q.getG r = k.getG r) ∧ q.tile = k.tile)) ∧
    (∀ (r p : MgOp), k.mgRot = some r → (s.core n).mgPost = some p → r.ended = false → p.ended = false →
      (r.started = false → p.started = false → (s.core n).run ≠ .inReset →
        ∃ t, exec (.mgRotationStart c) s = .next t ∧ (∀ d, (t.core d).tile = (s.core d).tile ∧ (t.core d).g = (s.core d).g) ∧
          (p.len = r.len → (t.core c).mgRot = some { r with started := true, held := false } ∧ (t.core n).mgPost = some { p with started := true }) ∧
          (p.len ≠ r.len → (t.core c).mgRot = some { r with ended := true, held := false, code := 0x6030 } ∧
            (t.core n).mgPost = some { p with ended := true, code := 0x6030 } ∧
            ∃ f, t.frWait = s.frWait ++ [f] ∧ f.code = 0x6030 ∧ f.num = c.val)) ∧
      (r.started = true → p.started = true → r.len % 16 = 0 →
        ∃ t, exec (.mgRotationEnd c) s = .next t ∧ (t.core c).mgRot = some { r with ended := true } ∧ (t.core n).mgPost = some { p with ended := true } ∧
          (∀ j, j < r.len → (t.core n).tileByte (p.area + j) = k.tileByte (r.area + j)) ∧
          (∀ a, (a < p.area ∨ p.area + r.len ≤ a) → (t.core n).tileByte a = (s.core n).tileByte a) ∧ (t.core c).tile = k.tile ∧
          ∀ d, (t.core d).g = (s.core d).g))

/-! ## Translation, invalidation and windows -/

/-- R213 to R218: what an address translates to, and the first fault of an access. -/
def Sys2Proof.translations : Prop :=
  ∀ (c : CoreId) (ctx : BitVec 4) (va : Nat) (acc : Acc) (s : State),
    let k := s.core c
    let r := s.walk c ctx va
    let out := s.translate c ctx va acc
    let write : Prop := acc = .store ∨ acc = .accum
    (2 ^ 48 ≤ va → out = .fault 0x7010) ∧
    (va < 2 ^ 48 → s.ctxEn ctx = false → out = .fault 0x7030) ∧
    (va < 2 ^ 48 → s.ctxEn ctx = true →
      (∀ f, k.tlbFind ctx va = none → r.fault = some f → out = .fault f) ∧
      ∀ (l : TlbE) (w : Option WalkRes), (k.tlbFind ctx va = some l ∧ w = none ∨ k.tlbFind ctx va = none ∧ r.fault = none ∧ l = r.leaf ∧ w = some r) →
        let pa := l.base + va % 2 ^ l.sh
        (write → l.w = false → out = .fault 0x7021) ∧
        (acc = .fetch → (l.x = false ∨ l.host = true ∨ 2 ^ 47 ≤ l.base) → out = .fault 0x7022) ∧
        ((write → l.w = true) → (acc = .fetch → l.x = true ∧ l.host = false ∧ l.base < 2 ^ 47) →
          (l.host = true → s.ctxHost ctx = false → out = .fault 0x7025) ∧
          (l.host = true → s.ctxHost ctx = true → out = .ok { pa := pa, host := true, nc := l.nc } w) ∧
          (l.host = false → paReserved pa = true → out = .fault 0x7011) ∧
          (l.host = false → paKind pa = .dev → out = .ok { pa := pa, host := false, nc := l.nc } w) ∧
          (∀ p off, l.host = false → paKind pa = .remote p off → out = .ok { pa := pa, host := false, nc := true } w) ∧
          ∀ d off, l.host = false → paKind pa = .win d off → winHole d off = false →
            out = if s.winCtx ctx then .ok { pa := pa, host := false, nc := true } w else .fault 0x7026))

/-- R215 to R218: the walk goes from the root through one entry of each level to a leaf; an entry that is poisoned, invalid or
malformed faults. -/
def Sys2Proof.pageWalks : Prop :=
  ∀ (rd : Nat → Nat × Bool) (ctx : BitVec 4) (va root e0 e1 e2 : Nat),
    let out := walkFrom rd ctx va 3 0 root
    let ptr (e lv : Nat) : Prop := e.testBit 0 = true ∧ entryBad e lv = false ∧ e.testBit 1 = false ∧ paKind (entryAddr e) = .dev
    let leaf (e lv : Nat) : Prop := e.testBit 0 = true ∧ entryBad e lv = false ∧ e.testBit 1 = true ∧ entryAddr e % 2 ^ lvShift lv = 0
    let found (e lv : Nat) : Prop := out.fault = none ∧
      out.leaf = ⟨ctx, lvShift lv, va / 2 ^ lvShift lv, entryAddr e, e.testBit 2, e.testBit 3, e.testBit 4, e.testBit 5⟩
    let a0 := root + 8 * (va / 2 ^ 35 % 2 ^ 13)
    let a1 := entryAddr e0 + 8 * (va / 2 ^ 30 % 2 ^ 5)
    let a2 := entryAddr e1 + 8 * (va / 2 ^ 25 % 2 ^ 5)
    (rd a0 = (e0, true) → out.fault = some 0x7024) ∧
    (rd a0 = (e0, false) →
      (e0.testBit 0 = false → out.fault = some 0x7020) ∧ (e0.testBit 0 = true → entryBad e0 0 = true → out.fault = some 0x7023) ∧
      (leaf e0 0 → found e0 0) ∧
      (ptr e0 0 → rd a1 = (e1, false) →
        (e1.testBit 0 = false → out.fault = some 0x7020) ∧ (leaf e1 1 → found e1 1) ∧
        (ptr e1 1 → rd a2 = (e2, false) → (e2.testBit 0 = false → out.fault = some 0x7020) ∧ (leaf e2 2 → found e2 2))))

/-- R219: a miss enters a walk; a walk that ends installs its leaf, or faults, or is made again after an invalidation. -/
def Sys2Proof.walkEvents : Prop :=
  ∀ (c : CoreId) (ctx : BitVec 4) (va : W64) (acc : Acc) (i n : Nat) (s : State),
    let k := s.core c
    (va.toNat < 2 ^ 48 → s.ctxEn ctx = true → k.tlbFind ctx va.toNat = none → k.walks.any (fun w => samePage w ctx va) = false →
      ∃ q : Core, exec (.translationWalk c ctx va acc) s = .next (s.setCore c q) ∧ q.walks = k.walks ++ [{ ctx := ctx, va := va, acc := acc, stale := false }] ∧
        ((k.reg 0x1A08).toNat < 2 ^ 64 - 1 → q.reg 0x1A08 = k.reg 0x1A08 + 1) ∧ q.tlb = k.tlb ∧ q.g = k.g ∧ q.tile = k.tile) ∧
    (∀ w, k.walks[i]? = some w → i < 4 →
      let r := (s.updCore c (fun k => k.count 0x1A10 63 0 n)).walk c w.ctx w.va.toNat
      ∃ q : Core, exec (.walkComplete c i n) s = .next (s.setCore c q) ∧ q.g = k.g ∧ q.tile = k.tile ∧
        (w.stale = true → q.walks[i]? = some { w with stale := false } ∧ q.walks.length = k.walks.length ∧ q.tlb = k.tlb) ∧
        (w.stale = false → q.walks = k.walks.eraseIdx i ∧
          (r.fault ≠ none → q.tlb = k.tlb ∧ q.walkCache = k.walkCache ∧ ((k.reg 0x1A18).toNat < 2 ^ 64 - 1 → q.reg 0x1A18 = k.reg 0x1A18 + 1)) ∧
          (r.fault = none → let old := k.tlb.filter (fun e => !sameLeaf e r.leaf)
            q.tlb = (if old.length < Config.tlbEntries then old else old.drop 1) ++ [r.leaf])))

/-- R213 to R219: address translation: its outcomes, its walks, and the walks of a unit as events. Where the rules leave a
point open it follows the model's own choices (logs 13, 14, 60, 109), which are no rules of the spec. -/
def Obligations.Translation : Prop := translations ∧ pageWalks ∧ walkEvents

/-- R222 to R227, R230, R231: an invalidation enters its queue, is broadcast, is received and acknowledged by every unit, and its
sequence number is done; TRINV invalidates in one unit; a window's drain ends. Where the rules leave a
point open it follows the model's own choices (logs 34, 105), which are no rules of the spec. -/
def Obligations.Invalidation : Prop :=
  ∀ (c : CoreId) (w : Fin 64) (v : W64) (s : State),
    let k := s.core c
    let kept (q : Core) (doorbell : Bool) : Prop :=
      (∀ e, e ∈ q.tlb ↔ e ∈ k.tlb ∧ invHits v e.ctx (e.vpn * 2 ^ e.sh) (2 ^ e.sh) = false) ∧
      (∀ e, e ∈ q.walkCache ↔ e ∈ k.walkCache ∧ invHits v e.ctx (e.vpn * 2 ^ lvShift (e.lv - 1)) (2 ^ lvShift (e.lv - 1)) = false) ∧
      (∀ x ∈ q.walks, invHits v x.ctx x.va.toNat 1 = true → x.stale = true) ∧ q.walks.length = k.walks.length ∧
      q.invPend = k.invPend ++ [{ req := v, doorbell := doorbell }] ∧ q.g = k.g ∧ q.tile = k.tile
    (invBad v = false → s.invQ.length < 16 → exec (.invDbWrite v) s = .next { s with invQ := s.invQ ++ [v] }) ∧
    ((invBad v = true ∨ 16 ≤ s.invQ.length) → ∃ (t : State) (r : Report), exec (.invDbWrite v) s = .next t ∧ t.invQ = s.invQ ∧
      t.pkgFld 0x500108 8 8 = 1 ∧ t.erWait = s.erWait ++ [r] ∧ r.code = 0x7051) ∧
    (s.invQ ≠ [] → s.invRun = false → s.pkgFld 0x500108 9 9 = 1 →
      exec .invBroadcast s = .next { s with invRun := true, invGot := 0, invAck := 0, invTimed := false }) ∧
    (∀ r, s.invQ = v :: r → s.invRun = true → s.invGot.getLsbD c.val = false → k.run ≠ .inReset →
      ∃ t, exec (.invUnitReceipt c) s = .next t ∧ t.invGot.getLsbD c.val = true ∧ kept (t.core c) true ∧ ∀ d, d ≠ c → t.core d = s.core d) ∧
    (∀ b : Bool, k.invPend.any (fun p => p.doorbell == b) = true → s.invClear c b = true → (∀ p ∈ s.journal, p.2.invalTurn = none) →
      ∃ t, exec (.invUnitAck c false) s = .next t ∧ (∀ p ∈ (t.core c).invPend, p.doorbell ≠ b) ∧
        (b = true → t.invAck.getLsbD c.val = true) ∧ (b = false → (t.core c).fld 0x1A28 0 0 = 1)) ∧
    (k.invPend.any InvReq.doorbell = true → s.invClear c true = true → s.invClear c false = false →
      ∃ (t : State) (r : Report), exec (.invUnitAck c true) s = .next t ∧ t.invAck = s.invAck ∧ t.pkgFld 0x500108 9 9 = 0 ∧
        t.frWait = s.frWait ++ [r] ∧ r.code = 0x7052) ∧
    (s.invClear c true = false → s.invClear c false = false → exec (.invUnitAck c false) s = .next s) ∧
    (∀ r, s.invQ = v :: r → s.invRun = true → s.invAck = BitVec.allOnes 64 →
      ∃ t, exec .invDone s = .next t ∧ t.pkgFld 0x500110 15 0 = (v >>> 48).toNat ∧ t.invQ = r ∧ t.invRun = false ∧ t.cores = s.cores) ∧
    (s.invRun = true → s.invTimed = false → s.invAck ≠ BitVec.allOnes 64 → s.pkgFld 0x500118 15 0 ≠ 0 → ∃ (t : State) (r : Report), exec .invTimeout s = .next t ∧
      t.erWait = s.erWait ++ [r] ∧ r.code = 0x7050 ∧ r.detail = BitVec.ofNat 128 (~~~s.invAck).toNat ∧ t.invQ = s.invQ ∧ t.invRun = true ∧ t.invTimed = true) ∧
    (∃ t, exec (.trinvWrite .cretas c v) s = .next t ∧ (t.core c).fld 0x1A28 0 0 = 0 ∧ kept (t.core c) false ∧ ∀ d, d ≠ c → t.core d = s.core d) ∧
    (∀ x : Writer, x ≠ .cretas → ∃ t, exec (.trinvWrite x c v) s = .next t ∧ t.cores = s.cores ∧
      (s.pkgFld 0x500128 15 0 < 2 ^ 16 - 1 → t.pkgFld 0x500128 15 0 = s.pkgFld 0x500128 15 0 + 1)) ∧
    ((∀ r ∈ s.homeWait, ∀ w0 m x, r = .msg w0 m (some x) → x.w ≠ w) → ∃ t, exec (.windowDrainEnd w) s = .next t ∧ t.winDrain.getLsbD w.val = false ∧
      (∀ i, i ≠ w.val → t.winDrain.getLsbD i = s.winDrain.getLsbD i) ∧ t.cores = s.cores ∧ t.mem = s.mem ∧ t.dies = s.dies)

/-! ## Caches -/

/-- R243 to R245, R253: a Read brings the line into the reader's L2: as a shared copy of the first holder's value, whose M becomes O and E
becomes S, or alone from its home; a ReadCur answers the current value and keeps no copy. A request that meets another of its line
is marked for a retry, one that a hold window defers is kept by the holder, and one that must wait waits at the home. The errors that its
look-ups find act first. -/
def Sys2Proof.cacheReads : Prop :=
  ∀ (cl : ClusterId) (line : BitVec 58) (host scalar bad : Bool) (s : State),
    let key := lineKey host line.toNat
    let k := s.cluster cl
    let rd := Instr.cacheRead cl line host scalar [] bad []
    let holds (t : State) (x : ClusterId) : Option (LSt × LData) := ((t.cluster x).find key).map (fun l => (l.st, l.d))
    let s1 := (s.updCluster cl (fun k => k.count 0x18 63 0 1)).waitHold cl key
    (host = true ∨ paKind (64 * key) = .dev) →
      (∀ errs, exec (.cacheRead cl line host scalar [] bad errs) s = exec rd (s.cacheErrs key errs)) ∧
      (∀ s', s.gate (some cl) [key] false = some s' → exec rd s = .next { s' with homeWait := s'.homeWait ++ [.read cl key scalar bad] }) ∧
      (s.gate (some cl) [key] false = none →
        (s.lineBusy cl none key = true → ∃ (t : State) (r : CohReq), exec rd s = .next t ∧ (t.cluster cl).reqs = k.reqs ++ [r] ∧ r.kind = .read ∧
          r.key = key ∧ r.retry = true ∧ r.scalar = scalar ∧ (∀ x, (t.cluster x).l2 = (s.cluster x).l2) ∧ t.cores = s.cores ∧ t.mem = s.mem) ∧
        (∀ h, s.lineBusy cl none key = false → s.heldBy cl key = some h → ∃ t, exec rd s = .next t ∧
          (t.cluster h).defers.any (fun d => d.cl == cl && d.key == key && d.kind == 0) = true ∧ (∀ x, (t.cluster x).l2 = (s.cluster x).l2) ∧ t.mem = s.mem) ∧
        (s.lineBusy cl none key = false → s.heldBy cl key = none →
          (∀ l, k.find key = some l → ∃ t, exec rd s = .next t ∧ holds t cl = some (l.st, l.d) ∧ t.mem = s.mem ∧ t.cores = s.cores) ∧
          (k.find key = none → (∀ e, k.ham key = some e → e.kind ≠ .victim) → (scalar = true ∨ k.fld 0 3 0 ≠ 0) →
            (∀ x y, s.firstSupply cl key = some (x, y) → ∃ t, exec rd s = .next t ∧ holds t cl = some (.s, y.d) ∧
              (x ≠ cl → ((t.cluster x).supply key).map Supply.st = some (shareSt y.st))) ∧
            (s.otherCopy cl key = false → (bad = false ∨ host = false) →
              ∃ t, exec rd s = .next t ∧ holds t cl = some (.e, (s1.homeLine key).1)))) ∧
        (host = false →
          (s.lineBusy cl none key = false → ∃ t, exec (.cacheReadcur cl line) s = .next t ∧ t.answer = leBytes 64 (s.fetchLine cl key).1.data.toNat ∧
            (∀ x, (t.cluster x).l2 = (s.cluster x).l2) ∧ t.cores = s.cores) ∧
          (s.lineBusy cl none key = true → ∃ t, exec (.cacheReadcur cl line) s = .next t ∧ t.answer = s.answer ∧
            ∀ x, (t.cluster x).l2 = (s.cluster x).l2)))

/-- R243 to R245, R247: a ReadOwn, Upgrade or WriteInv enters at its home; when its snoop returns, the owner alone holds the line, in
M or E, and a WriteInv leaves no copy; a retry passes the home again; a hold window ends. -/
def Sys2Proof.cacheOwners : Prop :=
  ∀ (cl : ClusterId) (line : BitVec 58) (host : Bool) (i : Nat) (mask : BitVec 64) (data : BitVec 512) (poison : Bool) (s : State),
    let key := lineKey host line.toNat
    let k := s.cluster cl
    let hit (d : Deferred) : Bool := decide (d.key % 2 ^ 58 = line.toNat)
    let enters (c : Instr) (kind : ReqKind) : Prop := ∃ (t : State) (r : CohReq), exec c s = .next t ∧ (t.cluster cl).reqs = k.reqs ++ [r] ∧ r.kind = kind ∧
      r.key = key ∧ r.tries = 0 ∧ r.retry = s.lineBusy cl none key ∧ (kind = .writeInv → r.mask = mask ∧ r.data = data ∧ r.poison = poison) ∧
      (t.cluster cl).l2 = k.l2 ∧ t.cores = s.cores ∧ t.mem = s.mem
    ((host = true ∨ paKind (64 * key) = .dev) → enters (.cacheReadown cl line host []) .readOwn) ∧
    (∀ l, k.find key = some l → (l.st = .s ∨ l.st = .o) → enters (.cacheUpgrade cl line host) .upgrade) ∧
    (host = false → paKind (64 * key) = .dev → enters (.cacheWriteinv cl line mask data poison) .writeInv) ∧
    (∀ r, k.reqs[i]? = some r →
      (r.retry = true → r.kind.owns = false → s.lineBusy cl (some i) r.key = false → s.gate (some cl) [r.key] false = none → s.heldBy cl r.key = none →
        ∃ t, exec (.retryReissue cl i) s = .next t ∧ (t.cluster cl).reqs = k.reqs.eraseIdx i) ∧
      (r.retry = true → (r.kind.owns = true ∨ s.lineBusy cl (some i) r.key = true) → ∃ t r', exec (.retryReissue cl i) s = .next t ∧ (t.cluster cl).reqs[i]? = some r' ∧ r'.tries = r.tries + 1 ∧
        r'.retry = s.lineBusy cl (some i) r.key ∧ r'.kind = r.kind ∧ r'.key = r.key ∧ (t.cluster cl).l2 = k.l2) ∧
      (r.retry = false → s.gate (if r.kind = .writeInv then none else some cl) [r.key] true = none → s.heldBy cl r.key = none →
        let s0 := s.updCluster cl (fun k => { k with reqs := k.reqs.eraseIdx i })
        let s2 := match (s0.cluster cl).find r.key with | some _ => s0 | none => (s0.recall cl r.key true).getD s0
        let alone (t : State) : Prop := (∀ x, x ≠ cl → (t.cluster x).supply r.key = none) ∧ ∀ c, (t.core c).l1Has r.key = false
        ((r.kind = .readOwn ∨ r.kind = .upgrade) →
          ∃ t l, exec (.snoopReturn cl i) s = .next t ∧ (t.cluster cl).find r.key = some l ∧
            (∀ l0, (s2.cluster cl).find r.key = some l0 → l.d = l0.d ∧ l.scalar = true ∧
              ((l0.st = .m ∨ l0.st = .e) → l.st = l0.st) ∧ ((l0.st = .s ∨ l0.st = .o) → l.st = .m ∧ alone t)) ∧
            ((s2.cluster cl).find r.key = none → (l.st = .m ∨ l.st = .e) ∧ l.scalar = true ∧ alone t)) ∧
        (r.kind = .writeInv → ∃ t, exec (.snoopReturn cl i) s = .next t ∧ alone t ∧ (t.cluster cl).supply r.key = none))) ∧
    (∃ t, exec (.holdWindowEnd cl line) s = .next t ∧ (∀ d ∈ (t.cluster cl).defers, hit d = false)) ∧
    (∀ d, k.defers.filter hit = [d] → d.kind = 0 → d.scalar = true →
      ∃ t, exec (.holdWindowEnd cl line) s = .next t ∧ ((t.cluster d.cl).find d.key).isSome = true) ∧
    ((∀ d ∈ k.defers, hit d = true → d.kind ≠ 0) → ∃ t, exec (.holdWindowEnd cl line) s = .next t ∧ (∀ l ∈ (t.cluster cl).l2, l.key % 2 ^ 58 = line.toNat → l.hold = false) ∧
      (t.cluster cl).l2.map (fun l => (l.key, l.st, l.d)) = k.l2.map (fun l => (l.key, l.st, l.d)) ∧
      t.cores = s.cores ∧ t.mem = s.mem)

/-- R235, R243 to R247: the requests of the coherence protocol. Where the rules leave a
point open it follows the model's own choices (logs 13, 16, 22, 44, 77, 84), which are no rules of the spec. -/
def Obligations.CoherentRequests : Prop := cacheReads ∧ cacheOwners

/-- R239 to R241, R247 to R250, R254: a line leaves an L2 through the hamper: dirty lines and streaming lines with a message, clean
scalar lines as victims; the message reaches its home; the acknowledgement frees the entry; the host's snoops and its completions. Where the rules leave a
point open it follows the model's own choices (logs 17, 22, 84, 103, 110), which are no rules of the spec. -/
def Obligations.Evictions : Prop :=
  ∀ (cl : ClusterId) (set n i waits : Nat) (line : BitVec 58) (want : HostSnp) (r : RegionId) (s : State),
    let k := s.cluster cl
    let hkey := lineKey true line.toNat
    let copies (t : State) : Prop := t.heldAnywhere hkey = true
    (∀ v, (k.l2.filter (fun l => l2Set l.key == set)).getLast? = some v →
      let dirty : Prop := v.st = .m ∨ v.st = .o
      ∃ t, exec (.l2Eviction cl set waits) s = .next t ∧ (t.cluster cl).l2 = k.l2.filter (fun l => l.key != v.key) ∧ t.cores = s.cores ∧ t.mem = s.mem ∧
        (k.hamRoom = true → dirty → { key := v.key, kind := .writeback, st := some v.st, scalar := v.scalar, d := v.d, stale := false } ∈ (t.cluster cl).hamper ∧
          (isHost v.key = false → (t.region (s.homeOf v.key)).moves = (s.region (s.homeOf v.key)).moves ++
            [{ cl := cl, key := v.key, offer := false, stale := false, d := v.d }])) ∧
        (k.hamRoom = true → ¬dirty → v.scalar = false → { key := v.key, kind := .offer, st := some v.st, scalar := false, d := v.d, stale := false } ∈ (t.cluster cl).hamper) ∧
        (k.hamRoom = true → ¬dirty → v.scalar = true → k.fld 0 8 8 = 1 →
          { key := v.key, kind := .victim, st := some v.st, scalar := true, d := v.d, stale := false } ∈ (t.cluster cl).hamper ∧
          ∀ h, (t.region h).moves = (s.region h).moves) ∧
        (k.hamRoom = false → (dirty ∨ v.scalar = false ∨ k.fld 0 8 8 = 1) → (t.cluster cl).evWait = k.evWait ++ [v] ∧ (t.cluster cl).hamper = k.hamper ∧
          (k.fld 0x28 63 0 + waits < 2 ^ 64 → (t.cluster cl).fld 0x28 63 0 = k.fld 0x28 63 0 + waits))) ∧
    (∀ v r, k.evWait = v :: r → ∃ (t : State) (x : Report), exec (.hamperWait cl) s = .next t ∧ t.erWait = s.erWait ++ [x] ∧ x.code = 0x5030 ∧
      x.num = cl.val ∧ t.clusters = s.clusters) ∧
    (∀ m, (s.region r).moves[i]? = some m →
      let rest := (s.region r).moves.eraseIdx i
      ∃ t, exec (.writebackArrival r i) s = .next t ∧ (t.region r).moves = rest ∧ t.clusters = s.clusters ∧ t.cores = s.cores ∧
        (m.offer = false → isHost m.key = false → (s.region (s.homeOf m.key)).rcOn = true →
          (t.region (s.homeOf m.key)).rcFind m.key = some { key := m.key, dirty := true, used := false, d := m.d }) ∧
        (m.offer = true → m.stale = true → (t.region r).rc = (s.region r).rc ∧
          ((s.region r).fld 0x20028 63 0 < 2 ^ 64 - 1 → (t.region r).fld 0x20028 63 0 = (s.region r).fld 0x20028 63 0 + 1)) ∧
        (m.offer = true → m.stale = false → (s.region r).declines m.key = true → (t.region r).rc = (s.region r).rc ∧
          ((s.region r).fld 0x20020 63 0 < 2 ^ 64 - 1 → (t.region r).fld 0x20020 63 0 = (s.region r).fld 0x20020 63 0 + 1)) ∧
        (m.offer = true → m.stale = false → (s.region r).declines m.key = false →
          (t.region (s.homeOf m.key)).rcFind m.key = some { key := m.key, dirty := false, used := false, d := m.d })) ∧
    (let key := line.toNat
     let moving : Bool := paKind (64 * key) == .dev && (s.region (s.homeOf key)).moves.any (fun m => m.key == key && m.cl == cl)
     (moving = true → exec (.evictionAck cl line n) s = .next s) ∧
     (∀ e, moving = false → k.evWait = [] → k.hamper.find? (fun e => e.key == key && e.kind != .victim) = some e →
       ∃ t, exec (.evictionAck cl line n) s = .next t ∧ (t.cluster cl).l2 = k.l2 ∧ t.cores = s.cores ∧
         (∀ st, e.st = some st → e.scalar = true → k.fld 0 8 8 = 1 → (t.cluster cl).hamper =
           { e with kind := .victim, st := some (if st = .m ∨ st = .e then .e else .s) } :: k.hamper.erase e) ∧
         ((e.st = none ∨ e.scalar = false ∨ k.fld 0 8 8 ≠ 1) → (t.cluster cl).hamper = k.hamper.erase e))) ∧
    ((∀ x, (s.cluster x).hostTransit hkey = false) →
      (s.heldAnywhere hkey = false → ∃ t, exec (.h2dSnoop line want) s = .next t ∧ t.answer = [0] ∧ t.clusters = s.clusters ∧ t.hostMem = s.hostMem) ∧
      (∀ d, s.heldAnywhere hkey = true → s.dirtyData hkey = some d → ∃ t, exec (.h2dSnoop line want) s = .next t ∧
        t.answer = (match want with | .inv => 3 | .data => 4 | .cur => 7) :: leBytes 64 d.data.toNat ∧
        (want ≠ .cur → t.hostGet (64 * line.toNat) 64 = d.bytes 0 64 ∧
          (∀ a, (a < 64 * line.toNat ∨ 64 * line.toNat + 64 ≤ a) → t.hostGet a 1 = s.hostGet a 1)) ∧
        (want = .inv → ¬copies t) ∧ (want = .data → ∀ x l, l ∈ (t.cluster x).l2 → l.key = hkey → l.st = .s) ∧
        (want = .cur → t.hostMem = s.hostMem ∧ t.clusters = s.clusters)) ∧
      (s.heldAnywhere hkey = true → s.dirtyData hkey = none → ∃ t, exec (.h2dSnoop line want) s = .next t ∧
        t.answer = [match want with | .inv => 1 | .data => 2 | .cur => 6] ∧ t.hostMem = s.hostMem ∧ (want = .inv → ¬copies t))) ∧
    (∀ e, k.hamper.find? (fun e => e.key == hkey && e.kind != .victim) = some e → k.evWait = [] →
      ∃ t, exec (.hostEvictGo cl line n) s = .next t ∧ (t.cluster cl).hamper = k.hamper.erase e ∧ (t.cluster cl).l2 = k.l2 ∧
        (e.kind = .writeback → e.st ≠ none → t.hostMem = (s.hostPut (64 * line.toNat) (e.d.bytes 0 64)).hostMem) ∧
        ((e.kind = .offer ∨ e.st = none) → t.hostMem = s.hostMem))

/-! ## Device memory -/

/-- R241, R265, R266, R269, R281, R282: a request that its frame mask allows, and the region cache does not answer, enters its
channel's queue where there is room and the channel may serve; a burst that ends a write of whole blocks has written its bytes. -/
def Sys2Proof.controllerQueues : Prop :=
  ∀ (r : RegionId) (p : PhysId) (q : MReq) (i n : Nat) (pois : List Bool) (ecc : List Ecc) (s : State),
    let pa := q.pa.toNat
    let pl := s.place pa
    let c := (s.region r).chans.get p
    let serves : Prop := s.memReady = true ∧ (s.region r).quiesced = false ∧ s.crs.resets.contains (2, r.val) = false ∧
      ¬((s.region r).patch.state = 3 ∧ (s.region r).patch.lch = pl.lch.val)
    (devSpan pa q.len = true → 0 < q.len → pl.region = r → pa % 256 + q.len ≤ 256 → q.src ≠ .own →
      (s.frameOk q.ctx pa = false → (∀ c t, q.src ≠ .tx c t) → ∃ (t : State) (x : Report), exec (.mcRequestArrival r q) s = .next t ∧ t.frWait = s.frWait ++ [x] ∧ x.code = 0x7031 ∧
        x.addr = BitVec.ofNat 64 pa ∧ t.regions = s.regions ∧ t.mem = s.mem) ∧
      (s.frameOk q.ctx pa = true → (q.kind = .read ∨ ∀ c t, q.src ≠ .tx c t) →
        (∀ key, pa / 64 ≤ key → key ≤ (pa + q.len - 1) / 64 → (s.region r).rcFind key = none) →
        let ph := (s.region r).physOf pl.lch
        ∃ t, exec (.mcRequestArrival r q) s = .next t ∧ t.mem = s.mem ∧ t.cores = s.cores ∧
          (serves → ((s.region r).chans.get ph).room (s.reqClass q) = true → ((t.region r).chans.get ph).queue = ((s.region r).chans.get ph).queue ++
            [{ req := q, cls := s.reqClass q, aged := false, lch := pl.lch.val, off := pl.addr, done := 0 }] ∧ (t.region r).ringWait = (s.region r).ringWait) ∧
          ((¬serves ∨ ((s.region r).chans.get ph).room (s.reqClass q) = false) → (t.region r).ringWait = (s.region r).ringWait ++ [q] ∧
            ((t.region r).chans.get ph).queue = ((s.region r).chans.get ph).queue))) ∧
    (c.svc = .retraining → c.queue ≠ [] → (s.region r).fld (mcOff p cRTWAIT) 63 0 + n < 2 ^ 64 → ∃ t, exec (.mcBurst r p ecc n) s = .next t ∧
      ((t.region r).chans.get p).queue = c.queue ∧ t.mem = s.mem ∧ (t.region r).fld (mcOff p cRTWAIT) 63 0 = (s.region r).fld (mcOff p cRTWAIT) 63 0 + n) ∧
    (c.svc ≠ .retraining → (s.region r).copyWants p = true → (s.region r).copyBehind = true → s.crs.resets.contains (2, r.val) = false →
      exec (.mcBurst r p ecc n) s = .next (s.updRegion r (fun q => { q with patch := q.patch.slot true }))) ∧
    (∀ j e, c.svc ≠ .retraining → ((s.region r).copyWants p && (s.region r).copyBehind) = false → (s.region r).pick p = some (j, e) →
      e.req.src ≠ .own → e.done = 0 → e.req.len = 64 → e.off % 64 = 0 → e.req.kind = .write →
      e.req.data.length = 64 → e.req.pa.toNat % 64 = 0 → (s.chanOf (s.place e.req.pa.toNat)).svc ≠ .dead → (s.chanOf (s.place (e.req.pa.toNat + 32))).svc ≠ .dead →
        ∃ t, exec (.mcBurst r p ecc n) s = .next t ∧ t.memRead e.req.pa.toNat 64 = e.req.data ∧
          ∀ a, (a < e.req.pa.toNat ∨ e.req.pa.toNat + 64 ≤ a) → t.memByte a = s.memByte a) ∧
    (∀ e, c.queue[i]? = some e → e.aged = false → ∃ t, exec (.entryAged r p i) s = .next t ∧ ((t.region r).chans.get p).queue[i]? = some { e with aged := true } ∧
      ((t.region r).chans.get p).queue.length = c.queue.length ∧ t.mem = s.mem ∧
      ((s.region r).fld (mcOff p cAGED) 63 0 < 2 ^ 64 - 1 → (t.region r).fld (mcOff p cAGED) 63 0 = (s.region r).fld (mcOff p cAGED) 63 0 + 1)) ∧
    (∀ (op a : Nat) (bs : List Byte), a % 4 ≠ 0 → s.memAcc op a bs pois = (s.placeCount (s.place a) cDROP 1, some 0x8080)) ∧
    (∀ (op a : Nat) (bs : List Byte), (op = 1 ∨ op = 2 ∨ op = 3) → a % 4 = 0 → bs.length = accBytes op → (s.chanOf (s.place a)).svc ≠ .dead →
      pois.length = bs.length → ∃ t, s.memAcc op a bs pois = (t, none) ∧
        (s.blockPoison (a / 32) = false → pois.any id = false → t.memRead a 4 = leBytes 4 (accWord op (leNat (s.memRead a 4)) (leNat bs)).1 ∧
          (∀ b, (b < a ∨ a + 4 ≤ b) → t.memByte b = s.memByte b) ∧ t.memPoison = s.memPoison) ∧
        ((s.blockPoison (a / 32) = true ∨ pois.any id = true) → t.mem = s.mem ∧ t.blockPoison (a / 32) = true ∧
          ∀ b, b ≠ a / 32 → t.blockPoison b = s.blockPoison b))

/-- R264, R271 to R280, R283, R284: the rinse, retraining, live patch and poison fill, the soak engines, and start-up. -/
def Sys2Proof.channelCare : Prop :=
  ∀ (r : RegionId) (p : PhysId) (moved ok : Bool) (back : List (Nat × List Byte)) (s : State),
    let q := s.region r
    let c := q.chans.get p
    let busy : Bool := q.chans.toList.any (fun c => c.svc == .retraining)
    let l : Fin 16 := Fin.ofNat 16 q.patch.lch
    let inReset := s.crs.resets.contains (2, r.val)
    (∀ lch, q.logicalOf p = some lch → q.fld 0x40028 8 8 = 1 → c.svc = .inService → c.room 3 = true → ∃ t, exec (.rinseRead r p []) s = .next t ∧ t.mem = s.mem ∧
      (t.region r).fld (mcOff p 0x10) 32 0 = (q.fld (mcOff p 0x10) 32 0 + 64) % Config.channelBytes) ∧
    ((c.due = true ∨ moved = true ∨ q.fld 0x40010 32 32 = 1 ∨ (q.patch.state = 1 ∧ p = q.spare)) → (c.svc = .inService ∨ c.svc = .spare) →
      ∃ t, exec (.retrainStart r p moved) s = .next t ∧ t.mem = s.mem ∧ (∀ x, x ≠ p → (t.region r).chans.get x = q.chans.get x) ∧
        (busy = false → (∀ x, x < p → (q.chans.get x).due = true → q.mayRetrain x = false) → q.mayRetrain p = true →
          ((t.region r).chans.get p) = { c with svc := .retraining, was := c.svc, fails := 0, due := false }) ∧
        (busy = true → q.patchHolds p = false → ((t.region r).chans.get p) = { c with due := true }) ∧
        (q.patchHolds p = true → (t.region r).chans.get p = c)) ∧
    (q.ringWait = [] → s.homeWait = [] → c.svc = .retraining → (∀ x, (q.chans.get x).svc = .retraining → x = p) →
      (ok = true → ∃ t, exec (.retrainEnd r ok) s = .next t ∧ ((t.region r).chans.get p) = { c with svc := c.was, fails := 0 } ∧
        (t.region r).patch.state = (if q.patch.state = 1 ∧ p = q.spare then 2 else q.patch.state) ∧ (t.region r).rtInt = BitVec.ofNat 32 (max 100 (q.fld 0x40010 31 0))) ∧
      (ok = false → c.fails < 2 → ∃ (t : State) (x : Report), exec (.retrainEnd r ok) s = .next t ∧ t.erWait = s.erWait ++ [x] ∧ x.code = 0x8030 ∧
        ((t.region r).chans.get p) = { c with fails := c.fails + 1 }) ∧
      (ok = false → 2 ≤ c.fails → ∃ (t : State) (x : Report) (rest : List Report), exec (.retrainEnd r ok) s = .next t ∧ t.frWait = s.frWait ++ x :: rest ∧
        x.code = 0x8031 ∧ ((t.region r).chans.get p).svc = .dead)) ∧
    (q.patch.state = 2 → inReset = false →
      (q.patch.done < chanGranules → q.patch.got = 4 → ∃ t, exec (.patchCopyGranule r []) s = .next t ∧ (t.region r).patch.done = q.patch.done + 1 ∧ (t.region r).patch.state = 2) ∧
      (q.patch.done = chanGranules → ((q.chans.get (q.physOf l)).queue = []) → ∃ t, exec (.patchSwap r) s = .next t ∧ (t.region r).patch.state = 3 ∧
        (t.region r).physOf l = q.spare ∧ (t.region r).spare = q.physOf l ∧ (t.region r).spareBad = true ∧ t.mem = s.mem ∧
        ∀ x, x ≠ l → (t.region r).physOf x = q.physOf x)) ∧
    (∀ a, c.fill = some a → inReset = false → ∃ t, exec (.poisonFillEnd r p) s = .next t ∧ ((t.region r).chans.get p).fill = none ∧ t.mem = s.mem ∧
      ((q.reg (mcOff p cPRD)).toNat + (Config.channelBytes - a) / 64 < 2 ^ 64 →
        ((t.region r).reg (mcOff p cPRD)).toNat = (q.reg (mcOff p cPRD)).toNat + (Config.channelBytes - a) / 64) ∧
      (c.fillRec = false → t.frWait = s.frWait) ∧
      (c.fillRec = true → ∃ x, t.frWait = s.frWait ++ [x] ∧ x.code = 0x8042 ∧ x.detail = BitVec.ofNat 128 ((Config.channelBytes - a) / 64))) ∧
    (c.soak = none → (p = q.spare ∨ q.quiesced = true) → ∃ t, exec (.soakGo r p) s = .next t ∧ ((t.region r).chans.get p).soak = some { restore := (q.logicalOf p).isSome } ∧
      (t.region r).fld (mcOff p 0x800) 6 6 = 0 ∧ t.mem = s.mem) ∧
    (c.soak = none → p ≠ q.spare → q.quiesced = false → ∃ t, exec (.soakGo r p) s = .next t ∧ (t.region r).chans = q.chans ∧
      (q.fld 0x40030 47 32 < 2 ^ 16 - 1 → (t.region r).fld 0x40030 47 32 = q.fld 0x40030 47 32 + 1)) ∧
    (∀ run, c.soak = some run → ∃ t, exec (.soakEnd r p back) s = .next t ∧ ((t.region r).chans.get p).soak = none ∧
      (back = [] → t.erWait = s.erWait) ∧
      (∀ a got, back = [(a, got)] → 2 ≤ q.fld (mcOff p 0x800) 1 0 → a % 64 = 0 → q.fld (mcOff p 0x808) 32 0 ≤ a → a < q.fld (mcOff p 0x810) 32 0 →
        badLanes (q.soakBurst p a) got ≠ [] → (t.region r).fld (mcOff p 0x800) 6 6 = 1 ∧ (t.region r).fld (mcOff p 0x838) 32 0 = a ∧
          ∃ x, t.erWait = s.erWait ++ [x] ∧ x.code = 0x8060)) ∧
    (s.memReady = false → s.pwr.rst = false → s.trust.recovery = false → ∃ t u, exec (.memoryStartup []) s = .next t ∧ exec .zeroFillEnd s = .next u ∧
      (∀ h, (t.region h).remap = (s.region h).kept.remap ∧ (t.region h).spare = (s.region h).kept.spare ∧ (t.region h).spareBad = (s.region h).kept.spareBad ∧
        ∀ x, ((t.region h).chans.get x).svc = if x = (s.region h).kept.spare then .spare else .inService) ∧ t.memReady = false ∧
      ((∀ h, (s.region h).ringWait = []) → u.memReady = true ∧ ∀ a, u.memByte a = 0 ∧ u.blockPoison a = false ∧ mget noFlag u.memTags a = false))

/-- R259 to R284: the channel controllers at work. Where the rules leave a
point open it follows the model's own choices (logs 24, 42, 44, 107, 108, 111), which are no rules of the spec. -/
def Obligations.MemoryControllers : Prop := controllerQueues ∧ channelCare

/-! ## Seam links and messages -/

/-- A port enters Retrain: it keeps its link, the lane that caused it is left out, SL.RETRAIN counts and event 0x9010 is posted
(R291, R295, R296). -/
def Sys2Proof.retrains (s t : State) (p : PortId) (lane : Option Nat) : Prop :=
  (t.port p).st = .retrain ∧ (t.port p).left = (match lane with | some l => BitVec.ofNat 8 (2 ^ l) | none => 0) ∧ (t.port p).replay = (s.port p).replay ∧
    (t.port p).out = (s.port p).out ∧ (∀ q, q ≠ p → t.port q = s.port q) ∧ (∃ x, t.erWait = s.erWait ++ [x] ∧ x.code = 0x9010 ∧ x.num = p.val) ∧
    (s.slFld p slRETRAIN 63 0 < 2 ^ 64 - 1 → t.slFld p slRETRAIN 63 0 = s.slFld p slRETRAIN 63 0 + 1) ∧
    (lane.isSome = true → s.slFld p slLANEDROP 63 0 < 2 ^ 64 - 1 → t.slFld p slLANEDROP 63 0 = s.slFld p slLANEDROP 63 0 + 1)

/-- R290 to R296: how a port goes from state to state: detect, train, config, active, retrain and down. -/
def Sys2Proof.portStates : Prop :=
  ∀ (p : PortId) (energy locked : BitVec 8) (lane : Fin 8) (n : Nat) (ok : Bool) (s : State),
    let k := s.port p
    let mask := BitVec.ofNat 8 (s.slFld p 8 23 16)
    let goes (c : Instr) (st : PortSt) : Prop := ∃ t, exec c s = .next t ∧ (t.port p).st = st ∧ ∀ q, q ≠ p → t.port q = s.port q
    let got := locked &&& k.mask
    let left := locked &&& k.mask &&& ~~~k.left
    (s.slEn p = true → (k.st = .detect ∨ k.st = .disabled) →
      (energy &&& mask ≠ 0 → goes (.linkDetect p energy) .train) ∧ (energy &&& mask = 0 → goes (.linkDetect p energy) .detect)) ∧
    (k.st = .train → (s.widthOf got = 0 → goes (.linkTrainEnd p locked) .detect) ∧
      (s.widthOf got ≠ 0 → ∃ t, exec (.linkTrainEnd p locked) s = .next t ∧ (t.port p).st = .config ∧ (t.port p).width = s.widthOf got ∧
        (t.port p).good = got ∧ (∀ i, (t.port p).lanes.getLsbD i = true → got.getLsbD i = true) ∧ popLanes (t.port p).lanes = s.widthOf got)) ∧
    (k.st = .active → k.lanes.getLsbD lane.val = true → ∃ t, exec (.laneLockLoss p lane) s = .next t ∧ retrains s t p (some lane.val)) ∧
    (k.st = .active → k.lanes.getLsbD lane.val = true → 16 < n → ∃ t, exec (.uncorrectableCwBurst p lane n) s = .next t ∧
      retrains (s.slCount p slFECUNC n) t p (some lane.val)) ∧
    ((k.lanes.getLsbD lane.val = false ∨ n ≤ 16) → exec (.uncorrectableCwBurst p lane n) s = .next (s.slCount p slFECUNC n)) ∧
    (k.st = .active → ∃ t, exec (.slRetrain p) s = .next t ∧ retrains s t p none) ∧
    (goes (.slEnable p false) .disabled) ∧ (k.st = .disabled → goes (.slEnable p true) .detect) ∧
    (k.st ≠ .disabled → goes (.slEnable p true) k.st) ∧
    (k.st = .retrain →
      (ok = true → s.widthOf left ≠ 0 → ∃ t, exec (.retrainAttemptEnd p ok locked) s = .next t ∧ (t.port p).st = .active ∧ (t.port p).width = s.widthOf left ∧
        (t.port p).good = left ∧ (t.port p).left = 0) ∧
      ((ok = false ∨ s.widthOf left = 0) → k.fails + 1 < max 1 (s.slFld p 8 15 12) → ∃ t, exec (.retrainAttemptEnd p ok locked) s = .next t ∧
        t.port p = { k with fails := k.fails + 1 } ∧ t.erWait = s.erWait) ∧
      ((ok = false ∨ s.widthOf left = 0) → max 1 (s.slFld p 8 15 12) ≤ k.fails + 1 → s.sendChs = [] → k.out = [] →
        ∃ (t : State) (x : Report), exec (.retrainAttemptEnd p ok locked) s = .next t ∧ (t.port p).st = .down ∧ (t.port p).replay = [] ∧ (t.port p).lseq = 0 ∧
          t.frWait = s.frWait ++ [x] ∧ x.code = 0x9012 ∧ x.num = p.val)) ∧
    (k.st = .down → s.slEn p = true → goes (.linkDownExpiry p) .detect)

/-- R289, R292, R293, R295, R308: flits: four equal CONFIG flits make the link active; a good flit acknowledges and gives credits; the next DATA
flit is taken and its messages delivered, any other is discarded; a replay counts, and too many in a row retrain; codewords corrected and
uncorrectable ones count. -/
def Sys2Proof.flitRules : Prop :=
  ∀ (p : PortId) (f : List Byte) (n : Nat) (bad : Bool) (s : State),
    let k := s.port p
    let good := flitGood f bad
    let body := (f.drop 12).take 304
    let pos : BitVec 10 := BitVec.ofNat 10 (flitNum f 12 2)
    let same := if k.cfgLast = configBody f then k.cfgGood + 1 else 1
    let discards (c : Instr) : Prop := ∃ t, exec c s = .next t ∧ (t.port p).discard = true ∧ (t.port p).nakDue = (k.nakDue || !k.discard) ∧
      (t.port p).expect = k.expect ∧ (∀ q, q ≠ p → t.port q = s.port q) ∧
      (s.slFld p slCRCERR 63 0 < 2 ^ 64 - 1 → t.slFld p slCRCERR 63 0 = s.slFld p slCRCERR 63 0 + 1) ∧ t.mem = s.mem ∧ t.cores = s.cores
    (k.st = .config → k.selfLoop = false → good = true → flitType f = 2 →
      (pos = s.straps.pos → ∃ (t : State) (x : Report), exec (.configFlitRx p f bad n) s = .next t ∧ (t.port p).selfLoop = true ∧ (t.port p).st = .config ∧
        t.frWait = s.frWait ++ [x] ∧ x.code = 0x9013) ∧
      (pos ≠ s.straps.pos → same < 4 → ∃ t, exec (.configFlitRx p f bad n) s = .next t ∧ (t.port p).st = .config ∧ (t.port p).cfgGood = same ∧ (t.port p).npos = pos) ∧
      (pos ≠ s.straps.pos → 4 ≤ same → min k.width (flitNum f 16 1) ≠ 0 → ∃ t, exec (.configFlitRx p f bad n) s = .next t ∧ (t.port p).st = .active ∧
        (t.port p).width = min k.width (flitNum f 16 1) ∧ (t.port p).npos = pos)) ∧
    (k.st = .config → k.selfLoop = false → (good = false ∨ flitType f ≠ 2) → ∃ t, exec (.configFlitRx p f bad n) s = .next t ∧ (t.port p).st = .config ∧
      (t.port p).cfgGood = 0) ∧
    (∃ t, exec (.idleFlitRx p f bad n) s = .next t ∧
      (s.slFld p slFECCORR 63 0 + n < 2 ^ 64 → t.slFld p slFECCORR 63 0 = s.slFld p slFECCORR 63 0 + n) ∧
      (bad = true → s.slFld p slFECUNC 63 0 < 2 ^ 64 - 1 → t.slFld p slFECUNC 63 0 = s.slFld p slFECUNC 63 0 + 1)) ∧
    (k.st = .active →
      ((good = false ∨ flitType f ≠ 0) → discards (.idleFlitRx p f bad n)) ∧
      (good = true → flitType f = 0 → k.out = [] → (flitNak f = false ∨ (k.heard f).replay = []) → ∃ t, exec (.idleFlitRx p f bad n) s = .next t ∧
        t.port p = { (k.heard f) with nakDue := false, owed := .replicate 16 0 } ∧ t.mem = s.mem ∧ t.cores = s.cores) ∧
      (good = true → flitType f = 0 → flitNak f = true → (k.heard f).replay ≠ [] → ∃ t, exec (.idleFlitRx p f bad n) s = .next t ∧
        (s.slFld p slREPLAY 63 0 < 2 ^ 64 - 1 → t.slFld p slREPLAY 63 0 = s.slFld p slREPLAY 63 0 + 1) ∧ t.mem = s.mem ∧ t.cores = s.cores) ∧
      ((good = false ∨ flitType f ≠ 1) → discards (.dataFlitRx p f bad n)) ∧
      (good = true → flitType f = 1 → flitNum f 2 2 ≠ k.expect → discards (.dataFlitRx p f bad n)) ∧
      (good = true → flitType f = 1 → flitNum f 2 2 = k.expect →
        let s1 := (((s.fecCount p n bad).updPort p (fun k => { k with expect := (k.expect + 1) % 65536, ackv := true, discard := false })).slCount p slRXFLITS 1).hear p f
        (msgsOf 19 body = [] → k.out = [] → ∃ t, exec (.dataFlitRx p f bad n) s = .next t ∧ (t.port p).expect = (k.expect + 1) % 65536 ∧
          (t.port p).ackv = true ∧ (t.port p).discard = false ∧ t.mem = s.mem ∧ t.cores = s.cores) ∧
        (∀ opc m, msgsOf 19 body = [(opc, m)] →
          (m.dst = s.straps.pos → exec (.dataFlitRx p f bad n) s = .next (((s1.receive opc m).updPort p (fun k => k.owe m.vc (msgUnits m opc))).flush p)) ∧
          (m.dst ≠ s.straps.pos → exec (.dataFlitRx p f bad n) s = .next ((s1.forward (some p) opc m).flush p)))) ∧
      (k.replay ≠ [] →
        (k.replays + 1 < max 1 (s.slFld p 8 11 8) → ∃ t, exec (.linkReplay p) s = .next t ∧ t.port p = { k with replays := k.replays + 1 } ∧
          (s.slFld p slREPLAY 63 0 < 2 ^ 64 - 1 → t.slFld p slREPLAY 63 0 = s.slFld p slREPLAY 63 0 + 1)) ∧
        (max 1 (s.slFld p 8 11 8) ≤ k.replays + 1 → ∃ t, exec (.linkReplay p) s = .next t ∧ (t.port p).st = .retrain ∧ (t.port p).replay = k.replay)))

/-- R290 to R296: the links. Where the rules leave a
point open it follows the model's own choices (logs 78, 79, 80), which are no rules of the spec. -/
def Obligations.SeamLinks : Prop := portStates ∧ flitRules

/-- The messages of R300 with their opcodes. -/
def Sys2Proof.isMessage (c : Instr) (opc : BitVec 8) (m : Msg) : Prop :=
  (c, opc) ∈ [(Instr.msgRd m, 0x01), (.msgWr m, 0x02), (.msgRaf m, 0x03), (.msgRab m, 0x04), (.msgRai m, 0x05), (.msgWinq m, 0x10), (.msgWinn m, 0x11),
    (.msgBar m, 0x20), (.msgBarrel m, 0x21), (.msgAck m, 0x80), (.msgRdrsp m, 0x81), (.msgNack m, 0x82), (.msgWinr m, 0x90)]

/-- R299, R300, R306: a message for another package goes on by its route with its TTL reduced, or is dropped and counted; a malformed
one is dropped. -/
def Sys2Proof.messageRoutes : Prop :=
  ∀ (c : Instr) (opc : BitVec 8) (m : Msg) (s : State), isMessage c opc m →
    let drops (i : Instr) (cnt : Nat) (code : BitVec 16) : Prop := ∃ (t : State) (r : Report), exec i s = .next t ∧ t.frWait = s.frWait ++ [r] ∧ r.code = code ∧
      (s.pkgFld cnt 63 0 < 2 ^ 64 - 1 → t.pkgFld cnt 63 0 = s.pkgFld cnt 63 0 + 1) ∧ t.mem = s.mem ∧ t.cores = s.cores ∧ t.recvChs = s.recvChs
    (m.dst ≠ s.straps.pos → ∀ i ∈ [c, Instr.messageForward opc m],
      (m.ttl = 0 → drops i smTTLEXP 0x9030) ∧ (m.ttl ≠ 0 → s.route m.dst = none → drops i smNOROUTE 0x9031) ∧
      (∀ p, m.ttl ≠ 0 → s.route m.dst = some p → exec i s = .next (s.putOut p { opc := opc, m := { m with ttl := m.ttl - 1 } }))) ∧
    (m.dst = s.straps.pos → malformedMsg opc m = true → drops c smMALFORMED 0x9060) ∧
    ∀ (p : PortId) (o : OutMsg), (s.port p).st ≠ .active → ∃ q : Port, s.putOut p o = { s with ports := s.ports.set p.val q p.isLt } ∧
      q = { (s.port p) with out := (s.port p).out ++ [o] }

/-- R301 to R303: the sequence table: the next message of a channel is applied once, in order; what comes before it is a duplicate, what
comes after it is dropped; a new incarnation begins at 0. -/
def Sys2Proof.sequenceTable : Prop :=
  ∀ (i : Instr) (opc : BitVec 8) (m : Msg) (s : State), isMessage i opc m → opc.toNat < 0x80 → m.dst = s.straps.pos → malformedMsg opc m = false →
    s.homeWait.any (fun r => r.sameCh m) = false →
    let c0 := s.recvCh m.src m.vc
    let applied (e : BitVec 32) (since : Nat) : Prop := exec i s = .next ((s.applyMsg opc m none).noteApplied
      { src := m.src, vc := m.vc, incarn := m.incarn, expected := e, since := since, dupTs := (c0.bind (fun c => if c.incarn = m.incarn then c.dupTs else none)) })
    (∀ s', s.gate none (s.msgKeys opc m none) (opc != 0x01) = some s' →
      exec i s = .next { s' with homeWait := s'.homeWait ++ [.msg opc m (s.winPassed opc m none)] }) ∧
    (s.gate none (s.msgKeys opc m none) (opc != 0x01) = none →
      (c0 = none → applied (m.tsn + 1) 0) ∧
      (∀ c, c0 = some c →
        (c.incarn ≠ m.incarn → m.tsn = 0 → applied 1 0) ∧
        (c.incarn ≠ m.incarn → m.tsn ≠ 0 → exec i s = .next (s.smCount smOOO 1)) ∧
        (c.incarn = m.incarn →
          (m.tsn = c.expected → applied (c.expected + 1) c.since) ∧
          (m.tsn ≠ c.expected → (m.tsn - c.expected).toNat < 2 ^ 31 → exec i s = .next (s.smCount smOOO 1)) ∧
          (m.tsn ≠ c.expected → 2 ^ 31 ≤ (m.tsn - c.expected).toNat → exec i s = .next (s.duplicate opc m none c)))))

/-- R228, R230, R214, R281, R300, R303, R305: what applying a message does: reads answer, writes and accumulates reach memory through an open
window, refusals answer with their code, and an acknowledgement follows every ACKN messages. -/
def Sys2Proof.messageEffects : Prop :=
  ∀ (opc : BitVec 8) (m : Msg) (win : Option WinHit) (c : RecvCh) (s : State),
    let look := match win with | none => s.winLookup m.offset.toNat m.src (winOpOf opc) | some x => .ok x.w x.pa x.ctx
    let n := max 1 (reqBytes opc m)
    (m.void = true → s.applyMsg opc m win = s.smCount smVOIDED 1) ∧
    (m.void = false → isReq opc = true →
      (∀ w code, look = .refused w code → s.applyMsg opc m win = (s.winRefuse w).nack m code) ∧
      (∀ w pa ctx, look = .ok w pa ctx →
        ((s.frameOk (some ctx) pa && s.frameOk (some ctx) (pa + n - 1)) = false →
          s.applyMsg opc m win = (s.regionReport (s.place pa).region 0x7031 false (BitVec.ofNat 64 pa)).nack m 0x7031) ∧
        ((s.frameOk (some ctx) pa && s.frameOk (some ctx) (pa + n - 1)) = true →
          (opc = 0x02 → s.applyMsg opc m win = s.cohPut false pa m.data m.pois) ∧
          (opc = 0x01 → let r := readLines (fun s key => s.cohReadCur 0 key) (m.len.toNat / 64 + 2) s false pa m.len.toNat
            s.applyMsg opc m win = r.2.2.sendPlain 0x81 { respMsg m.src m.vc m.tsn m.len.toNat 0 with data := r.1, pois := r.2.1 }) ∧
          (3 ≤ opc.toNat → let r := s.cohAcc (opc.toNat - 2) pa m.data (List.replicate m.data.length m.pois)
            s.applyMsg opc m win = match r.2 with | some code => r.1.nack m code | none => r.1)))) ∧
    (m.void = false → s.applyMsg 0x10 m win =
      s.sendPlain 0x90 { plainMsg 13 m.src 16 (12 * 2 ^ 33) with tsn := m.tsn, data := s.winAnswer m.offset.toNat m.src }) ∧
    (m.void = false → ∃ r, (s.applyMsg 0x11 m win).erWait = s.erWait ++ [r] ∧ r.code = 0x9070 ∧ r.num = m.src.toNat ∧ r.detail = BitVec.ofNat 128 (leNat m.data)) ∧
    (s.seamFld 47 40 ≤ c.since + 1 → s.noteApplied c = s.sendAck c) ∧
    (c.since + 1 < s.seamFld 47 40 → (s.noteApplied c).recvCh c.src c.vc = some { c with since := c.since + 1 }) ∧
    (s.recvCh c.src c.vc = some c → 0 < c.since → ∃ t, exec (.ackTimer c.src c.vc) s = .next t ∧ t.recvCh c.src c.vc = some { c with since := 0 })

/-- R142, R185, R303 to R305: responses: what an ACK, read data, a refusal or a window's answer completes; and what a channel does when
its oldest message has waited too long. -/
def Sys2Proof.responses : Prop :=
  ∀ (m : Msg) (s : State), m.dst = s.straps.pos →
    let c := s.answered m
    let now (t : State) : List (BitVec 32) := (t.sendCh c.dst c.vc).unacked.map (fun x => x.m.tsn)
    let was (p : Sent → Bool) : List (BitVec 32) := (c.unacked.filter p).map (fun x => x.m.tsn)
    (malformedMsg 0x80 m = false → ∃ t, exec (.msgAck m) s = .next t ∧
      now t = was (fun x => !(decide ((m.tsn - x.m.tsn).toNat < 2 ^ 31) && (x.opc != 0x01 || x.m.void))) ∧ t.mem = s.mem) ∧
    (malformedMsg 0x81 m = false → ∀ x, c.unacked.find? (fun x => x.m.tsn == m.tsn && x.opc == 0x01) = some x →
      ∃ t, exec (.msgRdrsp m) s = .next t ∧ now t = was (fun x => x.m.tsn != m.tsn) ∧ t.mem = s.mem ∧
        (∀ k tag, x.who = .tx k tag → (t.core k).txReqs = (s.core k).txReqs.map (fun r =>
          if r.tag = tag then { r with msg := false, data := some (m.data.map (fun b => (b, m.pois))) } else r)) ∧
        (∀ k b reg off, x.who = .load k b reg off → t.core k = (s.core k).partDone b reg (some (off, m.data, m.pois)))) ∧
    (malformedMsg 0x82 m = false → ∀ x, c.unacked.find? (fun x => x.m.tsn == m.tsn) = some x →
      let code := BitVec.ofNat 16 (m.offset.toNat / 2 ^ 17)
      ∃ t, exec (.msgNack m) s = .next t ∧ now t = was (fun x => x.m.tsn != m.tsn) ∧ t.mem = s.mem ∧
        (∀ k ctx va n inv, x.who = .store k ctx va n inv → ∃ r, t.frWait = s.frWait ++ [r] ∧ r.code = code ∧ r.num = k.val) ∧
        (∀ k b reg off, x.who = .load k b reg off → (t.core k).lateLoads = ((s.core k).partDone b reg none).lateLoads ∧ ∃ r, t.frWait = s.frWait ++ [r] ∧ r.code = code) ∧
        (∀ k tag q, x.who = .tx k tag → (s.core k).txReqs.find? (fun q => q.tag == tag) = some q →
          (t.core k).txReqs = (s.core k).txReqs.filter (fun r => r.tag != q.tag))) ∧
    (malformedMsg 0x90 m = false → ∀ p, s.journal.find? (fun p => p.2.started && p.2.done.isNone && (p.2.entry.toNat % 2 ^ 16 == 0x50) &&
        bitsOf p.2.entry.toNat 135 128 == 2 && bitsOf p.2.entry.toNat 159 144 == m.src.toNat && p.2.gen == m.tsn.toNat) = some p →
      ∃ t j, exec (.msgWinr m) s = .next t ∧ t.job p.1 = some j ∧ j.done = some (0, BitVec.ofNat 128 (leNat m.data)) ∧ t.mem = s.mem ∧ t.cores = s.cores) ∧
    ∀ (dst : BitVec 10) (vc : BitVec 4) (p : PortId) (x : Sent) (r : List Sent), (s.sendCh dst vc).unacked = x :: r → s.route dst = some p → (s.port p).st = .active →
      (x.tries < s.seamFld 39 32 → ∃ t, exec (.e2eTimeout dst vc) s = .next t ∧ t.cores = s.cores ∧ t.mem = s.mem ∧
        (t.sendCh dst vc).unacked.map (fun y => (y.m.tsn, y.opc, y.tries)) = (x :: r).map (fun y => (y.m.tsn, y.opc, y.tries + 1)) ∧
        (s.pkgFld smE2ERETX 63 0 + (r.length + 1) < 2 ^ 64 → t.pkgFld smE2ERETX 63 0 = s.pkgFld smE2ERETX 63 0 + (r.length + 1))) ∧
      (s.seamFld 39 32 ≤ x.tries → serviceOpc x.opc = false → x.m.void = false → ∃ t y, exec (.e2eTimeout dst vc) s = .next t ∧
        (t.sendCh dst vc).unacked.head? = some y ∧ y.m.void = true ∧ y.m.tsn = x.m.tsn ∧
        (s.pkgFld smVOIDED 63 0 < 2 ^ 64 - 1 → t.pkgFld smVOIDED 63 0 = s.pkgFld smVOIDED 63 0 + 1))

/-- R297 to R306: messages between packages: their routes, their order, what they do and what answers them. Where the rules leave a
point open it follows the model's own choices (logs 42, 60, 79, 80), which are no rules of the spec. -/
def Obligations.SeamMessages : Prop := messageRoutes ∧ sequenceTable ∧ messageEffects ∧ responses

/-! ## Registers -/

/-- R6, R7: what a write leaves in a field by its access and class: a read-only field keeps its value, a write-one-to-clear field loses
the bits written as 1, a write-only field reads 0, and a Locked field of a running block keeps its value and rejects a change; bits
that no field holds keep their value. -/
def Sys2Proof.fieldRules : Prop :=
  (∀ (f : RField) (runs : Bool) (old new mask : Nat), f.lo ≤ f.hi →
    let w := f.hi + 1 - f.lo
    let bit (x j : Nat) : Bool := (bitsOf x f.hi f.lo).testBit j
    let r := fieldWrite f runs old new mask
    let held : Prop := f.cls = .locked ∧ runs = true
    (f.acc = .ro → r = (bitsOf old f.hi f.lo, false)) ∧
    (f.acc = .w1c → r.2 = false ∧ ∀ j, j < w → r.1.testBit j = (bit old j && !(bit new j && bit mask j))) ∧
    (f.acc = .wo → r.1 = 0) ∧
    ((f.acc = .rw ∨ f.acc = .rws) → ¬held → r.2 = false ∧ ∀ j, j < w → r.1.testBit j = if bit mask j then bit new j else bit old j) ∧
    ((f.acc = .rw ∨ f.acc = .rws) → held →
      r.1 = bitsOf old f.hi f.lo ∧ (r.2 = true ↔ ∃ j, j < w ∧ bit mask j = true ∧ bit new j ≠ bit old j))) ∧
  ∀ (r : RReg) (runs : RField → Bool) (old new mask j : Nat), (∀ f ∈ r.fields, ¬(f.lo ≤ j ∧ j ≤ f.hi)) →
    (regWrite r runs old new mask).1.testBit j = old.testBit j

/-- R6 to R8, R21, R232, R353, R355, R357, R437: REGISTER_WRITE: a register that its table lists takes the value under its fields' rules;
a reserved offset of a core is ignored; die 0's copy of a package register governs; the MSI-X table takes its bytes. -/
def Sys2Proof.registerWrites : Prop :=
  ∀ (w : Writer) (off : Nat) (v : BitVec 512) (s : State), off % 8 = 0 →
    let n := v.toNat % 2 ^ 64
    let all := 2 ^ 64 - 1
    let to_ (g : RegTarget) : Instr := .registerWrite w g off 8 v
    let special : Prop := off = rNUMCTL ∨ off = 0x1300 ∨ off = rFRAMEKEYLO ∨ off = rFRAMEKEYHI ∨ (0x1700 ≤ off ∧ off < 0x1850) ∨ off = 0x1910 ∨ off = 0x1A20 ∨
      off = 0x1B00 ∨ off = 0x1C00
    (∀ c : CoreId, ¬special →
      (findReg coreRegs off = none → exec (to_ (.core c)) s = .next s) ∧
      (∀ r, findReg coreRegs off = some r →
        let x := regWrite r (fun _ => (s.core c).lockRuns off) ((s.core c).reg off).toNat n all
        ∃ t, exec (to_ (.core c)) s = .next t ∧ t.mem = s.mem ∧ (∀ d, d ≠ c → t.core d = s.core d) ∧
          (x.2 = false → t = s.updCore c (fun k => k.setReg off (BitVec.ofNat 64 x.1))))) ∧
    (∀ (c : ClusterId) (r : RReg), findReg clusterRegs off = some r →
      let x := regWrite r (fun _ => s.l2Runs c) ((s.cluster c).reg off).toNat n all
      x.2 = false → exec (to_ (.cluster c)) s = .next (s.updCluster c (fun k => k.setReg off (BitVec.ofNat 64 x.1)))) ∧
    (∀ (c : RegionId) (r : RReg), regionReg off = some r → off < 0x40000 → (off = 0x20000 → n % 4 ≠ 3) →
      let x := regWrite r (fun _ => s.regionRuns c off) ((s.region c).reg off).toNat n all
      x.2 = false → exec (to_ (.region c)) s = .next (s.updRegion c (fun k => k.setReg off (BitVec.ofNat 64 x.1)))) ∧
    (governed off = true → exec (to_ (.die 1)) s = exec (to_ (.die 0)) s) ∧
    (∀ i : Fin 16, off = 0x500000 + 8 * i.val → ∀ r, dieReg off = some r →
      let x := regWrite r (fun _ => s.ctxEn (BitVec.ofNat 4 i.val)) ((s.die 0).reg off).toNat n all
      ∃ t, exec (to_ (.die 0)) s = .next t ∧ (t.die 0).reg off = BitVec.ofNat 64 x.1 ∧ t.cores = s.cores ∧ t.mem = s.mem) ∧
    (∀ r, findReg cxlRegs off = some r → off ≠ 0x30008 →
      exec (to_ .cxlPort) s = .next { s with cxl := s.cxl.setReg off (BitVec.ofNat 64 (regWrite r (fun _ => false) (s.readCxl off).toNat n all).1) }) ∧
    (off + 8 ≤ 0x1000 → ∃ t, exec (to_ .msix) s = .next t ∧ readBytes msixReset t.cxl.msix off 8 = leBytes 8 v.toNat ∧
      (∀ a, (a < off ∨ off + 8 ≤ a) → mget msixReset t.cxl.msix a = mget msixReset s.cxl.msix a) ∧
      ∀ i : Fin 256, t.cxl.up = true → t.cxl.bme = true → t.cxl.masked i.val = false → t.cxl.pend.getLsbD i.val = false) ∧
    (∀ (o : Nat) (r : RReg), findReg configRegs o = some r → o < 0x1000 → ∃ t, exec (.registerWrite w .config o 4 v) s = .next t ∧
      (∀ p, t.configReg p = s.configReg p) ∧ t.cores = s.cores) ∧
    (∀ o ∈ [0x10, 0x14, 0x18, 0x1C], s.cxl.committed = false → ∃ t, exec (.registerWrite w .hdm o 4 v) s = .next t ∧
      mget (fun _ => (0 : W32)) t.cxl.hdm o = v.setWidth 32 ∧ t.mem = s.mem) ∧
    (∀ (o : Nat) (r : RReg), findReg dvsecRegs o = some r → ∃ t, exec (.registerWrite w .dvsec o 4 v) s = .next t ∧
      t.dvReg o = BitVec.ofNat 64 (regWrite r (fun _ => false) (s.dvReg o).toNat (v.toNat % 2 ^ 32) 0xFFFFFFFF).1 ∧ t.cores = s.cores) ∧
    exec (to_ .bar0) s = .next (s.noteHeld.barAccess off 8 v)

/-- R6 to R8: registers: what a write leaves, and which register it reaches. Where the rules leave a
point open it follows the model's own choices (logs 19, 21, 68, 71, 86, 104), which are no rules of the spec. -/
def Obligations.Registers : Prop := fieldRules ∧ registerWrites

/-! ## Cretas: queues, the journal and the rings -/

/-- R328 to R330, R333, R347: BAR0: a mailbox's GO, the doorbells of a queue, its enable, and the heads of the fault and event rings. -/
def Sys2Proof.doorbells : Prop :=
  ∀ (n : MboxId) (q : QueueId) (v : W32) (s : State),
    let held (tail head : Nat) := (tail + 2 ^ 32 - head) % 2 ^ 32
    let rejects (c : Instr) (cnt : Nat) : Prop := ∃ t, exec c s = .next t ∧ t.journal = s.journal ∧ t.cores = s.cores ∧ t.mem = s.mem ∧
      (s.barFld cnt 47 32 < 2 ^ 16 - 1 → t.barFld cnt 47 32 = s.barFld cnt 47 32 + 1) ∧
      (∀ o ∈ [0x18, 0x28], t.barFld (qOff q o) 31 0 = s.barFld (qOff q o) 31 0)
    (s.barFld (mbOff n 0x80) 1 1 = 1 → rejects (.mbGo n) 0x20) ∧
    (s.barFld (mbOff n 0x80) 1 1 = 0 → ∃ t j y, exec (.mbGo n) s = .next t ∧ t.barFld (mbOff n 0x80) 1 1 = 1 ∧ t.job j = some y ∧ y.entry = s.mbReq.get n ∧
      y.src = 16 + n.val ∧ y.started = false ∧ y.record = none ∧ t.cores = s.cores ∧ t.mem = s.mem) ∧
    (held v.toNat (s.barFld (qOff q 0x20) 31 0) ≤ s.ringN q → ∃ t, exec (.qTailWrite q v) s = .next t ∧ t.barFld (qOff q 0x18) 31 0 = v.toNat ∧
      (held v.toNat (s.barFld (qOff q 0x20) 31 0) < s.ringN q → t.barFld 8 q.val q.val = 0) ∧ t.journal = s.journal ∧ t.cores = s.cores ∧ t.mem = s.mem) ∧
    (s.ringN q < held v.toNat (s.barFld (qOff q 0x20) 31 0) → rejects (.qTailWrite q v) (qOff q 0x38)) ∧
    (held (s.barFld (qOff q 0x30) 31 0) v.toNat ≤ s.ringN q → ∃ t, exec (.qCqheadWrite q v) s = .next t ∧ t.barFld (qOff q 0x28) 31 0 = v.toNat ∧
      t.journal = s.journal ∧ t.cores = s.cores ∧ t.mem = s.mem) ∧
    (s.ringN q < held (s.barFld (qOff q 0x30) 31 0) v.toNat → rejects (.qCqheadWrite q v) (qOff q 0x38)) ∧
    (s.barFld (qOff q 0x10) 0 0 = 0 → ∃ t, exec (.qEnable q) s = .next t ∧ t.barFld (qOff q 0x10) 0 0 = 1 ∧
      (∀ o ∈ [0x18, 0x20, 0x28, 0x30], t.barFld (qOff q o) 31 0 = 0) ∧ t.crs.infl.get q = max 1 (min 4096 (s.barFld (qOff q 0x10) 31 19)) ∧ t.journal = s.journal) ∧
    (s.barFld (qOff q 0x10) 0 0 = 1 → exec (.qEnable q) s = .next s) ∧
    (∃ t, exec (.frHeadWrite v) s = .next t ∧ t.barFld 0x2010 31 0 = v.toNat ∧ t.frWait.length = s.frWait.length) ∧
    (∃ t, exec (.erHeadWrite v) s = .next t ∧ t.barFld 0x2050 31 0 = v.toNat ∧ t.erWait = s.erWait ∧ t.journal = s.journal)

/-- R332, R338, R339, R344: an entry is accepted into the journal with its ticket; a command commits in order, takes the next commit
number, and a mailbox's record ends BUSY; a queue that stays full is reported. -/
def Sys2Proof.acceptAndCommit : Prop :=
  ∀ (q : QueueId) (n : MboxId) (j corr : Nat) (lost : List Nat) (e : BitVec 512) (s : State),
    let head := s.barFld (qOff q 0x20) 31 0
    let host : Bool := decide (s.barFld (qOff q 0) 0 0 = 0)
    let a := s.slotAddr (qOff q 0) (s.ringN q) head
    let s0 := if host then s.hostFill (bytesAt .host a 64) (leBytes 64 e.toNat) else s
    (s.accepts q = false → exec (.commandAccept q e) s = .next s) ∧
    (∀ s', s.accepts q = true → s.gate none (spanKeys host a 64) false = some s' → exec (.commandAccept q e) s = .next s') ∧
    (s.accepts q = true → s.gate none (spanKeys host a 64) false = none → ∃ t i y, exec (.commandAccept q e) s = .next t ∧ t.barFld (qOff q 0x20) 31 0 = (head + 1) % 2 ^ 32 ∧ t.job i = some y ∧
      y.entry = BitVec.ofNat 512 (leNat (s0.peek host a 64).1) ∧ y.src = q.val ∧ y.ticket = BitVec.ofNat 32 head ∧ y.started = false ∧ y.record = none ∧
      t.commitSeq = s.commitSeq ∧ t.cores = s.cores) ∧
    (∀ x d, s.job j = some x → s.workEnd j x = some d →
      ((x.record.isSome = true ∨ s.serves x = false ∨ s.inOrder x = false) → exec (.commandCommit j corr lost) s = .next s) ∧
      (x.record = none → s.serves x = true → s.inOrder x = true → (x.cmd ≠ 0x40 ∨ d.1 ≠ 0) →
        let res := if x.cmd = 0x01 ∧ d.1 = 0 then BitVec.ofNat 128 (setBits d.2.toNat 127 64 s.commitSeq.toNat) else d.2
        ∃ t, exec (.commandCommit j corr lost) s = .next t ∧ t.commitSeq = s.commitSeq + 1 ∧
          (x.src = 16 + n.val → t.mbRsp.get n = BitVec.ofNat 512 (leNat (({ s with commitSeq := s.commitSeq + 1 } : State).recordOf x d.1 res corr)) ∧
            t.job j = none ∧ t.barFld (mbOff n 0x80) 1 1 = 0 ∧ t.barFld (mbOff n 0x80) 2 2 = 1))) ∧
    (s.ringN q ≤ s.ringHeld (qOff q 0x18) (qOff q 0x20) → s.barFld (qOff q 0x10) 0 0 = 1 → s.barFld 8 q.val q.val = 0 →
      ∃ (t : State) (r : Report), exec (.queueSaturation q) s = .next t ∧ t.barFld 8 q.val q.val = 1 ∧ t.erWait = s.erWait ++ [r] ∧ r.code = 0xB040 ∧
        r.detail = BitVec.ofNat 128 q.val ∧ (s.barFld (qOff q 0x38) 31 0 < 2 ^ 32 - 1 → t.barFld (qOff q 0x38) 31 0 = s.barFld (qOff q 0x38) 31 0 + 1))

/-- R342, R346 to R348: a standby that mirrors the journal takes over, and the commands that have not ended run again; a restart, a lost
and a returned standby; a fault record or an event is posted to its ring, or the event is dropped and counted. -/
def Sys2Proof.ringsAndTakeovers : Prop :=
  ∀ s : State,
    let posts (t : State) (code : BitVec 16) : Prop := ∃ r l, t.frWait = s.frWait ++ l ++ [r] ∧ r.code = code
    let again (t : State) : Prop := (∀ p ∈ s.journal, p.2.record = none) → t.journal = s.journal.map (fun p => (p.1, restarted p.2))
    let mirror : Prop := s.barFld 8 19 19 = 1
    let r1 := s.noteHeld
    let k := s.barFld 0x2018 31 0
    let ke := s.barFld 0x2058 31 0
    (mirror → ((∀ p ∈ s.journal, p.2.record = none) → ∃ t, exec .heartbeatLossTakeover s = .next t ∧ posts t 0xB050 ∧ again t ∧ t.primDie = 1 - s.primDie ∧ t.barFld 8 19 19 = 0) ∧
      ∃ t, exec .standbyFailure s = .next t ∧ posts t 0xB054 ∧ t.barFld 8 19 19 = 0 ∧ t.journal = s.journal) ∧
    (¬mirror → exec .heartbeatLossTakeover s = .next s ∧ exec .standbyFailure s = .next s ∧
      ∃ t, exec .nestedErrorEscalate s = .next t ∧ posts t 0xB052 ∧ t.journal = s.journal ∧ t.primDie = s.primDie) ∧
    (mirror → (∀ p ∈ s.journal, p.2.record = none) → ∃ t, exec .nestedErrorEscalate s = .next t ∧ posts t 0xB050 ∧ again t ∧ t.primDie = 1 - s.primDie) ∧
    ((∀ p ∈ s.journal, p.2.record = none) → ∃ (t : State) (r : Report), exec .firmwareRestart s = .next t ∧ again t ∧ t.erWait = s.erWait ++ [r] ∧ r.code = 0xB051 ∧
      t.primDie = s.primDie) ∧
    (∃ t, exec .standbyRejoin s = .next t ∧ t.barFld 8 19 19 = 1 ∧ t.journal = s.journal ∧ t.cores = s.cores) ∧
    (∀ r rest, r1.frWait = r :: rest →
      (r1.frRoom 0 = false → exec .faultRecordPost s = .next r1) ∧
      (∀ s2 s3, r1.frRoom 0 = true → r1.ringWrite 0x2000 (r1.slotAddr 0x2000 1024 k) (r.bytes r1.crs.frSeq (k / 1024 % 2)) = (some s2, s3) →
        ∃ t, exec .faultRecordPost s = .next t ∧ t.frWait = s2.frWait.drop 1 ∧ t.crs.frSeq = s2.crs.frSeq + 1 ∧ t.barFld 0x2018 31 0 = (k + 1) % 2 ^ 32 ∧
          t.mem = s2.mem ∧ t.hostMem = s2.hostMem ∧ (t.cxl.pend ||| t.cxl.fired).getLsbD (s.barFld 0x2008 15 8) = true)) ∧
    (∀ r rest, s.erWait = r :: rest → s.crs.lost = 0 →
      (s.erRoom = false → ∃ t, exec .eventPost s = .next t ∧ t.erWait = rest ∧ t.crs.lost = 1 ∧ t.mem = s.mem ∧
        (s.barFld 0x2060 63 0 < 2 ^ 64 - 1 → t.barFld 0x2060 63 0 = s.barFld 0x2060 63 0 + 1)) ∧
      (∀ s2 s3, s.erRoom = true → s.ringWrite 0x2040 (s.slotAddr 0x2040 s.erN ke) (r.bytes s.crs.erSeq (ke / s.erN % 2)) = (some s2, s3) →
        ∃ t, exec .eventPost s = .next t ∧ t.erWait = s2.erWait.drop 1 ∧ t.crs.erSeq = s2.crs.erSeq + 1 ∧ t.barFld 0x2058 31 0 = (ke + 1) % 2 ^ 32 ∧
          t.mem = s2.mem ∧ t.hostMem = s2.hostMem))

/-- R328 to R348: how Cretas takes commands and ends them, and its rings. Where the rules leave a
point open it follows the model's own choices (logs 28, 29, 30, 43, 59), which are no rules of the spec. -/
def Obligations.CommandQueues : Prop := doorbells ∧ acceptAndCommit ∧ ringsAndTakeovers

/-! ## Cretas: the commands -/

/-- Slot j holds a command of that kind which Cretas may start (R338, R339, R394). -/
def Sys2Proof.readyFor (s : State) (j : Nat) (x : JSlot) (is : JSlot → Bool) : Prop :=
  s.job j = some x ∧ is x = true ∧ x.started = false ∧ x.done = none ∧ x.record = none ∧ s.serves x = true ∧ s.startable x = true

/-- Slot j has started: its record will count poison and voided accumulates from here (R332). -/
def Sys2Proof.begun (s : State) (j : Nat) : State :=
  s.updJob j (fun x => { x with started := true, poison0 := s.poisonOf x.cores, voided0 := s.pkgFld smVOIDED 63 0 })

/-- Slot j's work has ended in t with a code and a RESULT; it has not committed. -/
def Sys2Proof.endsWith (t : State) (j : Nat) (code : BitVec 16) (r : BitVec 128) : Prop :=
  ∃ y, t.job j = some y ∧ y.started = true ∧ y.done = some (code, r) ∧ y.record = none

/-- The commands that Cretas carries out, and which slots they may start. -/
def Sys2Proof.isWork (s : State) (j : Nat) (c : Instr) (is : JSlot → Bool) : Prop :=
  (c = .hello j ∧ is = isCmd 0x01) ∨ (c = .caps j ∧ is = isCmd 0x02) ∨ (c = .mapFrames j ∧ is = isForm 0x10 0) ∨ (c = .mapWindow j ∧ is = isForm 0x10 1) ∨
  (c = .mapContext j ∧ is = isForm 0x10 2) ∨ (c = .mapDeviceMap j ∧ is = isForm 0x10 3) ∨ (c = .unmapFrames j ∧ is = isForm 0x11 0) ∨
  (c = .unmapWindow j ∧ is = isForm 0x11 1) ∨ (c = .pressCfg j ∧ is = isCmd 0x23) ∨ (c = .snap j ∧ is = isCmd 0x30) ∨ (c = .partReset j ∧ is = isCmd 0x40) ∨
  (c = .soak j ∧ is = fun x => isCmd 0x42 x && !s.inReset 2 (x.num 16 1)) ∨ (c = .statusSummary j ∧ is = isForm 0x50 0) ∨ (c = .statusWearGauge j ∧ is = isForm 0x50 1) ∨
  (c = .statusWindowQuery j ∧ is = isForm 0x50 2) ∨ (c = .events j ∧ is = isCmd 0x51) ∨ (c = .debugClose j ∧ is = isForm 0x61 3 ∧ s.hostReach = true) ∨
  (∃ v, c = .invalRange j v ∧ is = isCmd 0x12) ∨ (∃ k, c = .launch j k ∧ is = isCmd 0x21) ∨ (∃ b, c = .restore j b ∧ is = isCmd 0x31) ∨
  ((∃ b, c = .pair j b) ∧ is = isCmd 0x32) ∨ (s.hostReach = true ∧ ((∃ b, c = .loadImage j b ∧ is = isCmd 0x20) ∨ (∃ n, c = .attest j n ∧ is = isCmd 0x60) ∨
    (∃ n, c = .debugChallenge j n ∧ is = isForm 0x61 0) ∨ (∃ b a, c = .debugTokenUnlock j b a ∧ is = isForm 0x61 1) ∨
    (∃ b, c = .debugPasswordUnlock j b ∧ is = isForm 0x61 2)))

/-- R2, R333, R334, R337, R394: a command starts once; before CAPS every command but HELLO and CAPS ends with 0xB012, and a malformed
entry ends with 0xB010, with no other effect. -/
def Sys2Proof.commandGates : Prop :=
  ∀ (s : State) (j : Nat) (c : Instr) (is : JSlot → Bool), isWork s j c is →
    ((∀ x, ¬readyFor s j x is) → exec c s = .next s) ∧
    ∀ x, readyFor s j x is →
      let ends (code : BitVec 16) : Prop := exec c s = .next ((begun s j).finish j code 0) ∧ endsWith ((begun s j).finish j code 0) j code 0
      (s.crs.capsDone = false → x.cmd ≠ 0x01 → x.cmd ≠ 0x02 → ¬(s.trust.recovery = true ∧ x.cmd = 0x20) → ends 0xB012) ∧
      ((s.crs.capsDone = true ∨ x.cmd = 0x01 ∨ x.cmd = 0x02) → x.malformed = true → ends 0xB010) ∧
      (∀ i, i < 48 → x.num (16 + i) 1 ≠ 0 → (∀ r ∈ namedBytes x.cmd (x.num 16 1), ¬(r.1 ≤ 16 + i ∧ 16 + i ≤ r.2)) → x.malformed = true)

/-- R334, R370, R386, R416, R419: HELLO, CAPS and STATUS: what RESULT holds; the first HELLO posts the faults that the always-on domain
kept. -/
def Sys2Proof.reportCommands : Prop :=
  ∀ (s : State) (j : Nat) (x : JSlot), s.early x = none →
    (readyFor s j x (isCmd 0x01) → ∃ t r, exec (.hello j) s = .next t ∧ endsWith t j 0 r ∧ r.toNat % 2 ^ 16 = 0x0301 ∧ r.toNat / 2 ^ 16 % 2 ^ 8 = s.incarn.toNat ∧
      r.toNat / 2 ^ 32 % 2 ^ 32 = ((begun s j).readBar 0x18).toNat ∧ t.crs.helloDone = true ∧
      (s.crs.helloDone = true → t.frWait = s.frWait ∧ t.pwr = s.pwr) ∧
      (s.crs.helloDone = false → t.frWait.map Report.code = s.frWait.map Report.code ++ s.pwr.faults.map Prod.fst ++ (if s.pwr.vstbyLost then [0xD020] else []) ++
        (if s.straps.pwrClass = 3 then [0xE011] else []) ∧ t.pwr.faults = [] ∧ t.pwr.vstbyLost = false)) ∧
    (readyFor s j x (isCmd 0x02) → ∃ t r, exec (.caps j) s = .next t ∧ endsWith t j 0 r ∧ t.crs.capsDone = true ∧ t.crs.helloDone = s.crs.helloDone ∧
      r.toNat % 2 ^ 8 = 0xB1 ∧ r.toNat / 2 ^ 8 % 2 ^ 16 = 0x0301 ∧ r.toNat / 2 ^ 24 % 2 ^ 8 = s.pwrClass ∧ r.toNat / 2 ^ 32 % 2 ^ 16 = s.straps.pos.toNat ∧
      r.toNat / 2 ^ 48 % 2 ^ 8 = s.straps.feed.toNat ∧ r.toNat / 2 ^ 56 % 2 ^ 8 = s.basting.toNat ∧
      ∀ c : CoreId, r.getLsbD (64 + c.val) = decide ((s.core c).run ≠ .inReset)) ∧
    (readyFor s j x (isForm 0x50 0) → ∃ t r, exec (.statusSummary j) s = .next t ∧ endsWith t j 0 r ∧ r.toNat % 2 ^ 16 = s.risk ∧
      r.toNat / 2 ^ 16 % 2 = s.rs.standing.isSome.toNat ∧ r.toNat / 2 ^ 19 % 2 = s.paired.toNat ∧ r.toNat / 2 ^ 24 % 2 ^ 8 = s.straps.feed.toNat ∧
      (s.paired = false → r.toNat / 2 ^ 32 % 2 ^ 16 = 0xFFFE) ∧ r.toNat / 2 ^ 64 = ((s.die 0).reg 0x800108).toNat) ∧
    (readyFor s j x (isForm 0x50 1) → ∃ t r, exec (.statusWearGauge j) s = .next t ∧ endsWith t j 0 r ∧
      r.toNat % 2 ^ 16 = s.risk ∧ (∀ i, i < 5 → r.toNat / 2 ^ (16 * (i + 1)) % 2 ^ 16 = s.pkgFld 0x800008 (10 * i + 9) (10 * i)) ∧
      r.toNat / 2 ^ 96 % 2 ^ 16 = s.wgThresh ∧ r.toNat / 2 ^ 112 = s.wgArmed.toNat) ∧
    (readyFor s j x (isForm 0x50 2) →
      ((1024 ≤ x.num 18 2 ∨ 2 ^ 37 ≤ x.addr) → ∃ t, exec (.statusWindowQuery j) s = .next t ∧ endsWith t j 0xB013 0 ∧ t.sendChs = s.sendChs) ∧
      (x.num 18 2 < 1024 → x.addr < 2 ^ 37 → s.route (BitVec.ofNat 10 (x.num 18 2)) ≠ none → ∃ t, exec (.statusWindowQuery j) s = .next t ∧
        t.cores = s.cores ∧ t.mem = s.mem ∧
        let pos : BitVec 10 := BitVec.ofNat 10 (x.num 18 2)
        (t.sendCh pos 12).next = (s.sendCh pos 12).next + 1 ∧ (t.sendCh pos 12).unacked.map (fun y => (y.opc, y.m.offset, y.who)) =
          (s.sendCh pos 12).unacked.map (fun y => (y.opc, y.m.offset, y.who)) ++ [(0x10, BitVec.ofNat 37 x.addr, .cmd j)]))

/-- R214, R229, R230, R232, R263, R336: MAP and UNMAP: frames, windows, contexts, the device map. -/
def Sys2Proof.mapCommands : Prop :=
  ∀ (s : State) (j : Nat) (x : JSlot), s.early x = none →
    let n := x.num 32 4
    let mask : BitVec 16 := BitVec.ofNat 16 (x.num 36 2)
    let d : DieId := if x.addr.testBit 39 then 1 else 0
    let k0 := x.addr % 2 ^ 39 / 2 ^ 25
    let frames (c : Instr) (f : BitVec 16 → BitVec 16) : Prop :=
      (framesOk x.addr n = false → ∃ t, exec c s = .next t ∧ endsWith t j 0xB013 0 ∧ t.dies = s.dies) ∧
      (framesOk x.addr n = true → ∃ t, exec c s = .next t ∧ endsWith t j 0 0 ∧ (∀ e, e ≠ d → t.die e = s.die e) ∧
        (∀ k, mget noMask (t.die d).masks k = if k0 ≤ k ∧ k < k0 + n then f (mget noMask (s.die d).masks k) else mget noMask (s.die d).masks k) ∧
        t.cores = s.cores ∧ t.mem = s.mem)
    let w := x.num 17 1
    let pos := x.num 40 2
    let ctxOff := 0x500000 + 8 * w
    let cw := tableWrite (dieReg ctxOff) (fun _ => s.dieRuns ctxOff) ((s.die 0).reg ctxOff) x.addr fullMask
    (x.addr % 2 ^ 25 ≠ 0 → framesOk x.addr n = false) ∧
    (readyFor s j x (isForm 0x10 0) → frames (.mapFrames j) (fun m => m ||| mask)) ∧
    (readyFor s j x (isForm 0x11 0) → frames (.unmapFrames j) (fun m => m &&& ~~~mask)) ∧
    (readyFor s j x (isForm 0x10 1) →
      ((64 ≤ w ∨ (1024 ≤ pos ∧ pos ≠ 0xFFFF)) → ∃ t, exec (.mapWindow j) s = .next t ∧ endsWith t j 0xB013 0 ∧ t.dies = s.dies) ∧
      (w < 64 → pos = 0xFFFF → s.winOpen w = false → x.addr.testBit 0 = false → ∃ t, exec (.mapWindow j) s = .next t ∧
        endsWith t j 0 (BitVec.ofNat 128 w) ∧ t.winOpen w = false ∧ t.mem = s.mem) ∧
      (w < 64 → pos = 0xFFFF → s.winOpen w = false → x.addr.testBit 0 = true →
        (s.winOpenBad w (bitsOf x.addr 43 32) (bitsOf x.addr 55 44 + 1) (bitsOf (x.num 32 8) 39 25) = true →
          ∃ t, exec (.mapWindow j) s = .next t ∧ endsWith t j 0xB013 0 ∧ t.winOpen w = false ∧
            (s.pkgFld 0x500128 15 0 < 2 ^ 16 - 1 → t.pkgFld 0x500128 15 0 = s.pkgFld 0x500128 15 0 + 1)) ∧
        (s.winOpenBad w (bitsOf x.addr 43 32) (bitsOf x.addr 55 44 + 1) (bitsOf (x.num 32 8) 39 25) = false →
          (∀ b, s.gate none (spanKeys false (bitsOf (x.num 32 8) 39 25 * 2 ^ 25) 64) b = none) →
          ∃ t, exec (.mapWindow j) s = .next t ∧ endsWith t j 0 (BitVec.ofNat 128 w) ∧ t.winOpen w = true ∧
            t.winSpan w = (bitsOf x.addr 43 32, bitsOf x.addr 55 44 + 1) ∧ t.winLocal w = bitsOf (x.num 32 8) 39 25))) ∧
    (readyFor s j x (isForm 0x11 1) →
      (64 ≤ w → ∃ t, exec (.unmapWindow j) s = .next t ∧ endsWith t j 0xB013 0 ∧ t.dies = s.dies) ∧
      (w < 64 → s.winOpen w = true → ∃ t, exec (.unmapWindow j) s = .next t ∧ t.winOpen w = false ∧ t.winDrain.getLsbD w = true ∧
        (∀ y, t.job j = some y → t.workEnd j y = none) ∧ t.mem = s.mem)) ∧
    (readyFor s j x (isForm 0x10 2) →
      (16 ≤ w → ∃ t, exec (.mapContext j) s = .next t ∧ endsWith t j 0xB013 0 ∧ t.dies = s.dies) ∧
      (w < 16 → cw.2 = true → ∃ t, exec (.mapContext j) s = .next t ∧ endsWith t j 0xB014 0 ∧ t.dies = s.dies) ∧
      (w < 16 → cw.2 = false → ∃ t, exec (.mapContext j) s = .next t ∧ endsWith t j 0 0 ∧ (t.die 0).reg ctxOff = cw.1 ∧ t.mem = s.mem)) ∧
    (readyFor s j x (isForm 0x10 3) →
      (1 < w → ∃ t, exec (.mapDeviceMap j) s = .next t ∧ endsWith t j 0xB013 0 ∧ t.mem = s.mem) ∧
      (w ≤ 1 → s.deviceQuiet = false → ∃ t, exec (.mapDeviceMap j) s = .next t ∧ endsWith t j 0x8070 0 ∧ t.mem = s.mem ∧ t.basting = s.basting) ∧
      (w ≤ 1 → s.deviceQuiet = true → ∃ t, exec (.mapDeviceMap j) s = .next t ∧ endsWith t j 0 0 ∧ t.mem = [] ∧ t.memTags = [] ∧ t.memPoison = [] ∧
        t.basting = decide (w = 1) ∧ t.hostMem = s.hostMem ∧ ∀ c, (t.core c).g = (s.core c).g ∧ (t.core c).tile = (s.core c).tile))

/-- R208, R210, R227, R275, R281, R283, R334: INVAL_RANGE, PRESS_CFG, PATCH, SOAK and EVENTS, and the end of a patch. -/
def Sys2Proof.partCommands : Prop :=
  ∀ (s : State) (j : Nat) (x : JSlot), s.early x = none →
    let v : W64 := BitVec.ofNat 64 (x.num 16 8)
    let noTurn : Prop := ∀ p ∈ s.journal, p.2.invalTurn = none
    let takes (c : CoreId) (v : W64) : Core := ((s.core c).setFld 0x1A28 0 0 0).invReceive v false
    let ch : PressId := Fin.ofNat 4 (x.num 16 1)
    let new := x.pressRegs
    let r : RegionId := Fin.ofNat 8 (x.num 16 1)
    let l : Fin 16 := Fin.ofNat 16 (x.num 17 1)
    let p : PhysId := Fin.ofNat 17 (x.num 17 1)
    let soakBad : Prop := 8 ≤ x.num 16 1 ∨ 17 ≤ x.num 17 1 ∨ 4 ≤ x.num 18 1 ∨ 4 ≤ x.num 19 1 ∨ x.addr % 64 ≠ 0 ∨ x.num 32 8 % 64 ≠ 0 ∨
      Config.channelBytes < x.addr ∨ Config.channelBytes < x.num 32 8 ∨ (x.num 19 1 = 0 ∧ (2 ^ 40 ≤ x.num 40 8 ∨ devSpan (x.num 40 8) 16 = false))
    let pressBad : Prop := 4 ≤ x.num 16 1 ∨ 1024 ≤ new.root ∨ 1024 < new.nmemb ∨ (new.system = true ∧ new.nmemb = 0)
    (∀ late, readyFor s j x (isCmd 0x12) →
      (invBad v = true → ∃ t, exec (.invalRange j late) s = .next t ∧ endsWith t j 0xB013 0 ∧ t.cores = s.cores) ∧
      (invBad v = false → noTurn → ∃ t y, exec (.invalRange j late) s = .next t ∧ t.mem = s.mem ∧ t.job j = some y ∧ y.gen = late.toNat ∧
        (∀ c : CoreId, c.val ≠ 0 → t.core c = s.core c) ∧
        ((s.core 0).run = .inReset → t.core 0 = s.core 0 ∧ y.stream = some 0) ∧ ((s.core 0).run ≠ .inReset → t.core 0 = takes 0 v ∧ y.stream = some 1))) ∧
    (∀ (c d : CoreId) (y : JSlot) (r : W64), s.journal = [(j, y)] → y.invalTurn = some (2 * c.val + 1) → d.val = c.val + 1 → (s.core d).run ≠ .inReset →
      (s.core c).invPend = [{ req := r, doorbell := false }] → s.invClear c false = true → ∃ t z, exec (.invUnitAck c false) s = .next t ∧
        t.job j = some z ∧ z.stream = some (2 * d.val + 1) ∧ (t.core c).fld 0x1A28 0 0 = 1 ∧ (t.core c).invPend = [] ∧ t.core d = takes d (BitVec.ofNat 64 (y.num 16 8))) ∧
    (readyFor s j x (isCmd 0x23) →
      (pressBad → ∃ t, exec (.pressCfg j) s = .next t ∧ endsWith t j 0xB013 0 ∧ t.dies = s.dies ∧ t.cores = s.cores) ∧
      (¬pressBad → s.pressRuns ch = false → ∃ t, exec (.pressCfg j) s = .next t ∧ endsWith t j 0 0 ∧ t.pressRegs ch = new ∧ t.cores = s.cores ∧ t.mem = s.mem) ∧
      (¬pressBad → s.pressRuns ch = true → pressMay (s.pressRegs ch) new (s.localDone ch) = false → ∃ t, exec (.pressCfg j) s = .next t ∧
        endsWith t j 0xB014 0 ∧ t.dies = s.dies ∧ t.cores = s.cores)) ∧
    (readyFor s j x (isCmd 0x41) →
      ((s.region r).patch.running = true → (s.region r).patch.lch = x.num 17 1 → (s.region r).patch.ticket ≠ some j → exec (.patch j) s = .next s) ∧
      (s.inReset 2 (x.num 16 1) = true → exec (.patch j) s = .next s) ∧
      ((s.region r).patch.running = false → s.inReset 2 (x.num 16 1) = false →
        ((8 ≤ x.num 16 1 ∨ 16 ≤ x.num 17 1) → ∃ t, exec (.patch j) s = .next t ∧ endsWith t j 0xB013 0 ∧ t.regions = s.regions) ∧
        (x.num 16 1 < 8 → x.num 17 1 < 16 → (s.region r).patchRefused l = true → ∃ t f, exec (.patch j) s = .next t ∧ endsWith t j 0x8043 0 ∧
          t.frWait = s.frWait ++ [f] ∧ f.code = 0x8043 ∧ (t.region r).patch.state = 0 ∧ (t.region r).remap = (s.region r).remap) ∧
        (x.num 16 1 < 8 → x.num 17 1 < 16 → (s.region r).patchRefused l = false → ∃ t e, exec (.patch j) s = .next t ∧ (t.region r).patch.state = 1 ∧
          (t.region r).patch.lch = x.num 17 1 ∧ (t.region r).patch.done = 0 ∧ (t.region r).patch.ticket = some j ∧ t.erWait = s.erWait ++ [e] ∧ e.code = 0x8040 ∧
          t.mem = s.mem ∧ (t.region r).remap = (s.region r).remap))) ∧
    (readyFor s j x (isCmd 0x42) → s.inReset 2 (x.num 16 1) = true → exec (.soak j) s = .next s) ∧
    (readyFor s j x (isCmd 0x42) → s.inReset 2 (x.num 16 1) = false →
      (soakBad → ∃ t, exec (.soak j) s = .next t ∧ endsWith t j 0xB013 0 ∧ t.regions = s.regions) ∧
      (¬soakBad → ((s.region r).chans.get p).soak.isSome = true → x.gen ≠ 1 → ∃ t, exec (.soak j) s = .next t ∧ endsWith t j 0xB014 0 ∧ t.regions = s.regions) ∧
      (¬soakBad → ((s.region r).chans.get p).soak.isSome = false →
        (x.num 19 1 = 0 → s.gate none (spanKeys false (x.num 40 8) 16) false = none) → ∃ t, exec (.soak j) s = .next t ∧ ((t.region r).chans.get p).soak.isSome = true ∧
        (p ≠ (s.region r).spare → (t.region r).quiesced = true) ∧ (t.region r).fld (mcOff p 0x808) 32 0 = x.addr ∧
        (t.region r).fld (mcOff p 0x810) 32 0 = x.num 32 8 ∧ (∀ q, q ≠ r → t.region q = s.region q) ∧ t.mem = s.mem)) ∧
    (readyFor s j x (isCmd 0x51) →
      (s.crs.asked.find? (fun a => a.1 == x.addr) = none → ∃ t, exec (.events j) s = .next t ∧ endsWith t j 0xB013 0 ∧ t.cores = s.cores) ∧
      (∀ a, s.crs.asked.find? (fun b => b.1 == x.addr) = some a →
        let c : CoreId := Fin.ofNat 64 a.2.1
        ((∀ z, (s.core c).stream a.2.2 = some z → z.st ≠ .halted) → ∃ t, exec (.events j) s = .next t ∧ endsWith t j 0xB013 0 ∧ t.cores = s.cores) ∧
        (∀ z y, (s.core c).stream a.2.2 = some z → z.st = .halted → z.last = some y → x.num 32 1 = 1 → ∃ t z', exec (.events j) s = .next t ∧ endsWith t j 0 0 ∧
          (t.core c).stream a.2.2 = some z' ∧ z'.st = .running ∧ z'.code = 0 ∧ (∀ d, d ≠ c → t.core d = s.core d)))) ∧
    (∀ q : RegionId, ((s.region q).patch.state ≠ 3 → exec (.patchDone q) s = .next s) ∧
      ((s.region q).patch.state = 3 → (s.region q).ringWait = [] → ∃ t e, exec (.patchDone q) s = .next t ∧ (t.region q).patch.state = 4 ∧
        (t.region q).patch.ticket = none ∧ (t.region q).remap = (s.region q).remap ∧ t.erWait = s.erWait ++ [e] ∧ e.code = 0x8041 ∧ t.mem = s.mem ∧
        (∀ i y, (s.region q).patch.ticket = some i → s.job i = some y → ∃ z, t.job i = some z ∧
          z.done = some (0, BitVec.ofNat 128 (s.region q).patch.done))))

/-- R334 to R337: the commands of Cretas: what ends one early, and what each does. Where the rules leave a
point open it follows the model's own choices (logs 15, 27, 34, 36, 61), which are no rules of the spec. -/
def Obligations.CretasCommands : Prop := commandGates ∧ reportCommands ∧ mapCommands ∧ partCommands

/-! ## Launches and part resets -/

/-- R334, R335: what a core holds when Cretas starts it in launch j: the block's capabilities, the given registers from g1 up, the other
registers 0, exceptions and interrupts as after entry of none, and the address as its next bundle. -/
def Sys2Proof.startedCore (k q : Core) (r : LaunchRun) (j at_ : Nat) (gs : List W64) : Prop :=
  q.run = .running ∧ q.launch = some j ∧ q.scap.get 0 = (r.cap 0).moved at_ ∧ (∀ i : Fin 5, i ≠ 0 → q.scap.get i = r.cap i.val) ∧
    (∀ i : Fin 16, q.c.get i = r.cap (5 + i.val)) ∧ (∀ i : Fin 64, q.g.get i = if i.val = 0 then 0 else gs.getD (i.val - 1) 0) ∧
    q.fld rEXSTAT 1 0 = 0 ∧ q.fld rEXCTL 0 0 = 0 ∧ q.fld rEXCTL 15 8 = 0 ∧ q.exc = none ∧ q.held = none ∧ q.tile = k.tile ∧ q.v = k.v ∧ q.tiles = k.tiles

/-- R193, R335, R337: LAUNCH checks its block and starts its cores; a launch that reaches TIMEOUT ends with 0xB021 and its cores halt;
FUSE opens a fused command. -/
def Sys2Proof.launchCommands : Prop :=
  ∀ (s : State) (j : Nat) (x : JSlot) (keys : List (BitVec 128)),
    let a := x.addr
    let cs := x.cores
    let r : LaunchRun := { mask := BitVec.ofNat 64 (x.num 16 8), block := (s.peek false a 512).1 }
    let bad : Prop := a % 64 ≠ 0 ∨ 2 ^ 40 ≤ a ∨ devSpan a 512 = false ∨ cs = []
    let taken : Prop := ∃ c ∈ cs, (s.core c).run = .inReset ∨ s.inLaunch j c = true
    let free : Prop := s.gate none (spanKeys false a 512) false = none
    let stops (code : BitVec 16) : Prop := ∃ t, exec (.launch j keys) s = .next t ∧ endsWith t j code 0 ∧ t.cores = s.cores ∧ t.mem = s.mem
    (readyFor s j x (isCmd 0x21) → s.early x = none →
      (bad → stops 0xB013) ∧
      (¬bad → ¬free → ∃ t y, exec (.launch j keys) s = .next t ∧ t.job j = some y ∧ y.started = false ∧ y.done = none ∧ t.cores = s.cores) ∧
      (¬bad → free → r.reserved = true → stops 0xB010) ∧
      (¬bad → free → r.reserved = false → taken → stops 0xB017) ∧
      (¬bad → free → r.reserved = false → ¬taken → r.capsBad = true → stops 0xB016) ∧
      (¬bad → free → r.reserved = false → ¬taken → r.capsBad = false → ∃ t y, exec (.launch j keys) s = .next t ∧ t.job j = some y ∧ y.launch = some r ∧
        y.started = true ∧ y.done = none ∧ t.mem = s.mem ∧
        ∀ c : CoreId, (c ∉ cs → t.core c = s.core c) ∧ (c ∈ cs → startedCore (s.core c) (t.core c) r j (r.num 8 8)
          ((List.range 8).map (fun i => BitVec.ofNat 64 (r.num (368 + 8 * i) 8)))) ∧
          ∀ (i : Nat) (key : BitVec 128), cs[i]? = some c → keys[i]? = some key →
            (t.core c).reg rFRAMEKEYLO = key.setWidth 64 ∧ (t.core c).reg rFRAMEKEYHI = (key >>> 64).setWidth 64)) ∧
    (∀ i, i < 21 → (r.cap i).tag = true → (r.cap i).malformed = true → r.capsBad = true) ∧
    (∀ l, s.job j = some x → x.launch = some l →
      (x.cmd = 0x21 → x.started = true → x.done = none → x.record = none → l.num 24 8 ≠ 0 → ∃ t y, exec (.launchTimeout j) s = .next t ∧ t.job j = some y ∧
        y.done = some (0xB021, BitVec.ofNat 128 (s.launchResult x)) ∧ t.mem = s.mem ∧
        ∀ c : CoreId, ((s.core c).launch ≠ some j → t.core c = s.core c) ∧
          ((s.core c).launch = some j → (t.core c).launch = none ∧ ((s.core c).run ≠ .inReset → (t.core c).run = .halted) ∧ (t.core c).g = (s.core c).g)) ∧
      (l.num 24 8 = 0 → exec (.launchTimeout j) s = .next s)) ∧
    (let c : CoreId := Fin.ofNat 64 (x.num 16 1)
     let fits : Prop := x.num 16 1 < 64 ∧ x.num 17 1 < 16
     let plan := checkFused (s.core c) ((s.core c).getC (BitVec.ofNat 4 (x.num 17 1))) (x.num 20 4)
     let ends (code : BitVec 16) : Prop := ∃ t, exec (.fuse j) s = .next t ∧ endsWith t j code 0 ∧ t.cores = s.cores
     readyFor s j x (isCmd 0x22) → s.early x = none →
      (¬fits → ends 0xB013) ∧
      (fits → (s.core c).run = .inReset → x.reruns = 0 → ends 0xB017) ∧
      (fits → (s.core c).run = .inReset → x.reruns ≠ 0 → exec (.fuse j) s = .next s) ∧
      (∀ e, fits → (s.core c).run ≠ .inReset → plan = .error e → ends e.1) ∧
      (∀ p, fits → (s.core c).run ≠ .inReset → plan = .ok p → (s.core c).freeCtxs.length < p.lasts.length + 1 → exec (.fuse j) s = .next s) ∧
      (∀ p, fits → (s.core c).run ≠ .inReset → plan = .ok p → p.lasts.length + 1 ≤ (s.core c).freeCtxs.length → ∃ t y, exec (.fuse j) s = .next t ∧
        t.core c = (s.core c).openFused p (s.core c).freeCtxs ∧ t.job j = some y ∧ y.stream = (s.core c).freeCtxs.head? ∧ y.done = none ∧
        (∀ d, d ≠ c → t.core d = s.core d) ∧ t.mem = s.mem))

/-- R15, R334, R339, R341, R386: PART_RESET commits and its reset is then asserted; a launch on a reset core is interrupted, goes on at
REJOIN, or ends with 0xB020; the reset's end posts 0xD010, and a reset that outlasts its bound 0xD011. -/
def Sys2Proof.partResets : Prop :=
  ∀ (s : State) (j : Nat) (x : JSlot) (lv : Fin 3) (n : Nat) (corr : Nat) (lost : List Nat),
    let level := x.num 16 1
    let num := x.num 17 1
    let exists_ : Prop := (level = 0 ∧ num < 64) ∨ (level = 1 ∧ num < 16) ∨ (level = 2 ∧ num < 8)
    let cs := levelCores lv.val n
    let held (c : CoreId) : Bool := (s.crs.resets.erase (lv.val, n)).any (fun r => (levelCores r.1 r.2).contains c)
    let rises (c : CoreId) : Prop := c ∈ cs ∧ held c = false ∧ (s.core c).run = .inReset
    (readyFor s j x (isCmd 0x40) → s.early x = none →
      (¬exists_ → ∃ t, exec (.partReset j) s = .next t ∧ endsWith t j 0xB013 0 ∧ t.cores = s.cores) ∧
      (exists_ → ∃ t, exec (.partReset j) s = .next t ∧ endsWith t j 0 0 ∧ t.cores = s.cores ∧ t.crs.resets = s.crs.resets)) ∧
    (∀ res, s.job j = some x → x.cmd = 0x40 → x.done = some (0, res) → x.record = none → s.serves x = true → s.inOrder x = true → ∃ t,
      exec (.commandCommit j corr lost) s = .next t ∧ t.commitSeq = s.commitSeq + 1 ∧ (level, num) ∈ t.crs.resets ∧
      ∀ c : CoreId, c ∈ levelCores level num → (t.core c).run = .inReset ∧
        (level = 0 → (t.core c).tile = (s.core c).tile ∧ (t.core c).tilePoison = (s.core c).tilePoison ∧ (t.core c).tileTags = [] ∧
          (∀ i : Fin 64, (t.core c).g.get i = 0) ∧ (t.core c).l1d = [] ∧ (t.core c).storeBuf = [] ∧ (t.core c).regs = [] ∧
          (t.core c).txReqs = (s.core c).txReqs)) ∧
    (∀ i y r, s.rs.capture = none → s.journal = [(i, y)] → y.cmd = 0x21 → y.launch = some r → y.started = true → y.done = none → y.record = none →
      (∃ c ∈ cs, (s.core c).launch = some i) →
      let t := s.assertReset lv.val n lost
      (r.rejoin = 0 → r.norerun = true → ∃ z v, t.job i = some z ∧ z.done = some (0xB020, v)) ∧
      (r.rejoin = 0 → r.norerun = false → ∃ z, t.job i = some z ∧ z.done = none ∧ z.launch = some { r with interrupted := true }) ∧
      (lv = 0 → (r.rejoin ≠ 0 ∨ r.norerun = false) → ∀ d, d ∉ cs → (s.core d).launch = some i → (t.core d).fld rEXPEND 4 4 = 1)) ∧
    (s.crs.resets.contains (lv.val, n) = false → exec (.partResetEnd lv n) s = .next s ∧ exec (.partResetOverrun lv n) s = .next s) ∧
    (s.crs.resets.contains (lv.val, n) = true →
      (∃ (t : State) (r : Report), exec (.partResetOverrun lv n) s = .next t ∧ t.frWait = s.frWait ++ [r] ∧ r.code = 0xD011 ∧ r.level = lv.val ∧ r.num = n ∧
        t.cores = s.cores ∧ t.crs = s.crs) ∧
      (cs.all s.issuedNone = false → exec (.partResetEnd lv n) s = .next s) ∧
      (lv = 2 → (s.region (Fin.ofNat 8 n)).queuesEmpty = false → exec (.partResetEnd lv n) s = .next s) ∧
      (s.journal = [] → cs.all s.issuedNone = true → lv ≠ 2 → ∃ (t : State) (r : Report), exec (.partResetEnd lv n) s = .next t ∧ t.erWait = s.erWait ++ [r] ∧ r.code = 0xD010 ∧
        r.level = lv.val ∧ r.num = n ∧ t.crs.resets = s.crs.resets.erase (lv.val, n) ∧ t.mem = s.mem ∧
        ∀ c, (rises c → t.core c = { (s.core c).inReset with run := .idle }) ∧ (¬rises c → t.core c = s.core c)) ∧
      (∀ i y r, s.journal = [(i, y)] → y.cmd = 0x21 → y.launch = some r → y.done = none → y.record = none → cs.all s.issuedNone = true → lv ≠ 2 →
        (r.rejoin ≠ 0 → ∃ t z, exec (.partResetEnd lv n) s = .next t ∧ t.job i = some z ∧ z.done = none ∧
          ∀ c, rises c → (s.core c).launch = some i → startedCore (s.core c).inReset (t.core c) r i r.rejoin [0xD010, BitVec.ofNat 64 c.val]) ∧
        (r.rejoin = 0 → r.interrupted = true → (∀ c ∈ y.cores, (s.core c).run = .inReset → rises c) → ∃ t z, exec (.partResetEnd lv n) s = .next t ∧
          t.job i = some z ∧ z.reruns = y.reruns + 1 ∧ z.launch = some { r with interrupted := false } ∧
          ∀ c ∈ y.cores, startedCore (if (s.core c).run = .inReset then (s.core c).inReset else s.core c) (t.core c) r i (r.num 8 8) ((List.range 8).map (fun k => BitVec.ofNat 64 (r.num (368 + 8 * k) 8))))))

/-- R15, R193, R334, R335, R341, R386: launches, FUSE and part resets. Where the rules leave a
point open it follows the model's own choices (logs 32, 33, 34), which are no rules of the spec. -/
def Obligations.LaunchesAndPartResets : Prop := launchCommands ∧ partResets

/-! ## The wear gauge and resoles -/

/-- R367 to R369: GAUGE_RECOMPUTE: the risk of the five inputs, and what the thresholds of the standing list make of it. The
corrected errors, the replays and the droop events are those that the package counted in the last second, in bins of 100 ms (log 62). -/
def Sys2Proof.gaugeRule : Prop :=
  ∀ (x : Vector (BitVec 32) 5) (s : State),
    let droops := min (2 ^ 32 - 1) (s.pwr.droops.take 10).sum
    let bins := ((countedSince s.ceCounters s.pwr.gaugeSeen, countedSince s.replayCounters (s.pwr.gaugeSeen.drop s.ceCounters.length)) :: s.pwr.gaugeBins).take 10
    let ce := min (2 ^ 32 - 1) (bins.map Prod.fst).sum
    let replays := min (2 ^ 32 - 1) (bins.map Prod.snd).sum
    let v (n : Nat) : Nat := if n = 0 then ce else if n = 1 then replays else if n = 3 then droops else (x.toList.getD n 0).toNat
    let lo (n : Nat) : Int := s.wgLo n
    let hi (n : Nat) : Int := s.wgHi n
    let score (n : Nat) : Int := max 0 (min 1000 ((1000 * ((v n : Int) - lo n)).tdiv (hi n - lo n)))
    let sum := score 0 + score 1 + score 2 + score 3 + score 4
    let mx := max (score 0) (max (score 1) (max (score 2) (max (score 3) (score 4))))
    let r := min 1000 (mx + (sum - mx) / 4)
    ∃ t, exec (.gaugeRecompute x) s = .next t ∧ t.cores = s.cores ∧ t.mem = s.mem ∧ (∀ n, n < 5 → t.wgIn n = (v n : Int)) ∧
      t.pwr.droops = 0 :: s.pwr.droops.take 9 ∧ t.pwr.gaugeBins = bins ∧ t.pwr.gaugeSeen = s.ceCounters ++ s.replayCounters ∧ t.wgThresh = s.wgThresh ∧
      ((∀ n, n < 5 → hi n ≠ lo n) → (t.risk : Int) = r ∧ (∀ n, n < 5 → (t.pkgFld 0x800008 (10 * n + 9) (10 * n) : Int) = score n) ∧
        (s.rs.standing = none → t.rs = s.rs ∧ t.erWait = s.erWait ∧ t.frWait = s.frWait ∧ t.wgArmed = s.wgArmed) ∧
        (s.rs.standing.isSome = true →
          (s.wgArmed = true → s.wgThresh ≤ 1000 → (s.wgThresh : Int) ≤ r → t.rs.due = true ∧ t.wgArmed = false ∧ ∃ e, t.erWait = s.erWait ++ [e] ∧ e.code = 0xC110) ∧
          (s.wgArmed = true → (1000 < s.wgThresh ∨ r < (s.wgThresh : Int)) → t.rs.due = s.rs.due ∧ t.wgArmed = true ∧ t.erWait = s.erWait) ∧
          (s.wgArmed = false → t.rs.due = s.rs.due ∧ t.erWait = s.erWait ∧ (t.wgArmed = true ↔ r < (s.wgThresh : Int) - (s.wgHyst : Int))) ∧
          (s.rs.alarmed = false → s.wgAlarm ≤ 1000 → (s.wgAlarm : Int) ≤ r → t.rs.alarmed = true ∧ ∃ e, t.frWait = s.frWait ++ [e] ∧ e.code = 0xC111) ∧
          (s.rs.alarmed = false → (1000 < s.wgAlarm ∨ r < (s.wgAlarm : Int)) → t.rs.alarmed = false ∧ t.frWait = s.frWait) ∧
          (s.rs.alarmed = true → t.frWait = s.frWait ∧ (t.rs.alarmed = false ↔ r < (s.wgAlarm : Int) - (s.wgHyst : Int)))))

/-- R371 to R375: SNAP reads its list; a capture's quiesce reads the step, the cursors and the hem streams; a capture that waits too long
or whose list faults is abandoned. -/
def Sys2Proof.captures : Prop :=
  ∀ (s : State) (j : Nat) (x : JSlot),
    let ch : PressId := Fin.ofNat 4 (x.num 16 1)
    let need (l : RList) := imageLen (imageLens l (s.memberList ch).length)
    let n := numAt (s.peek false x.addr 64).1 2 2
    let lines := if 2 ^ 40 ≤ x.addr ∨ devSpan x.addr 64 = false then [] else spanKeys false x.addr (if n ≤ 1024 then 64 + 32 * n else 64)
    let free : Prop := s.gate none lines false = none
    (readyFor s j x (isCmd 0x30) → s.early x = none →
      (4 ≤ x.num 16 1 → ∃ t, exec (.snap j) s = .next t ∧ endsWith t j 0xB013 0 ∧ t.rs = s.rs) ∧
      (x.num 16 1 < 4 → ¬free → ∃ t y, exec (.snap j) s = .next t ∧ t.job j = some y ∧ y.started = false ∧ y.done = none ∧ t.rs = s.rs) ∧
      (∀ code, x.num 16 1 < 4 → free → s.readList x.addr ch = .error code → ∃ t, exec (.snap j) s = .next t ∧ endsWith t j code 0 ∧ t.rs = s.rs) ∧
      (∀ l, x.num 16 1 < 4 → free → s.readList x.addr ch = .ok l → (l.toHost || s.hostPaired) = true → s.hostUp = false → ∃ t y, exec (.snap j) s = .next t ∧
        t.job j = some y ∧ y.started = false ∧ y.done = none ∧ t.rs = s.rs) ∧
      (∀ l, x.num 16 1 < 4 → free → s.readList x.addr ch = .ok l → ((l.toHost || s.hostPaired) = true → s.hostUp = true) → ∃ t y, exec (.snap j) s = .next t ∧ t.rs.snaps = s.rs.snaps ++ [(j, ch, l)] ∧ t.rs.capture = s.rs.capture ∧
        t.job j = some y ∧ y.started = true ∧ y.done = none ∧ (∀ c, (t.core c).g = (s.core c).g ∧ (t.core c).tile = (s.core c).tile))) ∧
    (∀ l, s.readList x.addr ch = .ok l → x.addr % 64 = 0 ∧ 1 ≤ l.ents.length ∧ l.ents.length ≤ 1024 ∧ l.capPa % 2 ^ 25 = 0 ∧ devSpan l.capPa l.capLen = true ∧
      need l ≤ l.capLen ∧ need l ≤ s.storeSlot l ∧ (l.toHost = false → s.paired = true) ∧ (∀ e ∈ l.cursors, s.isMember (Fin.ofNat 64 e.core) ch = true) ∧
      (∀ e ∈ l.tensors, e.va % 64 = 0 ∧ e.len % 64 = 0 ∧ e.len ≠ 0)) ∧
    (s.rs.capture = none → ∀ b, exec .captureQuiesced s = .next s ∧ exec .captureEnd s = .next s ∧ exec (.captureAbandon b) s = .next s) ∧
    (∀ c, s.rs.capture = some c →
      let quiet : Prop := ∀ m ∈ s.memberList c.ch, (s.core m).captureQuiet = true
      let held := s.gate none ((c.list.stepVa :: c.list.cursors.map REnt.va).flatMap (fun va => s.vaKeys c.list.ctx .load va 8)) false
      let abandons (i : Instr) (cause : BitVec 16) : Prop := ∃ t e l, exec i s = .next t ∧ t.erWait = s.erWait ++ e :: l ∧
        e.code = 0xC122 ∧ e.detail = cause.setWidth 128 ∧ (s.system c.ch = false → t.rs.capture = none ∧ t.rs.due = s.rs.due ∧ t.mem = s.mem ∧
          ∀ i y, c.snap = some i → s.job i = some y → ∃ z, t.job i = some z ∧ z.done = some (0xC122, 0) ∧ ∀ p ∈ t.rs.snaps, p.1 ≠ i)
      ((c.quiet = true ∨ ¬quiet) → exec .captureQuiesced s = .next s) ∧
      (c.quiet = false → quiet → s.listFault c.list = none → held.isSome = true → ∃ t, exec .captureQuiesced s = .next t ∧ t.rs = s.rs ∧ t.mem = s.mem) ∧
      (c.quiet = false → quiet → s.listFault c.list = none → held = none → ∃ t q, exec .captureQuiesced s = .next t ∧ t.rs.capture = some q ∧ q.quiet = true ∧ q.ch = c.ch ∧
        q.list = c.list ∧ q.snap = c.snap ∧ q.hems.length = 4 * (s.memberList c.ch).length ∧ q.cursors.length = c.list.cursors.length ∧
        (∀ m ∈ s.memberList c.ch, ∀ i : Fin 4, ∃ h ∈ q.hems, h.core = m.val ∧ h.stream = i.val ∧ h.ctr = (s.core m).reg (rHEM i.val 2)) ∧
        t.cores = s.cores ∧ t.mem = s.mem ∧ t.erWait = s.erWait) ∧
      (∀ f, c.quiet = false → quiet → s.listFault c.list = some f → abandons .captureQuiesced f.1) ∧
      (c.quiet = false → abandons (.captureAbandon true) 0) ∧
      (c.quiet = true → exec (.captureAbandon true) s = .next s) ∧
      (∀ f, s.listFault c.list = some f → abandons (.captureAbandon false) f.1) ∧
      (s.listFault c.list = none → exec (.captureAbandon false) s = .next s) ∧
      (c.quiet = false → exec .captureEnd s = .next s))

/-- R373, R374, R380, R381: the end of a capture makes its list the standing list and begins the replication; a replication writes STEPk,
then CURRENT, and then ends; one that failed ends its SNAP with 0xC123. -/
def Sys2Proof.replications : Prop :=
  ∀ s : State,
    (∀ c y, s.rs.capture = some c → c.quiet = true → c.list.toHost = false → s.hostPaired = false →
      s.spanWait false c.list.capPa (imageLen (imageLens c.list (c.hems.length / 4))) = none →
      s.gate none (c.list.tensors.flatMap (fun e => s.vaKeys c.list.ctx .load e.va e.len)) false = none →
      copySecs (c.list.tensors.zip (imageOffs (imageLens c.list (c.hems.length / 4)))) s c.list = .ok y → ∃ t r e pre post, exec .captureEnd s = .next t ∧
        t.rs.standing = some (c.ch, c.list) ∧ t.rs.repl = some r ∧ r.stepNo = c.stepNo ∧ r.list = c.list ∧ r.slot = (if s.rs.cur = 0 then 1 else 0) ∧
        r.bytes = imageLen (imageLens c.list (c.hems.length / 4)) ∧ t.erWait = s.erWait ++ pre ++ e :: post ∧ e.code = 0xC120 ∧ t.wgThresh = min 1023 c.list.thresh ∧
        t.wgHyst = min 1023 c.list.hyst ∧ t.wgAlarm = min 1023 c.list.alarm ∧ (s.system c.ch = false → t.rs.capture = none)) ∧
    (s.rs.repl = none → ∀ code, exec .replicationEnd s = .next s ∧ exec (.replicationFail code) s = .next s) ∧
    (∀ r, s.rs.repl = some r →
      let host : Bool := r.list.toHost || s.hostPaired
      let to_ : BitVec 10 := BitVec.ofNat 10 (s.pkgFld 0x800100 25 16)
      let free : Prop := r.fail = none ∧ s.replBusy = false ∧ (host = true → s.hostUp = true)
      let sends (off : Nat) (bs : List Byte) (n : Nat) : Prop := ∃ t m, exec .replicationEnd s = .next t ∧ t.rs.repl = some { r with phase := n } ∧
        (t.sendCh to_ r.list.vc).unacked = (s.sendCh to_ r.list.vc).unacked ++ [m] ∧ m.opc = 0x02 ∧ m.m.offset = BitVec.ofNat 37 (2 ^ 36 + off) ∧ m.m.data = bs ∧ m.who = .repl
      (¬free → exec .replicationEnd s = .next s) ∧
      (free → host = false → s.route to_ ≠ none → r.phase = 1 → sends (32 + 8 * r.slot) (leBytes 8 r.stepNo.toNat) 2) ∧
      (free → host = false → s.route to_ ≠ none → r.phase = 2 → sends 24 (BitVec.ofNat 8 r.slot :: List.replicate 7 0) 3) ∧
      (free → r.phase = 3 → ∃ t e, exec .replicationEnd s = .next t ∧ t.rs.repl = none ∧ t.rs.cur = (if host then s.rs.cur else r.slot) ∧ (t.die 0).reg 0x800108 = r.stepNo ∧
        t.erWait = s.erWait ++ [e] ∧ e.code = 0xC121 ∧ t.mem = s.mem ∧ t.hostMem = s.hostMem ∧
        (∀ i y, r.snap = some i → s.job i = some y → ∃ z, t.job i = some z ∧ z.done = some (0, BitVec.ofNat 128 r.stepNo.toNat))) ∧
      (r.fail = none → host = false → ∀ code, exec (.replicationFail code) s = .next s) ∧
      ((r.fail.isSome = true ∨ host = true) → ∀ code, ∃ t e, exec (.replicationFail code) s = .next t ∧ t.rs.repl = none ∧ t.rs.cur = s.rs.cur ∧
        (t.die 0).reg 0x800108 = (s.die 0).reg 0x800108 ∧ t.frWait = s.frWait ++ [e] ∧ e.code = 0xC123 ∧ e.detail = (r.fail.getD code).setWidth 128 ∧
        (∀ i y, r.snap = some i → s.job i = some y → ∃ z, t.job i = some z ∧ z.done = some (0xC123, 0))))

/-- R378, R379: PAIR reads the partner's store, and what it answers ends the command. -/
def Sys2Proof.pairing : Prop :=
  (∀ (s : State) (j : Nat) (x : JSlot) (b : List Byte), readyFor s j x (isCmd 0x32) → s.early x = none →
    let p := x.num 16 2
    let pos : BitVec 10 := BitVec.ofNat 10 p
    (p = 0xFFFF → ∃ t, exec (.pair j b) s = .next t ∧ endsWith t j 0 0 ∧ t.paired = true ∧ t.hostPaired = true) ∧
    (1024 ≤ p → p ≠ 0xFFFF → ∃ t, exec (.pair j b) s = .next t ∧ endsWith t j 0xB013 0 ∧ t.rs = s.rs ∧ t.dies = s.dies) ∧
    (p < 1024 → s.route pos ≠ none → ∃ t m y, exec (.pair j b) s = .next t ∧ (t.sendCh pos 0).unacked = (s.sendCh pos 0).unacked ++ [m] ∧ m.opc = 0x01 ∧
      m.m.offset = BitVec.ofNat 37 (2 ^ 36) ∧ m.m.len = 64 ∧ m.who = .cmd j ∧ t.job j = some y ∧ y.done = none ∧ y.stream = some m.m.tsn.toNat ∧ t.rs = s.rs)) ∧
  ∀ (s : State) (j : Nat) (x : JSlot) (m : Msg) (tsn : BitVec 32), s.job j = some x → x.started = true → x.done = none → x.record = none → x.cmd = 0x32 → x.stream = some tsn.toNat →
    let p := x.num 16 2
    let a := m.data
    let same : Prop := (a.getD 6 0).toNat = s.straps.feed.toNat
    let valid : Prop := m.pois = false ∧ 64 ≤ a.length ∧ storeValid a = true ∧ numAt a 2 2 = s.straps.pos.toNat ∧ numAt a 4 2 = p
    let refused (code : BitVec 16) : Prop := endsWith (s.pairAnswer j m) j code 0 ∧ (s.pairAnswer j m).rs = s.rs ∧ (s.pairAnswer j m).dies = s.dies
    let paired (indep : Bool) : Prop := ∃ t, t = s.pairAnswer j m ∧ endsWith t j 0 (BitVec.ofNat 128 indep.toNat) ∧ t.paired = true ∧ t.hostPaired = false ∧
      t.pkgFld 0x800100 4 4 = indep.toNat ∧ t.pkgFld 0x800100 25 16 = p ∧ t.rs.forced = !indep ∧ t.rs.pfeed = a.getD 6 0 ∧ t.rs.cur = numAt a 24 1
    (∃ t, t = s.unanswered j tsn ∧ endsWith t j 0xB032 0 ∧ t.rs = s.rs ∧ t.dies = s.dies) ∧
    (m.tsn ≠ tsn → s.pairAnswer j m = s) ∧
    (m.tsn = tsn → p < 1024 → ¬valid → refused 0xB013) ∧
    (m.tsn = tsn → p < 1024 → valid → same → x.num 18 1 ≠ 1 → refused 0xB031) ∧
    (m.tsn = tsn → p < 1024 → valid → same → x.num 18 1 = 1 → paired false) ∧
    (m.tsn = tsn → p < 1024 → valid → ¬same → paired true)

/-- R383 to R385: RESTORE: the checks in their order, and the counter that a cursor implies. -/
def Sys2Proof.restores : Prop :=
  (∀ (s : State) (j : Nat) (x : JSlot) (outside : List Byte), readyFor s j x (isCmd 0x31) → s.early x = none →
    let a := x.addr
    let d := (s.peek false a 64).1
    let src := numAt d 1 1
    let ctx : BitVec 4 := BitVec.ofNat 4 (numAt d 6 1)
    let placed : Prop := a % 64 = 0 ∧ a < 2 ^ 40 ∧ devSpan a 64 = true
    let zeros : Prop := numAt d 0 1 = 1 ∧ numAt d 5 1 ≤ 1 ∧ numAt d 7 1 = 0 ∧ numAt d 16 48 = 0
    let ranged : Prop := src ≤ 2 ∧ (src = 1 → numAt d 2 2 < 1024 ∧ numAt d 8 8 = 2 ^ 36) ∧ (numAt d 4 1 ≤ 1 ∨ numAt d 4 1 = 0xFF) ∧ numAt d 6 1 ≤ 15 ∧
      (src = 0 → numAt d 8 8 < 2 ^ 40 ∧ devSpan (numAt d 8 8) 64 = true)
    let rd := s.storeRead src (numAt d 8 8) outside
    let h := (rd 0 64).1
    let k := if numAt d 4 1 = 0xFF then numAt h 24 1 else numAt d 4 1
    let img := slotOff (numAt h 8 8) k
    let ih := (rd img 128).1
    let whole : Prop := storeValid h = true ∧ k ≤ 1
    let imaged : Prop := numAt ih 0 4 = 0x4C4F5352 ∧ numAt ih 4 1 = 1 ∧ crc64Sum (ih.take 120) = numAt ih 120 8 ∧ numAt ih 8 8 = numAt h (32 + 8 * k) 8
    let free : Prop := s.gate none (spanKeys false a 64) false = none
    let lines (off n : Nat) : List Nat := if src = 0 then spanKeys false (numAt d 8 8 + off) n else []
    let reads : Prop := placed ∧ free ∧ zeros ∧ ranged ∧ s.ctxEn ctx = true ∧ (src = 2 → s.hostUp = true) ∧ s.gate none (lines 0 64) false = none ∧
      s.gate none (lines img 128) false = none ∧ s.gate none (lines (img + 128) 0) false = none
    let waits : Prop := ∃ t y, exec (.restore j outside) s = .next t ∧ t.job j = some y ∧ y.started = false ∧ y.done = none ∧ t.cores = s.cores ∧ t.mem = s.mem
    let ends (code : BitVec 16) : Prop := ∃ t, exec (.restore j outside) s = .next t ∧ endsWith t j code 0 ∧ t.cores = s.cores ∧ t.mem = s.mem
    (¬placed → ends 0xB013) ∧
    (placed → ¬free → waits) ∧
    (placed → free → ¬zeros → ends 0xB010) ∧
    (placed → free → zeros → ¬ranged → ends 0xB013) ∧
    (placed → free → zeros → ranged → s.ctxEn ctx = false → ends 0x7030) ∧
    (placed → free → zeros → ranged → s.ctxEn ctx = true → src = 2 → s.hostUp = false → waits) ∧
    (reads → ¬(whole ∧ imaged) → ends 0xC130) ∧
    (reads → whole → imaged → numAt d 5 1 = 1 → numAt ih 5 1 % 2 = 0 → ends 0xC133) ∧
    (reads → whole → imaged → (numAt d 5 1 = 0 ∨ numAt ih 5 1 % 2 = 1) → numAt ih 36 2 = 0 → s.rs.standing = none →
      ∃ t, exec (.restore j outside) s = .next t ∧ endsWith t j 0 (BitVec.ofNat 128 (numAt ih 8 8)) ∧ t.cores = s.cores ∧ t.mem = s.mem)) ∧
  (∀ (ctx : BitVec 4) (b : List Byte) (s t : State) (l : List (List Byte × W64)), restoreCursors ctx [b] s = .ok (t, l) →
    let c : CoreId := Fin.ofNat 64 (numAt b 28 1)
    let implied : W64 := BitVec.ofNat 64 (numAt b 16 8 + numAt b 8 8 * numAt b 24 4)
    (t.core c).reg (rHEM (numAt b 29 1 % 4) 2) = implied ∧
      (((s.core c).reg (rHEM (numAt b 29 1 % 4) 2) = implied) → l = []) ∧ (((s.core c).reg (rHEM (numAt b 29 1 % 4) 2) ≠ implied) → l.length = 1)) ∧
  (∀ (b : List Byte) (s t : State), restoreHems [b] s = .ok t →
    let c : CoreId := Fin.ofNat 64 (numAt b 24 1)
    let i := numAt b 25 1 % 4
    (s.core c).hemRuns i = false ∧ (t.core c).reg (rHEM i 0) = BitVec.ofNat 64 (numAt b 0 8) ∧ (t.core c).reg (rHEM i 1) = BitVec.ofNat 64 (numAt b 8 8) ∧
      (t.core c).reg (rHEM i 2) = BitVec.ofNat 64 (numAt b 16 8) ∧ t.mem = s.mem)

/-- R367 to R385: the wear gauge, captures, replications, pairing and restores. Where the rules leave a
point open it follows the model's own choices (logs 15, 37, 49, 62, 66, 81), which are no rules of the spec. -/
def Obligations.WearGaugeAndResoles : Prop := gaugeRule ∧ captures ∧ replications ∧ pairing ∧ restores

/-! ## Trust and debug -/

/-- R392: an image passes exactly when its fixed fields hold, its key is one of the fused keys and not revoked, its version is not too
old, the key has signed its header, and its body has the header's length and digest. -/
def Sys2Proof.imagePasses (t : Trust) (b : List Byte) : Prop :=
  let key := (b.drop 64).take 32
  let idx := numAt b 6 1
  let body := numAt b 16 4
  numAt b 0 4 = 0x43525431 ∧ numAt b 4 1 = 1 ∧ numAt b 5 1 ≤ 1 ∧ numAt b 13 3 = 0 ∧ numAt b 20 12 = 0 ∧ numAt b 96 160 = 0 ∧ numAt b 8112 80 = 0 ∧
    numAt b 10 2 = 0x8640 ∧ (numAt b 12 1 = 0xB1 ∨ numAt b 12 1 = 0xFF) ∧ idx < 4 ∧ t.fuses.imgRev.getLsbD idx = false ∧
    sha256 key = bytes256 (t.fuses.imgKeyH.get (Fin.ofNat 4 idx)) ∧ t.svnMin ≤ numAt b 7 1 ∧ (key, b.take 256, (b.drop 256).take 7856) ∈ t.sigs ∧
    1 ≤ body ∧ body ≤ 16769024 ∧ 8192 + body ≤ b.length ∧ sha256 ((b.drop 8192).take body) = (b.drop 32).take 32

/-- R392 to R395: LOAD_IMAGE checks an image and stores it; BOOT tries the slots in the straps' order, and enters recovery with none left. -/
def Sys2Proof.images : Prop :=
  (∀ (t : Trust) (b : List Byte), t.imageDetail b = none ↔ imagePasses t b) ∧
  (∀ (s : State) (j : Nat) (x : JSlot) (img : List Byte), readyFor s j x (isCmd 0x20) → s.early x = none → (x.num 32 1 ≠ 0 ∨ s.hostReach = true) →
    let len := x.addr
    let a := x.num 16 8
    let k : Fin 2 := Fin.ofNat 2 (x.num 33 1)
    let b := if x.num 32 1 = 0 then img.take len else (s.peek false a len).1
    let bad : Prop := 1 < x.num 32 1 ∨ 1 < x.num 33 1 ∨ 16777216 < len ∨ len < 8193 ∨ (x.num 32 1 = 1 ∧ (2 ^ 40 ≤ a ∨ devSpan a len = false ∨ s.trust.recovery = true))
    let free : Prop := x.num 32 1 = 0 ∨ s.gate none (spanKeys false a len) false = none
    let here : Prop := ∃ h, s.trust.booted = some (k, h)
    let stays (code : BitVec 16) (d : Nat) : Prop := ∃ t, exec (.loadImage j img) s = .next t ∧ endsWith t j code (BitVec.ofNat 128 d) ∧ t.trust = s.trust
    (bad → stays 0xB013 0) ∧ (¬bad → here → stays 0xB014 0) ∧
    (¬bad → ¬here → ¬free → ∃ t y, exec (.loadImage j img) s = .next t ∧ t.job j = some y ∧ y.started = false ∧ y.done = none ∧ t.trust = s.trust) ∧
    (∀ d, ¬bad → ¬here → free → s.trust.imageDetail b = some d → stays 0xB030 d) ∧
    (¬bad → ¬here → free → s.trust.imageDetail b = none → ∃ t, exec (.loadImage j img) s = .next t ∧ endsWith t j 0 (BitVec.ofNat 128 (leNat ((sha256 (b.take 256)).take 16))) ∧
      t.trust.preferred = k ∧ readBytes zeroByte (t.trust.store.get k) 0 b.length = b ∧ (∀ i, i ≠ k → t.trust.store.get i = s.trust.store.get i) ∧
      t.trust.fuses = s.trust.fuses ∧ t.trust.booted = s.trust.booted)) ∧
  (∀ s : State,
    let p := s.trust.preferred
    let det (k : Fin 2) := s.trust.imageDetail (s.slotBytes k)
    let may : Prop := s.pwr.rst = false ∧ s.pwr.pll = true ∧ s.trust.booted = none ∧ s.trust.recovery = false
    let held : Prop := (s.straps.dbg = true ∧ s.trust.fuses.dbgClose = false) ∨ s.cxl.st = 4
    let boots (k : Fin 2) (second : Bool) (t : State) : Prop := exec .boot s = .next t ∧ (∃ h, t.trust.booted = some (k, h)) ∧ t.trust.fallback = second ∧
      t.trust.idKey = true ∧ (held → t.barFld 8 17 16 = 3) ∧ (¬held → t.barFld 8 17 16 = 0) ∧ t.cores = s.cores
    (¬may → exec .boot s = .next s) ∧
    (may → s.straps.boot = 0 → det p = none → ∃ t, boots p false t ∧ t.frWait = s.frWait ∧ t.erWait = s.erWait) ∧
    (∀ d, may → s.straps.boot = 0 → det p = some d → det (1 - p) = none → ∃ t f e, boots (1 - p) true t ∧ t.frWait = s.frWait ++ [f] ∧ f.code = 0xC010 ∧
      f.detail = BitVec.ofNat 128 (p.val + d * 2 ^ 8) ∧ t.erWait = s.erWait ++ [e] ∧ e.code = 0xC011) ∧
    (may → s.straps.boot = 1 → det 0 = none → ∃ t, boots 0 false t) ∧ (may → s.straps.boot = 2 → det 1 = none → ∃ t, boots 1 false t) ∧
    (may → (∀ k ∈ s.bootOrder, det k ≠ none) → ∃ t f l, exec .boot s = .next t ∧ t.trust.recovery = true ∧ t.trust.booted = none ∧ t.barFld 8 17 16 = 3 ∧
      t.frWait = s.frWait ++ l ++ [f] ∧ f.code = 0xC012 ∧ l.length = s.bootOrder.length))

/-- R398, R399, R402 to R407: ATTEST and DEBUG_UNLOCK: the challenge, a token, a password and the close. -/
def Sys2Proof.unlocking : Prop :=
  ∀ (s : State) (j : Nat) (x : JSlot) (nonce : BitVec 256) (b : List Byte) (told : Nat), s.early x = none → s.hostReach = true →
    let age := s.since s.trust.nonceAt
    let ends (c : Instr) (code : BitVec 16) (detail : Nat) (t : State) : Prop :=
      exec c s = .next t ∧ endsWith t j code (BitVec.ofNat 128 (t.trust.openScope + detail * 2 ^ 8)) ∧ t.cores = s.cores
    let early (c : Instr) : Prop := (x.addr % 64 ≠ 0 → ∃ t, ends c 0xB013 0 t ∧ t.trust = s.trust) ∧
      (x.addr % 64 = 0 → s.trust.holdoff = true → ∃ t, ends c 0xC023 0 t ∧ t.trust = s.trust)
    let may : Prop := x.addr % 64 = 0 ∧ s.trust.holdoff = false
    let opens (c : Instr) (scope route : Nat) : Prop := ∃ t e l, ends c 0 0 t ∧ t.trust.unlocks = s.trust.unlocks + 1 ∧ t.trust.streak = 0 ∧
      (s.trust.scope.toNat < scope → t.trust.scope.toNat = scope ∧ t.trust.route.toNat = route) ∧
      (scope ≤ s.trust.scope.toNat → t.trust.scope = s.trust.scope ∧ t.trust.route = s.trust.route) ∧
      t.erWait = s.erWait ++ e :: l ∧ e.code = 0xC020 ∧ (t.trust.scope = 3 → t.trust.idKey = false) ∧
      (t.trust.scope = 3 → s.trust.idKey = true → l.map Report.code = [0xC030]) ∧ ((t.trust.scope ≠ 3 ∨ s.trust.idKey = false) → l = [])
    let fails (c : Instr) (d : Nat) : Prop := ∃ t e, ends c 0xB030 d t ∧ t.trust.fails = s.trust.fails + 1 ∧ t.trust.streak = s.trust.streak + 1 ∧
      t.trust.holdoff = true ∧ t.trust.failAt = (s.die 0).ts ∧ t.trust.scope = s.trust.scope ∧ t.erWait = s.erWait ++ [e] ∧ e.code = 0xC021 ∧ e.detail = BitVec.ofNat 128 d
    (readyFor s j x (isCmd 0x60) →
      let r := s.attestation nonce
      let gives (code : BitVec 16) (n : Nat) : Prop := ∃ t, exec (.attest j nonce) s = .next t ∧ endsWith t j code (BitVec.ofNat 128 n) ∧ t.trust = s.trust
      (x.addr % 64 ≠ 0 → gives 0xB013 0) ∧ (x.addr % 64 = 0 → s.trust.idKey = false → gives 0xC030 0) ∧
      (x.addr % 64 = 0 → s.trust.idKey = true → x.num 32 4 < r.length → gives 0xB013 0) ∧
      (x.addr % 64 = 0 → s.trust.idKey = true → r.length ≤ x.num 32 4 → gives 0 r.length) ∧
      r.take 4 = [0x54, 0x53, 0x54, 0x41] ∧ (r.drop 8).take 32 = leBytes 32 nonce.toNat ∧ 7856 ≤ r.length) ∧
    (readyFor s j x (isForm 0x61 0) → early (.debugChallenge j nonce) ∧
      (may → ∃ t, exec (.debugChallenge j nonce) s = .next t ∧ t.trust.nonce = some nonce ∧ t.trust.nonceAt = (s.die 0).ts ∧ endsWith t j 0 (BitVec.ofNat 128 (t.trust.openScope + 80 * 2 ^ 32)) ∧
        (s.challenge nonce).length = 80)) ∧
    (readyFor s j x (isForm 0x61 1) → early (.debugTokenUnlock j b told) ∧
      (may → s.trust.tokenDetail b age = none → opens (.debugTokenUnlock j b told) (numAt b 5 1) 1) ∧
      (∀ d, may → s.trust.tokenDetail b age = some d → fails (.debugTokenUnlock j b told) d) ∧
      (may → ∃ t, exec (.debugTokenUnlock j b told) s = .next t ∧ t.trust.nonce = none) ∧
      (s.trust.tokenDetail b age = none → b.length = 7984 ∧ age ≤ 600 * 2000000000 ∧ s.trust.nonce = some (BitVec.ofNat 256 (numAt b 8 32)) ∧ (b.drop 40).take 32 = s.trust.devId ∧
        ((b.drop 72).take 32, b.take 128, b.drop 128) ∈ s.trust.sigs ∧ 1 ≤ numAt b 5 1 ∧ numAt b 5 1 ≤ 3)) ∧
    (readyFor s j x (isForm 0x61 2) → early (.debugPasswordUnlock j b) ∧
      (may → s.trust.passwordDetail b = none → opens (.debugPasswordUnlock j b) (numAt b 32 1) 2) ∧
      (∀ d, may → s.trust.passwordDetail b = some d → fails (.debugPasswordUnlock j b) d) ∧
      (s.trust.passwordDetail b = none ↔ numAt b 33 31 = 0 ∧ 1 ≤ numAt b 32 1 ∧ numAt b 32 1 ≤ 3 ∧ s.trust.fuses.pwEn = true ∧ numAt b 32 1 ≤ s.trust.fuses.pwScope.toNat ∧
        sha256 (b.take 32) = bytes256 s.trust.fuses.pwHash)) ∧
    (readyFor s j x (isForm 0x61 3) → ∃ t e, ends (.debugClose j) 0 0 t ∧ t.trust.scope = 0 ∧ t.trust.route = 0 ∧ t.erWait = s.erWait ++ [e] ∧ e.code = 0xC022) ∧
    (s.trust.delay ≤ s.since s.trust.failAt → exec .unlockHoldoffEnd s = .next { s with trust := { s.trust with holdoff := false } }) ∧
    (s.since s.trust.failAt < s.trust.delay → exec .unlockHoldoffEnd s = .next s) ∧
    (s.trust.delay = if s.trust.streak ≤ 1 then 2000000000 else if s.trust.streak = 2 then 2 * 2000000000 else if s.trust.streak = 3 then 4 * 2000000000
      else if s.trust.streak = 4 then 8 * 2000000000 else if s.trust.streak = 5 then 16 * 2000000000 else if s.trust.streak = 6 then 32 * 2000000000
      else 64 * 2000000000)

/-- R356, R396 to R400: the DOE mailbox and the test port: SPDM answers once Cretas runs, one signature at a time and none after the
identity key is withdrawn; EXTEST acts only while PERST_N is low. -/
def Sys2Proof.doeAndTap : Prop :=
  ∀ (s : State) (nonce : BitVec 256) (i : Nat) (pins : List Bool) (b : Bool),
    let only (c : Instr) (l : List Byte) : Prop := exec c s = .next { s with answer := l }
    let tells (c : Instr) (n code : Byte) : Prop := (s.fwUp = false → only c []) ∧ (s.fwUp = true → ∃ l, only c (n :: code :: l))
    let signs (c : Instr) : Prop := (s.fwUp = false → only c []) ∧ (s.fwUp = true → s.trust.idKey = false → only c [0x13, 0x7F, 0x05, 0]) ∧
      (s.fwUp = true → s.trust.idKey = true → s.trust.signing.isSome = true → only c [0x13, 0x7F, 0x42, 0]) ∧
      (s.fwUp = true → s.trust.idKey = true → s.trust.signing = none → ∃ r, exec c s = .next { s with answer := [], trust := { s.trust with signing := some r } } ∧ 7856 ≤ r.length)
    tells .spdmGetVersion 0x10 0x04 ∧ tells .spdmGetCapabilities 0x13 0x61 ∧
    (s.fwUp = false → only .spdmNegotiateAlgorithms [] ∧ only .spdmGetDigests [] ∧ only .spdmGetCertificate []) ∧
    (s.fwUp = true → only .spdmNegotiateAlgorithms (protocolObject 0x63 0) ∧ only .spdmGetDigests (protocolObject 0x01 (beNat s.trust.devId)) ∧
      only .spdmGetCertificate (protocolObject 0x02 (beNat s.trust.pubKey))) ∧
    signs (.spdmChallenge nonce) ∧ signs (.spdmGetMeasurements nonce) ∧
    (s.trust.signing = none → exec .spdmSignatureDone s = .next s) ∧
    (∀ r, s.trust.signing = some r → exec .spdmSignatureDone s = .next { s with answer := [0x13, 0x7F, 0x0F, 0], trust := { s.trust with signing := none, reply := r } }) ∧
    (s.trust.reply ≠ [] → exec .spdmChunkGet s = .next { s with answer := s.trust.reply.take 4096, trust := { s.trust with reply := s.trust.reply.drop 4096 } }) ∧
    (s.trust.reply = [] → s.fwUp = true → only .spdmChunkGet [0x13, 0x7F, 0x01, 0]) ∧
    only (.doeDiscovery i) (protocolObject 0 i) ∧
    (∃ l, only (.cdatRead i) l ∧ (i = 0 → leNat ((l.drop 16).take 8) = 2 * Config.dieBytes) ∧ (i = 1 → leNat ((l.drop 16).take 2) = 600) ∧
      (i = 2 → leNat ((l.drop 16).take 2) = 400) ∧ ((i = 3 ∨ i = 4) → leNat ((l.drop 16).take 2) = 240) ∧ (5 ≤ i → l = [])) ∧
    exec .doeAbort s = .next { s with answer := [], trust := { s.trust with signing := none, reply := [] } } ∧
    only .tapIdcode [0xAB, 0x07, 0x64, 0x18] ∧ only (.tapBypass b) [if b then 1 else 0] ∧ only .tapUnlockstat (leBytes 8 s.trust.stat) ∧
    exec (.tapSamplePreload pins) s = .next { s with answer := pins.map (fun p => if p then 1 else 0), trust := { s.trust with pins := pins } } ∧
    (s.pwr.perst = false → exec (.tapExtest pins) s = .next { s with trust := { s.trust with pins := pins } }) ∧
    (s.pwr.perst = true → ∃ t, exec (.tapExtest pins) s = .next t ∧ t.answer = [] ∧ t.trust = s.trust ∧
      (s.pkgFld 0x900030 47 32 < 2 ^ 16 - 1 → t.pkgFld 0x900030 47 32 = s.pkgFld 0x900030 47 32 + 1))

/-- R356, R392 to R407: images and boot, attestation and debug unlock, the DOE mailbox and the test port. Where the rules leave a
point open it follows the model's own choices (logs 11, 12, 38, 39, 113), which are no rules of the spec. -/
def Obligations.TrustAndDebug : Prop := images ∧ unlocking ∧ doeAndTap

/-! ## The CXL port -/

/-- R20, R357 to R360: host reads and writes of device memory: outside the committed decoder they complete at the port with 0xA010; inside
they go to the line's home, and wait there for a back-invalidation that is outstanding for the line, or for room in the host filter. -/
def Sys2Proof.hostAccesses : Prop :=
  ∀ (hoff : W64) (want : HostWant) (mask : BitVec 64) (data : BitVec 512) (poison giveUp : Bool) (s : State),
    let x := hoff.toNat
    let key := hostOffPa x / 64
    let rd := exec (.cxlMemRead hoff want) s
    let wr := exec (.cxlMemWrite hoff mask data poison giveUp) s
    let up : Prop := s.cxl.up = true ∧ s.cxl.st ≠ 4
    let hit : Prop := s.hdmHit x = true
    let snooped : Prop := ∃ b ∈ s.biSnps, b.key = key
    let misses (t : State) : Prop := (∃ e, t.frWait = s.frWait ++ [e] ∧ e.code = 0xA010 ∧ e.addr = BitVec.ofNat 64 (s.cxl.hdmBase + x)) ∧ t.mem = s.mem ∧
      t.cores = s.cores ∧ t.regions = s.regions
    (¬up → rd = .next s ∧ wr = .next s) ∧
    (x < Config.dieBytes → hostOffPa x = x) ∧ (Config.dieBytes ≤ x → hostOffPa x = 2 ^ 39 + (x - Config.dieBytes)) ∧
    (up → ¬hit → (∃ t, rd = .next t ∧ misses t ∧ t.answer.length = 65 ∧ t.answer.getLast? = some 1) ∧ ∃ t, wr = .next t ∧ misses t) ∧
    (up → hit → snooped → rd = .next { s with homeWait := s.homeWait ++ [.hostRead key want] } ∧
      (giveUp = false → wr = .next { s with homeWait := s.homeWait ++ [.hostWrite key mask data poison giveUp] })) ∧
    (up → hit → ¬snooped →
      (∀ o, s.filtFull key want = some o → ∃ t, rd = .next t ∧ t.homeWait = s.homeWait ++ [.hostRead key want] ∧ (∃ b ∈ t.biSnps, b.key = o.key) ∧ t.mem = s.mem) ∧
      (s.filtFull key want = none → ∃ t, rd = .next t ∧ t.answer.length = 65 ∧ t.homeWait = s.homeWait ∧
        (want = .current → ∀ r, (t.region r).filter = (s.region r).filter) ∧
        (want ≠ .current → ∃ e ∈ (t.region (s.homeOf key)).filter, e.key = key ∧ e.owned = decide (want = .owned))) ∧
      (∃ t, wr = .next t ∧ t.homeWait = s.homeWait ∧ (giveUp = true → ∀ e ∈ (t.region (s.homeOf key)).filter, e.key ≠ key) ∧
        (giveUp = false → poison = false → t = s.cohWrite key mask data false)))

/-- R359, R360: BIRSP_ARRIVAL ends a back-invalidation and drops or demotes the filter's entry; BICONFLICT is answered for one that is
outstanding. -/
def Sys2Proof.biAnswers : Prop :=
  ∀ (line : BitVec 58) (s : State),
    let key := line.toNat
    let sent : Prop := ∃ b ∈ s.biSnps, b.key = key ∧ b.sent = true
    (¬sent → (∀ d, exec (.birspArrival line d) s = .next s) ∧ exec (.biconflict line) s = .next s) ∧
    (sent → ∃ t, exec (.biconflict line) s = .next t ∧ t.answer = [5] ∧ t.biSnps = s.biSnps ∧ t.mem = s.mem) ∧
    (∀ b, s.biSnps = [b] → b.key = key → b.sent = true → s.homeWait = [] → s.journal = [] →
      (∃ t, exec (.birspArrival line none) s = .next t ∧ t.biSnps = [] ∧ t.mem = s.mem ∧ t.cores = s.cores ∧
        (b.inv = true → ∀ e ∈ (t.region (s.homeOf key)).filter, e.key ≠ key) ∧
        (b.inv = false → ∀ e ∈ (t.region (s.homeOf key)).filter, e.key = key → e.owned = false)) ∧
      ∀ d, ∃ t u, exec (.birspArrival line (some d)) s = .next t ∧ exec (.birspArrival line none) (s.cohWrite key (BitVec.allOnes 64) d false) = .next u ∧ t = u)

/-- R350, R363: the host link comes up, is lost with every host line and with the writes whose fate is not known, and comes back; a
request that outlasts HOLDMS ends without the host. -/
def Sys2Proof.hostLink : Prop :=
  ∀ (rate : BitVec 3) (width : BitVec 5) (fail : BitVec 2) (cause : RecoveryCause) (i : Nat) (s : State),
    let able : Prop := rate ∈ [1, 2, 3] ∧ width ∈ [4, 8, 16]
    let trains : Prop := s.pwr.rst = false ∧ s.cxl.st = 0
    let lost : Prop := cause ≠ .busMasterClear ∧ cause ≠ .d3hot
    let quiet : Prop := s.homeWait = [] ∧ s.journal = []
    (¬trains → exec (.cxlLinkUp rate width fail) s = .next s) ∧
    (trains → fail ≠ 0 → ∃ t, exec (.cxlLinkUp rate width fail) s = .next t ∧ t.cxl.st = 4 ∧ t.cxl.up = true ∧ t.barFld 8 17 16 = 3 ∧
      bitsOf (t.dvReg 0xC).toNat 3 0 = fail.toNat ∧ t.hostUp = false) ∧
    (trains → fail = 0 → able → ∃ t, exec (.cxlLinkUp rate width fail) s = .next t ∧ t.cxl.st = 2 ∧ t.cxl.up = true ∧ t.cxl.rate = rate.toNat ∧
      t.cxl.width = width.toNat ∧ t.cxl.cacheEn = true ∧ t.cores = s.cores) ∧
    (s.cxl.st ≠ 2 → ¬(s.cxl.st = 3 ∧ lost) → exec (.hostLinkRecovery cause) s = .next s) ∧
    (s.cxl.st = 2 → quiet → (cause = .busMasterClear → s.cxl.bme = true) → ∃ t, exec (.hostLinkRecovery cause) s = .next t ∧ t.cxl.st = 3 ∧
      (t.cxl.up = true ↔ ¬lost) ∧ t.hostUp = false ∧ t.biSnps = [] ∧ t.tracker = [] ∧ (∀ r, (t.region r).filter = []) ∧
      (∀ c l, l ∈ (t.cluster c).l2 → isHost l.key = false) ∧ (∀ c l, l ∈ (t.core c).l1d ++ (t.core c).l1i → isHost l.key = false) ∧
      (bitsOf (s.dvReg 0x18).toNat 15 0 < 2 ^ 16 - 1 → bitsOf (t.dvReg 0x18).toNat 15 0 = bitsOf (s.dvReg 0x18).toNat 15 0 + 1) ∧
      (∃ e ∈ t.frWait, e.code = 0xA030 ∧ e.detail = BitVec.ofNat 128 s.dirtyHost.length) ∧ t.mem = s.mem ∧ t.hostMem = s.hostMem) ∧
    (¬(s.cxl.st = 3 ∧ s.cxl.up = false) → exec .hostLinkL0 s = .next s) ∧
    (s.cxl.st = 3 → s.cxl.up = false → ∃ t, exec .hostLinkL0 s = .next t ∧ t.cxl.up = true ∧ t.cxl.bme = false ∧ t.cxl.mse = false ∧ t.cxl.committed = false ∧
      t.dvsec = s.dvsec ∧ t.hostUp = false) ∧
    (s.cxl.up = false → exec .hostEnable s = .next s) ∧
    (s.cxl.up = true → quiet → ∃ t l, exec .hostEnable s = .next t ∧ t.cxl.bme = true ∧ t.cxl.mse = true ∧ t.erWait = s.erWait ++ l ∧
      (s.cxl.st = 3 → t.cxl.st = 2 ∧ t.hostUp = true ∧ l.map Report.code = [0xB053]) ∧ (s.cxl.st ≠ 3 → t.cxl.st = s.cxl.st ∧ l = [])) ∧
    ((s.hostUp = true ∨ s.hostWaits[i]? = none) → exec (.holdmsExpiry i) s = .next s) ∧
    (∀ c k l, s.hostUp = false → s.hostWaits[i]? = some (.load c k) → (s.core c).lateLoads[k]? = some l → ∃ t, exec (.holdmsExpiry i) s = .next t ∧
      (t.core c).lateLoads = (s.core c).lateLoads.eraseIdx k ∧ (∀ d, d ≠ c → t.core d = s.core d) ∧ t.mem = s.mem) ∧
    (∀ c q a, s.hostUp = false → s.hostWaits[i]? = some (.tx c q) → q.hostDst = some a → ∃ t e, exec (.holdmsExpiry i) s = .next t ∧ t.frWait = s.frWait ++ [e] ∧
      e.code = 0xA031 ∧ e.addr = BitVec.ofNat 64 a ∧ (∀ r ∈ (t.core c).txReqs, r.tag ≠ q.tag) ∧ t.mem = s.mem) ∧
    (∀ c e r, s.hostUp = false → s.hostWaits[i]? = some (.store c) → (s.core c).storeBuf = e :: r → ∃ t f, exec (.holdmsExpiry i) s = .next t ∧
      (t.core c).storeBuf = r ∧ t.frWait = s.frWait ++ [f] ∧ f.code = 0xA031 ∧ t.mem = s.mem)

/-- R350, R357 to R363: the CXL port: host accesses, back-invalidation, and the link. Where the rules leave a
point open it follows the model's own choices (logs 16, 17, 18, 22, 56, 69, 87), which are no rules of the spec. -/
def Obligations.HostLink : Prop := hostAccesses ∧ biAnswers ∧ hostLink

/-! ## Power, thermal control, clocks, pins and the sideband -/

/-- R15, R28, R364, R414, R418 to R420, R423, R427: the package enters reset, keeps what the always-on domain and the outside hold, and
leaves it when every pin is high. -/
def Sys2Proof.resetPins : Prop :=
  ∀ (s : State) (straps : Straps) (pin : ResetPin) (rail : Rail) (d : DieId),
    let enters (c : Instr) (t : State) : Prop := exec c s = .next t ∧ t.pwr.rst = true ∧ (s.pwr.rst = false →
      (∀ i, t.core i = {}) ∧ (∀ i, t.cluster i = {}) ∧ t.cxl.st = 0 ∧ t.trust.booted = none ∧ t.trust.scope = 0) ∧ t.hostMem = s.hostMem ∧
      t.straps = s.straps ∧ t.trust.fuses = s.trust.fuses ∧ t.trust.store = s.trust.store ∧ t.pending = s.pending
    let keeps (t : State) : Prop := t.commitSeq = s.commitSeq ∧ (t.die 0).reg 0x800108 = (s.die 0).reg 0x800108 ∧ t.paired = s.paired ∧
      t.journal.map Prod.fst = s.journal.map Prod.fst
    let clears (t : State) : Prop := t.commitSeq = 0 ∧ t.journal = [] ∧ (t.die 0).reg 0x800108 = 0 ∧ t.paired = false ∧ t.pwr.stby = false ∧ t.pwr.vstbyLost = true ∧
      t.pwr.trip = false ∧ t.pwr.seen = false
    let faults (t : State) (code : BitVec 16) (n : Nat) : Prop := t.pwr.faults = s.pwr.faults ++ [(code, n)]
    ((s.pwr.good = true ∨ s.pwr.stby = false) → exec (.pwrGoodRise straps) s = .next s) ∧
    (s.pwr.good = false → s.pwr.stby = true → ∃ t, exec (.pwrGoodRise straps) s = .next t ∧ t.straps = straps ∧ t.pwr.good = true ∧ t.pwr.seen = true ∧
      t.pwr.trip = false ∧ t.pwr.rst = s.pwr.rst ∧ t.cores = s.cores) ∧
    ((s.pwr.rst = false ∨ s.pwr.good = false ∨ s.pwr.stby = false) → exec .packageResetRelease s = .next s) ∧
    (s.pwr.rst = true → s.pwr.good = true → s.pwr.stby = true → ∃ t, exec .packageResetRelease s = .next t ∧ t.pwr.rst = false ∧ t.pwr.perst = true ∧ t.pwr.pll = false ∧
      (∀ e, (t.die e).ts = 0) ∧ t.basting = s.straps.map ∧ t.pwr.faults = s.pwr.faults ∧ t.cores = s.cores) ∧
    (s.pwr.rst = true → exec .pllLock s = .next s) ∧
    (s.pwr.rst = false → exec .pllLock s = .next { s with pwr := { s.pwr with pll := true } }) ∧
    exec .stbyGoodRise s = .next { s with pwr := { s.pwr with stby := true } } ∧
    (pin ≠ .stbyGood → ∃ t, enters (.packageResetEntry pin) t ∧ keeps t ∧ t.pwr.faults = s.pwr.faults ∧ (pin = .pwrGood → t.pwr.good = false) ∧
      (pin = .perst → t.pwr.perst = false ∧ t.pwr.good = s.pwr.good) ∧
      (s.pwr.rst = false → t.pkgFld 0x740010 7 0 = (s.incarn + 1).toNat)) ∧
    (∃ t, enters (.packageResetEntry .stbyGood) t ∧ clears t) ∧ (∃ t, enters .vstbyLoss t ∧ clears t) ∧
    (s.pwr.good = false → exec (.railUndervoltage rail) s = .next s) ∧
    (s.pwr.good = true → ∃ t, enters (.railUndervoltage rail) t ∧ keeps t ∧ faults t 0xE010 (railNum rail)) ∧
    (s.pwr.rst = true → exec .refclkLoss s = .next s) ∧
    (s.pwr.rst = false → ∃ t, enters .refclkLoss t ∧ keeps t ∧ faults t 0xE020 0) ∧
    (∃ t, exec (.slRefclkLoss d) s = .next t ∧ t.mem = s.mem ∧ t.cores = s.cores ∧
      ∀ p : PortId, (t.port p).st = if p.val / 3 = d.val ∧ (s.port p).st = .active then .retrain else (s.port p).st)

/-- R24, R367, R415, R421 to R424, R431, R432, R434: the divider's demands, the trip, THROT_N, droop events, and the SMBus words. -/
def Sys2Proof.powerControl : Prop :=
  ∀ (s : State) (avg : BitVec 11) (may : Bool) (tp : BitVec 16) (addr : BitVec 7) (cmd : BitVec 8), s.pwr.rst = false →
    let floor := s.divFloor
    let dp := max s.pwr.dPower floor
    let hungry : Prop := may = true ∧ s.classWatts < avg.toNat ∧ dp < 4
    let under : Prop := may = true ∧ 100 * avg.toNat < 95 * s.classWatts ∧ floor < dp ∧ dp = s.divNow
    let sample (t : State) : Prop := exec (.powerSample avg may) s = .next t ∧ t.pwr.avg = avg.toNat ∧ t.cores = s.cores ∧ t.mem = s.mem
    let word (n : Nat) : Prop := exec (.smbReadWord addr cmd) s = .next { s with answer := leBytes 2 n }
    (s.classWatts = if s.straps.pwrClass = 1 then 1150 else if s.straps.pwrClass = 2 then 1400 else 900) ∧
    (hungry → ∃ t e, sample t ∧ t.pwr.dPower = dp + 1 ∧ t.erWait = s.erWait ++ [e] ∧ e.code = 0xE030) ∧
    (under → ¬hungry → ∃ t, sample t ∧ t.pwr.dPower = dp - 1 ∧ t.erWait = s.erWait) ∧
    (¬hungry → ¬under → ∃ t, sample t ∧ t.pwr.dPower = s.pwr.dPower ∧ t.erWait = s.erWait) ∧
    (s.divNow = max floor (max s.pwr.dPower (max s.pwr.dTemp (max (if s.pwr.throt then 4 else 0) (min 4 (s.pkgFld 0xA00008 2 0)))))) ∧
    ((s.pwr.hot = true ∨ tp.toInt < 800) → exec (.tempHot tp) s = .next s) ∧
    (s.pwr.hot = false → 800 ≤ tp.toInt → ∃ t e, exec (.tempHot tp) s = .next t ∧ t.pwr.hot = true ∧ t.pwr.alert = true ∧ t.pwr.temp = tp ∧
      t.erWait = s.erWait ++ [e] ∧ e.code = 0xE031) ∧
    (s.pwr.hot = true → 800 ≤ tp.toInt → max s.pwr.dTemp floor < 4 → ∃ t, exec (.tempStep tp) s = .next t ∧ t.pwr.dTemp = max s.pwr.dTemp floor + 1 ∧ t.pwr.temp = tp) ∧
    ((s.pwr.hot = false ∨ tp.toInt < 800 ∨ 4 ≤ max s.pwr.dTemp floor) → exec (.tempStep tp) s = .next { s with pwr := { s.pwr with temp := tp } }) ∧
    (760 ≤ tp.toInt → exec (.tempCool tp) s = .next s) ∧
    (tp.toInt < 760 → exec (.tempCool tp) s = .next { s with pwr := { s.pwr with temp := tp, hot := false, dTemp := 0 } }) ∧
    (tp.toInt < 920 → exec (.thermalTrip tp) s = .next s) ∧
    (920 ≤ tp.toInt → ∃ t, exec (.thermalTrip tp) s = .next t ∧ t.pwr.rst = true ∧ t.pwr.trip = true ∧ t.pwr.alert = true ∧
      t.pwr.faults = s.pwr.faults ++ [(0xE040, 0)] ∧ ∀ c, t.core c = {}) ∧
    (s.pwr.throt = true → exec .throtNAssert s = .next s) ∧
    (s.pwr.throt = false → ∃ t e, exec .throtNAssert s = .next t ∧ t.pwr.throt = true ∧ 4 ≤ t.divNow ∧ t.erWait = s.erWait ++ [e] ∧ e.code = 0xE032) ∧
    exec .throtNDeassert s = .next { s with pwr := { s.pwr with throt := false } } ∧
    (∃ t, exec .voltageDroopEvent s = .next t ∧ t.pwr.droops.sum = s.pwr.droops.sum + 1 ∧ t.pwr.droops.tail = s.pwr.droops.tail ∧ t.cores = s.cores) ∧
    (s.smbAddr = if s.pwr.seen then 0x58 + ((s.straps.pos.setWidth 3).setWidth 7) else 0x58) ∧
    ((s.pwr.stby = false ∨ addr ≠ s.smbAddr) → exec (.smbReadWord addr cmd) s = .next { s with answer := [] }) ∧
    (s.pwr.stby = true → addr = s.smbAddr → s.pwr.ran = true →
      (cmd = 0x01 → word s.pwr.temp.toNat) ∧ (cmd = 0x02 → word s.pwr.avg) ∧ (cmd = 0x03 → s.divNow = 0 → word 4000) ∧ (cmd = 0x03 → s.divNow = 2 → word 3200) ∧
      (cmd = 0x03 → s.divNow = 4 → word 2000) ∧ (cmd = 0x05 → word s.risk) ∧ (cmd = 0x06 → word (s.straps.pos.toNat + s.straps.feed.toNat * 2 ^ 10)) ∧
      (cmd ∉ [0x01, 0x02, 0x03, 0x04, 0x05, 0x06] → exec (.smbReadWord addr cmd) s = .next { s with answer := [] })) ∧
    (s.pwr.stby = true → addr = s.smbAddr → s.pwr.ran = false → cmd ∈ [0x01, 0x02, 0x03, 0x05, 0x06] → word 0x8000) ∧
    (s.pwr.stby = true → s.pwr.alert = true → exec .smbAlertResponse s = .next { s with answer := [s.smbAddr.setWidth 8], pwr := { s.pwr with alert := false } }) ∧
    ((s.pwr.stby = false ∨ s.pwr.alert = false) → exec .smbAlertResponse s = .next { s with answer := [] })

/-- R15, R28, R364, R414 to R434: package reset, power and thermal control, and the sideband. Where the rules leave a
point open it follows the model's own choices (logs 20, 24, 25, 26, 58, 62, 64, 65), which are no rules of the spec. -/
def Obligations.PowerAndReset : Prop := resetPins ∧ powerControl

/-! ## The block as a whole -/

/-- DESIGN CHOICE (log 1): a step takes the command at the front of the queue and runs it on the state with the queue's rest; on an
empty queue the timestamp counters of a package out of reset count (R28), and nothing else changes. -/
def Obligations.StepTakesTheFront : Prop :=
  (∀ (c : Instr) (l : List Instr) (s : State), s.pending = c :: l → step s = exec c { s with pending := l }) ∧
  ∀ s : State, s.pending = [] → let up (x : W64) : W64 := if x = BitVec.allOnes 64 then x else x + 1
    ∃ t, step s = .next t ∧ t = { s with dies := t.dies } ∧ (s.pwr.rst = true → t = s) ∧
    (s.pwr.rst = false → t.die 0 = { s.die 0 with ts := up (s.die 0).ts } ∧
      (((s.die 1).ts ≠ 0 ∨ 4 ≤ (s.die 0).ts.toNat) → t.die 1 = { s.die 1 with ts := up (s.die 1).ts }) ∧
      (t.die 1 = s.die 1 ∨ t.die 1 = { s.die 1 with ts := up (s.die 1).ts }))

/-- Every command has a next state in every state: none faults and none is refused, since the rules give each an effect (an event whose
condition does not hold changes nothing: DESIGN CHOICE, log 2). -/
def Obligations.NothingStops : Prop := ∀ (c : Instr) (s : State), ∃ t, exec c s = .next t

/-- R9, R181, R264, R285, R301, R310, R387, R418: what a package reset leaves: every core idle with registers 0, no translation, no queue, the
address map of the straps, ports Disabled, no route, no pairing, no commands; each register at its table's reset value. Where the rules leave a
point open it follows the model's own choices (logs 5, 6, 7, 10), which are no rules of the spec. -/
def Obligations.ResetState : Prop :=
  let s := State.reset
  (∀ c : CoreId, (s.core c).run = .idle ∧ (∀ i : Fin 64, (s.core c).g.get i = 0) ∧ (∀ i : Fin 16, ((s.core c).c.get i).tag = false) ∧
    (∀ i : Fin 5, ((s.core c).scap.get i).tag = false) ∧ (s.core c).tile = [] ∧ (s.core c).vq = [] ∧ (s.core c).mq = [] ∧ (s.core c).tlb = [] ∧
    ∀ off, (s.core c).reg off = coreReset off) ∧
  (∀ c : ClusterId, (s.cluster c).l2 = [] ∧ (s.cluster c).hamper = [] ∧ ∀ off, (s.cluster c).reg off = clusterReset off) ∧
  (∀ r : RegionId, (s.region r).rc = [] ∧ (s.region r).filter = [] ∧ (∀ l : Fin 16, ((s.region r).remap.get l).val = l.val) ∧ (s.region r).spare = 16 ∧
    ∀ off, (s.region r).reg off = regionReset off) ∧
  (∀ (d : DieId) (off : Nat), (s.die d).reg off = dieReset off ∧ (s.die d).ts = 0) ∧ (∀ dst, s.route dst = none) ∧
  (∀ (r : RReg) (t : List RReg), findReg t r.off = some r → tableReset t r.off = BitVec.ofNat 64 r.reset) ∧
  s.mem = [] ∧ s.journal = [] ∧ s.pending = [] ∧ s.commitSeq = 0 ∧ s.paired = false ∧ s.hostUp = false ∧ s.trust.booted = none ∧ s.trust.scope = 0 ∧
  s.rs.standing = none ∧ s.pwr.rst = false ∧ s.pwr.pll = false ∧ s.canonical = true

/-- R138: g0 reads 0. The canonical form of memory is the model's own (DESIGN CHOICE, log 13). Every step from every state keeps the
canonical form of device memory, host memory and each core's tile memory with their tags, and g0 at 0. -/
def Obligations.StepKeepsCanonicalForm : Prop := ∀ s t : State, s.canonical = true → step s = .next t → t.canonical = true

/-- R130 to R136, R147, R151, R152, R163, R189: every well-formed instruction is read back from its own syllable, whatever the values of its
fields: no bit of an encoding is dropped. -/
def Obligations.DecodeOfEncode : Prop :=
  ∀ (i : Instr) (slot b : Nat) (x : Option Nat), i.wf = true → encodeSyl i = some (slot, b, x) →
    (∃ c, decodeSyl c slot b x = .ok i) ∧ slot < 8 ∧ b < 2 ^ 28 ∧ ∀ e, x = some e → e < 2 ^ 28
end

