-- ==== Sys2Proof/Laws/Hash.lean ====
section
/-! SUPPORT. Laws of SHA-256 as the model computes it: a digest has 32 bytes. -/

namespace Sys2Proof.Machine

theorem leBytes_length (n x : Nat) : (leBytes n x).length = n := by
  induction n generalizing x with
  | zero => rfl
  | succ n ih => simp [leBytes, ih]

theorem beBytes_length (n x : Nat) : (beBytes n x).length = n := by simp [beBytes, leBytes_length]

theorem shaRound_length (s : List Nat) (kw : Nat) : (shaRound s kw).length = s.length := by unfold shaRound; split <;> rfl

theorem foldl_shaRound_length (l s : List Nat) : (l.foldl shaRound s).length = s.length := by
  induction l generalizing s with
  | nil => rfl
  | cons a l ih => rw [List.foldl_cons, ih, shaRound_length]

theorem shaBlock_length (s w : List Nat) : (shaBlock s w).length = s.length := by simp [shaBlock, foldl_shaRound_length]

theorem shaBlocks_length (n : Nat) (s w : List Nat) : (shaBlocks n s w).length = s.length := by
  induction n generalizing s w with
  | zero => rfl
  | succ n ih => rw [shaBlocks, ih, shaBlock_length]

theorem flatMap_beBytes_length (l : List Nat) : (l.flatMap (beBytes 4)).length = 4 * l.length := by
  induction l with
  | nil => rfl
  | cons a l ih => rw [List.flatMap_cons, List.length_append, beBytes_length, ih, List.length_cons]; omega

/-- A digest has 32 bytes (R390, log 12). -/
theorem sha256_length (m : List Byte) : (sha256 m).length = 32 := by
  have h : shaInit.length = 8 := by simp [shaInit, shaPrimes]
  simp only [sha256]
  rw [flatMap_beBytes_length, shaBlocks_length, h]

theorem devId_length (t : Trust) : t.devId.length = 32 := sha256_length _

end Sys2Proof.Machine
end

