-- ==== Sys2Proof/Laws/Issue.lean ====
section
/-! SUPPORT. What the passage of a one-instruction bundle can do (R132): retire with the instruction's own effect, be held, fault. -/

namespace Sys2Proof.Machine

theorem State.core_setCore (s : State) (c : CoreId) (k : Core) : (s.setCore c k).core c = k := by
  show (s.cores.set c.val k c.isLt)[c.val] = k
  simp

theorem State.core_setCore_ne (s : State) {c d : CoreId} (h : c ≠ d) (k : Core) : (s.setCore c k).core d = s.core d := by
  have : c.val ≠ d.val := fun e => h (Fin.ext e)
  show (s.cores.set c.val k c.isLt)[d.val] = s.cores[d.val]
  exact Vector.getElem_set_ne c.isLt d.isLt this

@[simp] theorem State.core_updCore (s : State) (c : CoreId) (f : Core → Core) : (s.updCore c f).core c = f (s.core c) :=
  State.core_setCore s c _

theorem State.core_updCore_ne (s : State) {c d : CoreId} (h : c ≠ d) (f : Core → Core) : (s.updCore c f).core d = s.core d :=
  State.core_setCore_ne s h _

@[simp] theorem State.updCore_updCore (s : State) (c : CoreId) (f g : Core → Core) :
    (s.updCore c f).updCore c g = s.updCore c (fun k => g (f k)) := by
  unfold State.updCore
  rw [State.core_setCore]
  simp [State.setCore]

@[simp] theorem State.updCore_id (s : State) (c : CoreId) : s.updCore c (fun k => k) = s := by
  show { s with cores := s.cores.set c.val (s.cores[c.val]) c.isLt } = s
  simp

theorem Piece.issue_of_sound {p : Piece} {i : Instr} {s : State} {c : CoreId} {len : Nat} (hp : p.i = some i)
    (hr : (srcRegs i).all (fun r => !(s.core c).poisoned r) = true) : p.issue len s c = issueOf i len s := by
  unfold Piece.issue
  rw [hp]
  simp only
  rw [if_neg]
  simpa using hr

/-- The piece of a well-formed instruction names that instruction. -/
theorem pieceOf_i {i : Instr} {p : Piece} (hw : i.wf = true) (hp : pieceOf i = some p) : p.i = some i := by
  unfold pieceOf at hp
  split at hp
  · cases hp
  · simp only [hw, if_true, Option.some.injEq] at hp
    rw [← hp]

theorem State.takes_parts {s : State} {c : CoreId} {i : Instr} (h : s.takes c i = true) :
    s.coreFree c = true ∧ i.wf = true ∧ namesTwice (dstReal i) = false ∧ (s.core c).hasOperands i = true ∧ (s.core c).loopOk = true := by
  simpa [State.takes, and_assoc] using h

/-- R132: an instruction that takes effect retires its bundle. -/
theorem issueOne_go {s : State} {c : CoreId} {i : Instr} {p : Piece} {u : State → State} (ht : s.takes c i = true)
    (hp : pieceOf i = some p) (hu : issueOf i (if p.ext = 0 then 1 else 2) s = .go u) :
    s.issueOne c i = (u (s.updCore c (fun k => k.advance (if p.ext = 0 then 1 else 2) (p.jumps (s.core c))))).updCore c
      (fun k => k.noteSyl p) := by
  obtain ⟨hf, hw, hn, ho, hl⟩ := State.takes_parts ht
  have hpi := pieceOf_i hw hp
  simp only [Core.hasOperands, Bool.and_eq_true] at ho
  obtain ⟨⟨ho1, ho2⟩, ho3⟩ := ho
  simp only [State.coreFree, Bool.and_eq_true] at hf
  obtain ⟨⟨hf1, hf2⟩, hf3⟩ := hf
  have hready : (s.core c).ready [p] = true := by
    unfold Core.ready
    rw [hf1, hf2]
    cases hh : (s.core c).held with
    | none => rfl
    | some x => rw [hh] at hf3; cases hf3
  have hwait : p.waits (s.core c) = false := by
    unfold Piece.waits
    rw [hpi]
    simp only [Bool.or_eq_false_iff]
    constructor
    · rw [List.any_eq_false]
      intro r hr
      have := List.all_eq_true.mp ho1 r hr
      simpa using this
    · rw [List.any_eq_false]
      intro r hr
      have := List.all_eq_true.mp ho2 r hr
      simpa using this
  unfold State.issueOne
  rw [hp]
  simp only [hready, hn, Bool.not_true, Bool.false_eq_true, if_false]
  generalize hlen : (if p.ext = 0 then 1 else 2) = len at hu ⊢
  have hiss : p.issue len s c = .go u := by rw [Piece.issue_of_sound hpi ho3, hu]
  unfold State.runBundle
  simp only [List.find?_cons, hwait, List.find?_nil, List.map_cons, List.map_nil, hiss, pickHold, pickIssue, List.findSome?_cons,
    List.findSome?_nil, Issue.holds, Issue.holdsInD, Issue.faults, Issue.arrives, Option.map_none, Option.orElse, List.any_cons, List.any_nil, Bool.or_false]
  have hret : s.retireBundle c [(p, Issue.go u)] len (p.jumps (s.core c)) =
      (u (s.updCore c (fun k => k.advance len (p.jumps (s.core c))))).updCore c (fun k => k.noteSyl p) := rfl
  rw [← hret]
  unfold Core.loopOk at hl
  cases hj : p.jumps (s.core c) with
  | true => simp
  | false =>
    simp only [Bool.false_eq_true, if_false]
    cases hls : (s.core c).loopStep.2 with
    | none => rfl
    | some t =>
      rw [hls] at hl
      simp only [hl, if_true]

/-- The piece that an encoding without an extension gives. -/
theorem pieceOf_of_encode {i : Instr} {n b : Nat} (he : encodeSyl i = some (n, b, none)) :
    ∃ w : W32, pieceOf i = some { i := if i.wf then some i else none, slot := n, syl := w, ext := 0 } := by
  unfold pieceOf
  rw [he]
  exact ⟨_, rfl⟩

/-- The piece that an encoding with an extension gives. -/
theorem pieceOf_of_encode_ext {i : Instr} {n b y : Nat} (he : encodeSyl i = some (n, b, some y)) (hy : y < 2 ^ 28) :
    ∃ w e : W32, e ≠ 0 ∧ pieceOf i = some { i := if i.wf then some i else none, slot := n, syl := w, ext := e } := by
  unfold pieceOf
  rw [he]
  refine ⟨_, BitVec.ofNat 32 (y + 5 * 2 ^ 28 + 2 ^ 31), ?_, rfl⟩
  intro h
  have := congrArg BitVec.toNat h
  rw [BitVec.toNat_ofNat, Nat.mod_eq_of_lt (by omega)] at this
  simp at this

theorem Core.noteSyl_scalar (k : Core) {p : Piece} (h : p.slot < 5) : k.noteSyl p = k := by
  unfold Core.noteSyl
  have h5 : p.slot ≠ 5 := by omega
  have h6 : p.slot ≠ 6 := by omega
  have h7 : p.slot ≠ 7 := by omega
  simp [h5, h6, h7]

/-- A scalar instruction that changes only its core (R132). j: it sets the next bundle's address itself. -/
theorem issueOne_scalar {s : State} {c : CoreId} {i : Instr} {n b : Nat} {f : Core → Core} {u : State → State} (j : Bool)
    (ht : s.takes c i = true) (he : encodeSyl i = some (n, b, none)) (hn : n < 5)
    (hj : ({ i := some i, slot := n, syl := 0, ext := 0 } : Piece).jumps (s.core c) = j)
    (hu : issueOf i 1 s = .go u) (hf : ∀ s' : State, u s' = s'.updCore c f) : s.issueOne c i = s.updCore c (fun k => f (k.advance 1 j)) := by
  have hw := (State.takes_parts ht).2.1
  obtain ⟨w, hp⟩ := pieceOf_of_encode he
  simp only [hw, if_true] at hp
  rw [issueOne_go ht hp (u := u) (by simp only [if_true]; exact hu), hf]
  simp only [if_true, State.updCore_updCore]
  congr 1
  funext k
  rw [Core.noteSyl_scalar _ hn, ← hj]
  rfl

theorem issueOne_retired {s : State} {c : CoreId} {i : Instr} {n b : Nat} {f : Core → Core} {u : State → State}
    (ht : s.takes c i = true) (he : encodeSyl i = some (n, b, none)) (hn : n < 5)
    (hj : ({ i := some i, slot := n, syl := 0, ext := 0 } : Piece).jumps (s.core c) = false)
    (hu : issueOf i 1 s = .go u) (hf : ∀ s' : State, u s' = s'.updCore c f) : s.issueOne c i = s.retired c i f := by
  rw [issueOne_scalar false ht he hn hj hu hf]
  have : syllablesOf i = 1 := by unfold syllablesOf; rw [he]
  rw [State.retired, this]

theorem issueOne_jumped {s : State} {c : CoreId} {i : Instr} {n b : Nat} {f : Core → Core} {u : State → State}
    (ht : s.takes c i = true) (he : encodeSyl i = some (n, b, none)) (hn : n < 5)
    (hj : ({ i := some i, slot := n, syl := 0, ext := 0 } : Piece).jumps (s.core c) = true)
    (hu : issueOf i 1 s = .go u) (hf : ∀ s' : State, u s' = s'.updCore c f) : s.issueOne c i = s.jumped c i f := by
  rw [issueOne_scalar true ht he hn hj hu hf]
  have : syllablesOf i = 1 := by unfold syllablesOf; rw [he]
  rw [State.jumped, this]

/-- R132: an instruction whose checks fail makes its bundle fault; nothing else changes. -/
theorem issueOne_fault {s : State} {c : CoreId} {i : Instr} {n b : Nat} {code : BitVec 16} {addr : W64}
    (ht : s.takes c i = true) (he : encodeSyl i = some (n, b, none)) (hu : issueOf i 1 s = .fault code addr)
    (hc : ¬(0x7010 ≤ code.toNat ∧ code.toNat ≤ 0x703F)) : s.faulted (s.issueOne c i) c code addr := by
  obtain ⟨hf, hw, hn, ho, hl⟩ := State.takes_parts ht
  obtain ⟨w, hp⟩ := pieceOf_of_encode he
  simp only [hw, if_true] at hp
  simp only [Core.hasOperands, Bool.and_eq_true] at ho
  obtain ⟨⟨ho1, ho2⟩, ho3⟩ := ho
  simp only [State.coreFree, Bool.and_eq_true] at hf
  obtain ⟨⟨hf1, hf2⟩, hf3⟩ := hf
  generalize hq : ({ i := some i, slot := n, syl := w, ext := 0 } : Piece) = p at hp
  have hpi : p.i = some i := by rw [← hq]
  have hpe : p.ext = 0 := by rw [← hq]
  have hready : (s.core c).ready [p] = true := by
    unfold Core.ready
    rw [hf1, hf2]
    cases hh : (s.core c).held with
    | none => rfl
    | some x => rw [hh] at hf3; cases hf3
  have hwait : p.waits (s.core c) = false := by
    unfold Piece.waits
    rw [hpi]
    simp only [Bool.or_eq_false_iff]
    constructor
    · rw [List.any_eq_false]
      intro r hr
      have := List.all_eq_true.mp ho1 r hr
      simpa using this
    · rw [List.any_eq_false]
      intro r hr
      have := List.all_eq_true.mp ho2 r hr
      simpa using this
  unfold State.issueOne
  rw [hp]
  simp only [hready, hn, Bool.not_true, Bool.false_eq_true, if_false, hpe, if_true]
  have hiss : p.issue 1 s c = .fault code addr := by rw [Piece.issue_of_sound hpi ho3, hu]
  unfold State.runBundle
  simp only [List.find?_cons, hwait, List.find?_nil, List.map_cons, List.map_nil, hiss, pickHold, pickIssue, List.findSome?_cons,
    List.findSome?_nil, Issue.holds, Issue.holdsInD, Issue.faults, Option.map_none, Option.orElse, Option.map_some]
  unfold State.faultBundle
  rw [if_neg hc]
  exact ⟨_, rfl, rfl, rfl, rfl⟩

end Sys2Proof.Machine
end

