-- ==== Sys2Proof/Laws/Map.lean ====
section
/-! SUPPORT. The laws of sparse data: a read after a write, and that every operation keeps the canonical form. -/

namespace Sys2Proof.Machine

variable {α : Type}

/-- Reading skips the entries of other keys. -/
theorem find_filter_ne (m : SMap α) {k i : Nat} (h : i ≠ k) :
    (m.filter (fun x => x.1 != k)).find? (fun x => x.1 == i) = m.find? (fun x => x.1 == i) := by
  induction m with
  | nil => rfl
  | cons x r ih =>
    by_cases hx : x.1 = k
    · have hi : (x.1 == i) = false := by simp [hx, Ne.symm h]
      rw [List.filter_cons_of_neg (by simp [hx]), ih, List.find?_cons, hi]
    · simp [List.filter_cons, hx, List.find?_cons, ih]

/-- Where no entry has key k, the inserted pair is what key k reads. -/
theorem find_minsert (m : SMap α) (k i : Nat) (v : α) (h : ∀ x ∈ m, x.1 ≠ k) :
    (minsert k v m).find? (fun x => x.1 == i) = if i = k then some (k, v) else m.find? (fun x => x.1 == i) := by
  induction m with
  | nil => by_cases e : i = k <;> simp [minsert, e, Ne.symm]
  | cons x r ih =>
    have hx := h x (by simp)
    have hr := ih (fun y hy => h y (by simp [hy]))
    unfold minsert
    by_cases e : i = k
    · subst e
      split
      · simp
      · simp [List.find?_cons, hx, hr]
    · have e' : (k == i) = false := by simp [Ne.symm e]
      split
      · simp [List.find?_cons, e', e]
      · simp only [List.find?_cons, hr, if_neg e]

/-- A write is what its key reads afterwards, and every other key reads as before. -/
theorem mget_mset [DecidableEq α] (d : Nat → α) (m : SMap α) (k i : Nat) (v : α) :
    mget d (mset d m k v) i = if i = k then v else mget d m i := by
  have hk : ∀ x ∈ m.filter (fun x => x.1 != k), x.1 ≠ k := by
    intro x hx; simpa using (List.mem_filter.mp hx).2
  unfold mget mset
  by_cases hv : v = d k
  · simp only [if_pos hv]
    by_cases e : i = k
    · subst e
      have : (m.filter (fun x => x.1 != i)).find? (fun x => x.1 == i) = none := by
        rw [List.find?_eq_none]; intro x hx; simpa using hk x hx
      simp [this, hv]
    · simp [find_filter_ne m e, e]
  · simp only [if_neg hv, find_minsert _ _ _ _ hk]
    by_cases e : i = k
    · simp [e]
    · simp [e, find_filter_ne m e]

@[simp] theorem mget_mset_self [DecidableEq α] (d : Nat → α) (m : SMap α) (k : Nat) (v : α) : mget d (mset d m k v) k = v := by
  simp [mget_mset]

theorem mget_mset_ne [DecidableEq α] (d : Nat → α) (m : SMap α) {k i : Nat} (v : α) (h : i ≠ k) :
    mget d (mset d m k v) i = mget d m i := by simp [mget_mset, h]

/-! ## The canonical form -/

variable [DecidableEq α]

theorem mwf_cons {d : Nat → α} {x : Nat × α} {r : SMap α} :
    mwf d (x :: r) = true ↔ x.2 ≠ d x.1 ∧ (∀ y ∈ r, x.1 < y.1) ∧ mwf d r = true := by
  simp [mwf, and_assoc]

theorem mwf_filter {d : Nat → α} {m : SMap α} (p : Nat × α → Bool) (h : mwf d m = true) : mwf d (m.filter p) = true := by
  induction m with
  | nil => exact h
  | cons x r ih =>
    obtain ⟨h1, h2, h3⟩ := mwf_cons.mp h
    by_cases hp : p x = true
    · rw [List.filter_cons_of_pos hp, mwf_cons]
      exact ⟨h1, fun y hy => h2 y (List.mem_filter.mp hy).1, ih h3⟩
    · rw [List.filter_cons_of_neg hp]
      exact ih h3

omit [DecidableEq α] in
theorem mem_minsert {k : Nat} {v : α} {m : SMap α} {y : Nat × α} (h : y ∈ minsert k v m) : y = (k, v) ∨ y ∈ m := by
  induction m with
  | nil => exact .inl (by simpa [minsert] using h)
  | cons x r ih =>
    unfold minsert at h
    split at h
    · simpa using h
    · rcases List.mem_cons.mp h with e | h
      · exact .inr (by simp [e])
      · rcases ih h with e | h
        · exact .inl e
        · exact .inr (by simp [h])

theorem mwf_minsert {d : Nat → α} {m : SMap α} {k : Nat} {v : α} (h : mwf d m = true) (hv : v ≠ d k) (hk : ∀ x ∈ m, x.1 ≠ k) :
    mwf d (minsert k v m) = true := by
  induction m with
  | nil => rw [minsert, mwf_cons]; exact ⟨hv, by simp, rfl⟩
  | cons x r ih =>
    obtain ⟨h1, h2, h3⟩ := mwf_cons.mp h
    unfold minsert
    split
    · rename_i hlt
      rw [mwf_cons]
      refine ⟨hv, ?_, h⟩
      intro y hy
      rcases List.mem_cons.mp hy with e | hy
      · rw [e]; exact hlt
      · exact Nat.lt_trans hlt (h2 y hy)
    · rename_i hge
      have hx : x.1 < k := by have := hk x (by simp); omega
      rw [mwf_cons]
      refine ⟨h1, ?_, ih h3 (fun y hy => hk y (by simp [hy]))⟩
      intro y hy
      rcases mem_minsert hy with e | hy
      · rw [e]; exact hx
      · exact h2 y hy

theorem mwf_mset {d : Nat → α} {m : SMap α} (k : Nat) (v : α) (h : mwf d m = true) : mwf d (mset d m k v) = true := by
  unfold mset
  split
  · exact mwf_filter _ h
  · exact mwf_minsert (mwf_filter _ h) (by assumption) (fun x hx => by simpa using (List.mem_filter.mp hx).2)

theorem mwf_mdrop {d : Nat → α} {m : SMap α} (p : Nat → Bool) (h : mwf d m = true) : mwf d (mdrop p m) = true := mwf_filter _ h

/-- A run of writes keeps the canonical form. -/
theorem mwf_foldl_mset {d : Nat → α} {β : Type} (l : List β) (key : β → Nat) (val : SMap α → β → α) (m : SMap α) (h : mwf d m = true) :
    mwf d (l.foldl (fun m x => mset d m (key x) (val m x)) m) = true := by
  induction l generalizing m with
  | nil => exact h
  | cons x r ih => exact ih _ (mwf_mset _ _ h)

theorem mwf_writeBytes {d : Nat → Byte} (l : List Byte) (m : SMap Byte) (a : Nat) (h : mwf d m = true) :
    mwf d (writeBytes d m a l) = true := by
  induction l generalizing m a with
  | nil => exact h
  | cons b r ih => exact ih _ _ (mwf_mset _ _ h)

omit [DecidableEq α] in
/-- The key an operation drops reads as an unlisted key does. -/
theorem mget_mdrop (d : Nat → α) (p : Nat → Bool) (m : SMap α) (i : Nat) :
    mget d (mdrop p m) i = if p i then d i else mget d m i := by
  unfold mget mdrop
  induction m with
  | nil => simp
  | cons x r ih =>
    by_cases hp : p x.1 = true
    · rw [List.filter_cons_of_neg (by simp [hp]), ih, List.find?_cons]
      by_cases e : x.1 = i
      · rw [← e]; simp [hp]
      · have e' : (x.1 == i) = false := by simp [e]
        rw [e']
    · rw [List.filter_cons_of_pos (by simp [hp]), List.find?_cons, List.find?_cons]
      by_cases e : x.1 = i
      · rw [← e]; simp [hp]
      · have e' : (x.1 == i) = false := by simp [e]
        rw [e']; exact ih

/-- Bytes written from address a up are what those addresses read; every other address reads as before. -/
theorem mget_writeBytes (d : Nat → Byte) (l : List Byte) (m : SMap Byte) (a i : Nat) :
    mget d (writeBytes d m a l) i = if h : a ≤ i ∧ i < a + l.length then l[i - a]'(by omega) else mget d m i := by
  induction l generalizing m a with
  | nil => simp [writeBytes] <;> omega
  | cons b r ih =>
    rw [writeBytes, ih, mget_mset]
    by_cases h1 : i = a
    · subst h1; simp <;> omega
    · by_cases h2 : a + 1 ≤ i ∧ i < a + 1 + r.length
      · have h3 : a ≤ i ∧ i < a + (b :: r).length := by simp; omega
        rw [dif_pos h2, dif_pos h3]
        have : i - a = (i - (a + 1)) + 1 := by omega
        simp [this]
      · have h3 : ¬(a ≤ i ∧ i < a + (b :: r).length) := by simp; omega
        rw [dif_neg h2, dif_neg h3, if_neg h1]

/-- What was written is read back. -/
theorem readBytes_writeBytes (d : Nat → Byte) (l : List Byte) (m : SMap Byte) (a : Nat) :
    readBytes d (writeBytes d m a l) a l.length = l := by
  apply List.ext_getElem
  · simp [readBytes]
  · intro i h1 h2
    simp [readBytes, mget_writeBytes, h2]

end Sys2Proof.Machine
end

