-- ==== Sys2Proof/Laws/State.lean ====
section
/-! SUPPORT. What each update of the state leaves as it was, one lemma per field, and what a field that it writes reads afterwards. -/

namespace Sys2Proof.Machine

/-! ## The parts of the package -/

section
variable (s : State) (c : CoreId) (k : Core)
@[simp] theorem State.setCore_pending : (s.setCore c k).pending = s.pending := rfl
@[simp] theorem State.setCore_clusters : (s.setCore c k).clusters = s.clusters := rfl
@[simp] theorem State.setCore_regions : (s.setCore c k).regions = s.regions := rfl
@[simp] theorem State.setCore_dies : (s.setCore c k).dies = s.dies := rfl
@[simp] theorem State.setCore_mem : (s.setCore c k).mem = s.mem := rfl
@[simp] theorem State.setCore_memTags : (s.setCore c k).memTags = s.memTags := rfl
@[simp] theorem State.setCore_memPoison : (s.setCore c k).memPoison = s.memPoison := rfl
@[simp] theorem State.setCore_hostMem : (s.setCore c k).hostMem = s.hostMem := rfl
@[simp] theorem State.setCore_memReady : (s.setCore c k).memReady = s.memReady := rfl
@[simp] theorem State.setCore_tracker : (s.setCore c k).tracker = s.tracker := rfl
@[simp] theorem State.setCore_invQ : (s.setCore c k).invQ = s.invQ := rfl
@[simp] theorem State.setCore_invRun : (s.setCore c k).invRun = s.invRun := rfl
@[simp] theorem State.setCore_invGot : (s.setCore c k).invGot = s.invGot := rfl
@[simp] theorem State.setCore_invAck : (s.setCore c k).invAck = s.invAck := rfl
@[simp] theorem State.setCore_invTimed : (s.setCore c k).invTimed = s.invTimed := rfl
@[simp] theorem State.setCore_winDrain : (s.setCore c k).winDrain = s.winDrain := rfl
@[simp] theorem State.setCore_answer : (s.setCore c k).answer = s.answer := rfl
@[simp] theorem State.setCore_commitSeq : (s.setCore c k).commitSeq = s.commitSeq := rfl
@[simp] theorem State.setCore_straps : (s.setCore c k).straps = s.straps := rfl
@[simp] theorem State.setCore_ports : (s.setCore c k).ports = s.ports := rfl
@[simp] theorem State.setCore_sendChs : (s.setCore c k).sendChs = s.sendChs := rfl
@[simp] theorem State.setCore_recvChs : (s.setCore c k).recvChs = s.recvChs := rfl
@[simp] theorem State.setCore_barArr : (s.setCore c k).barArr = s.barArr := rfl
@[simp] theorem State.setCore_barSent : (s.setCore c k).barSent = s.barSent := rfl
@[simp] theorem State.setCore_rs : (s.setCore c k).rs = s.rs := rfl
@[simp] theorem State.setCore_bar : (s.setCore c k).bar = s.bar := rfl
@[simp] theorem State.setCore_mbReq : (s.setCore c k).mbReq = s.mbReq := rfl
@[simp] theorem State.setCore_mbRsp : (s.setCore c k).mbRsp = s.mbRsp := rfl
@[simp] theorem State.setCore_journal : (s.setCore c k).journal = s.journal := rfl
@[simp] theorem State.setCore_crs : (s.setCore c k).crs = s.crs := rfl
@[simp] theorem State.setCore_cxl : (s.setCore c k).cxl = s.cxl := rfl
@[simp] theorem State.setCore_dvsec : (s.setCore c k).dvsec = s.dvsec := rfl
@[simp] theorem State.setCore_config : (s.setCore c k).config = s.config := rfl
@[simp] theorem State.setCore_biSnps : (s.setCore c k).biSnps = s.biSnps := rfl
@[simp] theorem State.setCore_homeWait : (s.setCore c k).homeWait = s.homeWait := rfl
@[simp] theorem State.setCore_trust : (s.setCore c k).trust = s.trust := rfl
@[simp] theorem State.setCore_pwr : (s.setCore c k).pwr = s.pwr := rfl
@[simp] theorem State.setCore_frWait : (s.setCore c k).frWait = s.frWait := rfl
@[simp] theorem State.setCore_erWait : (s.setCore c k).erWait = s.erWait := rfl
@[simp] theorem State.setCore_freeCtr : (s.setCore c k).freeCtr = s.freeCtr := rfl
end

section
variable (s : State) (c : CoreId) (f : Core → Core)
@[simp] theorem State.updCore_pending : (s.updCore c f).pending = s.pending := rfl
@[simp] theorem State.updCore_clusters : (s.updCore c f).clusters = s.clusters := rfl
@[simp] theorem State.updCore_regions : (s.updCore c f).regions = s.regions := rfl
@[simp] theorem State.updCore_dies : (s.updCore c f).dies = s.dies := rfl
@[simp] theorem State.updCore_mem : (s.updCore c f).mem = s.mem := rfl
@[simp] theorem State.updCore_memTags : (s.updCore c f).memTags = s.memTags := rfl
@[simp] theorem State.updCore_memPoison : (s.updCore c f).memPoison = s.memPoison := rfl
@[simp] theorem State.updCore_hostMem : (s.updCore c f).hostMem = s.hostMem := rfl
@[simp] theorem State.updCore_memReady : (s.updCore c f).memReady = s.memReady := rfl
@[simp] theorem State.updCore_tracker : (s.updCore c f).tracker = s.tracker := rfl
@[simp] theorem State.updCore_invQ : (s.updCore c f).invQ = s.invQ := rfl
@[simp] theorem State.updCore_invRun : (s.updCore c f).invRun = s.invRun := rfl
@[simp] theorem State.updCore_invGot : (s.updCore c f).invGot = s.invGot := rfl
@[simp] theorem State.updCore_invAck : (s.updCore c f).invAck = s.invAck := rfl
@[simp] theorem State.updCore_invTimed : (s.updCore c f).invTimed = s.invTimed := rfl
@[simp] theorem State.updCore_winDrain : (s.updCore c f).winDrain = s.winDrain := rfl
@[simp] theorem State.updCore_answer : (s.updCore c f).answer = s.answer := rfl
@[simp] theorem State.updCore_commitSeq : (s.updCore c f).commitSeq = s.commitSeq := rfl
@[simp] theorem State.updCore_straps : (s.updCore c f).straps = s.straps := rfl
@[simp] theorem State.updCore_ports : (s.updCore c f).ports = s.ports := rfl
@[simp] theorem State.updCore_sendChs : (s.updCore c f).sendChs = s.sendChs := rfl
@[simp] theorem State.updCore_recvChs : (s.updCore c f).recvChs = s.recvChs := rfl
@[simp] theorem State.updCore_barArr : (s.updCore c f).barArr = s.barArr := rfl
@[simp] theorem State.updCore_barSent : (s.updCore c f).barSent = s.barSent := rfl
@[simp] theorem State.updCore_rs : (s.updCore c f).rs = s.rs := rfl
@[simp] theorem State.updCore_bar : (s.updCore c f).bar = s.bar := rfl
@[simp] theorem State.updCore_mbReq : (s.updCore c f).mbReq = s.mbReq := rfl
@[simp] theorem State.updCore_mbRsp : (s.updCore c f).mbRsp = s.mbRsp := rfl
@[simp] theorem State.updCore_journal : (s.updCore c f).journal = s.journal := rfl
@[simp] theorem State.updCore_crs : (s.updCore c f).crs = s.crs := rfl
@[simp] theorem State.updCore_cxl : (s.updCore c f).cxl = s.cxl := rfl
@[simp] theorem State.updCore_dvsec : (s.updCore c f).dvsec = s.dvsec := rfl
@[simp] theorem State.updCore_config : (s.updCore c f).config = s.config := rfl
@[simp] theorem State.updCore_biSnps : (s.updCore c f).biSnps = s.biSnps := rfl
@[simp] theorem State.updCore_homeWait : (s.updCore c f).homeWait = s.homeWait := rfl
@[simp] theorem State.updCore_trust : (s.updCore c f).trust = s.trust := rfl
@[simp] theorem State.updCore_pwr : (s.updCore c f).pwr = s.pwr := rfl
@[simp] theorem State.updCore_frWait : (s.updCore c f).frWait = s.frWait := rfl
@[simp] theorem State.updCore_erWait : (s.updCore c f).erWait = s.erWait := rfl
@[simp] theorem State.updCore_freeCtr : (s.updCore c f).freeCtr = s.freeCtr := rfl
end

section
variable (s : State) (c : ClusterId) (f : Cluster → Cluster)
@[simp] theorem State.updCluster_pending : (s.updCluster c f).pending = s.pending := rfl
@[simp] theorem State.updCluster_cores : (s.updCluster c f).cores = s.cores := rfl
@[simp] theorem State.updCluster_regions : (s.updCluster c f).regions = s.regions := rfl
@[simp] theorem State.updCluster_dies : (s.updCluster c f).dies = s.dies := rfl
@[simp] theorem State.updCluster_mem : (s.updCluster c f).mem = s.mem := rfl
@[simp] theorem State.updCluster_memTags : (s.updCluster c f).memTags = s.memTags := rfl
@[simp] theorem State.updCluster_memPoison : (s.updCluster c f).memPoison = s.memPoison := rfl
@[simp] theorem State.updCluster_hostMem : (s.updCluster c f).hostMem = s.hostMem := rfl
@[simp] theorem State.updCluster_memReady : (s.updCluster c f).memReady = s.memReady := rfl
@[simp] theorem State.updCluster_tracker : (s.updCluster c f).tracker = s.tracker := rfl
@[simp] theorem State.updCluster_invQ : (s.updCluster c f).invQ = s.invQ := rfl
@[simp] theorem State.updCluster_invRun : (s.updCluster c f).invRun = s.invRun := rfl
@[simp] theorem State.updCluster_invGot : (s.updCluster c f).invGot = s.invGot := rfl
@[simp] theorem State.updCluster_invAck : (s.updCluster c f).invAck = s.invAck := rfl
@[simp] theorem State.updCluster_invTimed : (s.updCluster c f).invTimed = s.invTimed := rfl
@[simp] theorem State.updCluster_winDrain : (s.updCluster c f).winDrain = s.winDrain := rfl
@[simp] theorem State.updCluster_answer : (s.updCluster c f).answer = s.answer := rfl
@[simp] theorem State.updCluster_commitSeq : (s.updCluster c f).commitSeq = s.commitSeq := rfl
@[simp] theorem State.updCluster_straps : (s.updCluster c f).straps = s.straps := rfl
@[simp] theorem State.updCluster_ports : (s.updCluster c f).ports = s.ports := rfl
@[simp] theorem State.updCluster_sendChs : (s.updCluster c f).sendChs = s.sendChs := rfl
@[simp] theorem State.updCluster_recvChs : (s.updCluster c f).recvChs = s.recvChs := rfl
@[simp] theorem State.updCluster_barArr : (s.updCluster c f).barArr = s.barArr := rfl
@[simp] theorem State.updCluster_barSent : (s.updCluster c f).barSent = s.barSent := rfl
@[simp] theorem State.updCluster_rs : (s.updCluster c f).rs = s.rs := rfl
@[simp] theorem State.updCluster_bar : (s.updCluster c f).bar = s.bar := rfl
@[simp] theorem State.updCluster_mbReq : (s.updCluster c f).mbReq = s.mbReq := rfl
@[simp] theorem State.updCluster_mbRsp : (s.updCluster c f).mbRsp = s.mbRsp := rfl
@[simp] theorem State.updCluster_journal : (s.updCluster c f).journal = s.journal := rfl
@[simp] theorem State.updCluster_crs : (s.updCluster c f).crs = s.crs := rfl
@[simp] theorem State.updCluster_cxl : (s.updCluster c f).cxl = s.cxl := rfl
@[simp] theorem State.updCluster_dvsec : (s.updCluster c f).dvsec = s.dvsec := rfl
@[simp] theorem State.updCluster_config : (s.updCluster c f).config = s.config := rfl
@[simp] theorem State.updCluster_biSnps : (s.updCluster c f).biSnps = s.biSnps := rfl
@[simp] theorem State.updCluster_homeWait : (s.updCluster c f).homeWait = s.homeWait := rfl
@[simp] theorem State.updCluster_trust : (s.updCluster c f).trust = s.trust := rfl
@[simp] theorem State.updCluster_pwr : (s.updCluster c f).pwr = s.pwr := rfl
@[simp] theorem State.updCluster_frWait : (s.updCluster c f).frWait = s.frWait := rfl
@[simp] theorem State.updCluster_erWait : (s.updCluster c f).erWait = s.erWait := rfl
@[simp] theorem State.updCluster_freeCtr : (s.updCluster c f).freeCtr = s.freeCtr := rfl
end

section
variable (s : State) (r : RegionId) (f : Region → Region)
@[simp] theorem State.updRegion_pending : (s.updRegion r f).pending = s.pending := rfl
@[simp] theorem State.updRegion_cores : (s.updRegion r f).cores = s.cores := rfl
@[simp] theorem State.updRegion_clusters : (s.updRegion r f).clusters = s.clusters := rfl
@[simp] theorem State.updRegion_dies : (s.updRegion r f).dies = s.dies := rfl
@[simp] theorem State.updRegion_mem : (s.updRegion r f).mem = s.mem := rfl
@[simp] theorem State.updRegion_memTags : (s.updRegion r f).memTags = s.memTags := rfl
@[simp] theorem State.updRegion_memPoison : (s.updRegion r f).memPoison = s.memPoison := rfl
@[simp] theorem State.updRegion_hostMem : (s.updRegion r f).hostMem = s.hostMem := rfl
@[simp] theorem State.updRegion_memReady : (s.updRegion r f).memReady = s.memReady := rfl
@[simp] theorem State.updRegion_tracker : (s.updRegion r f).tracker = s.tracker := rfl
@[simp] theorem State.updRegion_invQ : (s.updRegion r f).invQ = s.invQ := rfl
@[simp] theorem State.updRegion_invRun : (s.updRegion r f).invRun = s.invRun := rfl
@[simp] theorem State.updRegion_invGot : (s.updRegion r f).invGot = s.invGot := rfl
@[simp] theorem State.updRegion_invAck : (s.updRegion r f).invAck = s.invAck := rfl
@[simp] theorem State.updRegion_invTimed : (s.updRegion r f).invTimed = s.invTimed := rfl
@[simp] theorem State.updRegion_winDrain : (s.updRegion r f).winDrain = s.winDrain := rfl
@[simp] theorem State.updRegion_answer : (s.updRegion r f).answer = s.answer := rfl
@[simp] theorem State.updRegion_commitSeq : (s.updRegion r f).commitSeq = s.commitSeq := rfl
@[simp] theorem State.updRegion_straps : (s.updRegion r f).straps = s.straps := rfl
@[simp] theorem State.updRegion_ports : (s.updRegion r f).ports = s.ports := rfl
@[simp] theorem State.updRegion_sendChs : (s.updRegion r f).sendChs = s.sendChs := rfl
@[simp] theorem State.updRegion_recvChs : (s.updRegion r f).recvChs = s.recvChs := rfl
@[simp] theorem State.updRegion_barArr : (s.updRegion r f).barArr = s.barArr := rfl
@[simp] theorem State.updRegion_barSent : (s.updRegion r f).barSent = s.barSent := rfl
@[simp] theorem State.updRegion_rs : (s.updRegion r f).rs = s.rs := rfl
@[simp] theorem State.updRegion_bar : (s.updRegion r f).bar = s.bar := rfl
@[simp] theorem State.updRegion_mbReq : (s.updRegion r f).mbReq = s.mbReq := rfl
@[simp] theorem State.updRegion_mbRsp : (s.updRegion r f).mbRsp = s.mbRsp := rfl
@[simp] theorem State.updRegion_journal : (s.updRegion r f).journal = s.journal := rfl
@[simp] theorem State.updRegion_crs : (s.updRegion r f).crs = s.crs := rfl
@[simp] theorem State.updRegion_cxl : (s.updRegion r f).cxl = s.cxl := rfl
@[simp] theorem State.updRegion_dvsec : (s.updRegion r f).dvsec = s.dvsec := rfl
@[simp] theorem State.updRegion_config : (s.updRegion r f).config = s.config := rfl
@[simp] theorem State.updRegion_biSnps : (s.updRegion r f).biSnps = s.biSnps := rfl
@[simp] theorem State.updRegion_homeWait : (s.updRegion r f).homeWait = s.homeWait := rfl
@[simp] theorem State.updRegion_trust : (s.updRegion r f).trust = s.trust := rfl
@[simp] theorem State.updRegion_pwr : (s.updRegion r f).pwr = s.pwr := rfl
@[simp] theorem State.updRegion_frWait : (s.updRegion r f).frWait = s.frWait := rfl
@[simp] theorem State.updRegion_erWait : (s.updRegion r f).erWait = s.erWait := rfl
@[simp] theorem State.updRegion_freeCtr : (s.updRegion r f).freeCtr = s.freeCtr := rfl
end

section
variable (s : State) (d : DieId) (f : Die → Die)
@[simp] theorem State.updDie_pending : (s.updDie d f).pending = s.pending := rfl
@[simp] theorem State.updDie_cores : (s.updDie d f).cores = s.cores := rfl
@[simp] theorem State.updDie_clusters : (s.updDie d f).clusters = s.clusters := rfl
@[simp] theorem State.updDie_regions : (s.updDie d f).regions = s.regions := rfl
@[simp] theorem State.updDie_mem : (s.updDie d f).mem = s.mem := rfl
@[simp] theorem State.updDie_memTags : (s.updDie d f).memTags = s.memTags := rfl
@[simp] theorem State.updDie_memPoison : (s.updDie d f).memPoison = s.memPoison := rfl
@[simp] theorem State.updDie_hostMem : (s.updDie d f).hostMem = s.hostMem := rfl
@[simp] theorem State.updDie_memReady : (s.updDie d f).memReady = s.memReady := rfl
@[simp] theorem State.updDie_tracker : (s.updDie d f).tracker = s.tracker := rfl
@[simp] theorem State.updDie_invQ : (s.updDie d f).invQ = s.invQ := rfl
@[simp] theorem State.updDie_invRun : (s.updDie d f).invRun = s.invRun := rfl
@[simp] theorem State.updDie_invGot : (s.updDie d f).invGot = s.invGot := rfl
@[simp] theorem State.updDie_invAck : (s.updDie d f).invAck = s.invAck := rfl
@[simp] theorem State.updDie_invTimed : (s.updDie d f).invTimed = s.invTimed := rfl
@[simp] theorem State.updDie_winDrain : (s.updDie d f).winDrain = s.winDrain := rfl
@[simp] theorem State.updDie_answer : (s.updDie d f).answer = s.answer := rfl
@[simp] theorem State.updDie_commitSeq : (s.updDie d f).commitSeq = s.commitSeq := rfl
@[simp] theorem State.updDie_straps : (s.updDie d f).straps = s.straps := rfl
@[simp] theorem State.updDie_ports : (s.updDie d f).ports = s.ports := rfl
@[simp] theorem State.updDie_sendChs : (s.updDie d f).sendChs = s.sendChs := rfl
@[simp] theorem State.updDie_recvChs : (s.updDie d f).recvChs = s.recvChs := rfl
@[simp] theorem State.updDie_barArr : (s.updDie d f).barArr = s.barArr := rfl
@[simp] theorem State.updDie_barSent : (s.updDie d f).barSent = s.barSent := rfl
@[simp] theorem State.updDie_rs : (s.updDie d f).rs = s.rs := rfl
@[simp] theorem State.updDie_bar : (s.updDie d f).bar = s.bar := rfl
@[simp] theorem State.updDie_mbReq : (s.updDie d f).mbReq = s.mbReq := rfl
@[simp] theorem State.updDie_mbRsp : (s.updDie d f).mbRsp = s.mbRsp := rfl
@[simp] theorem State.updDie_journal : (s.updDie d f).journal = s.journal := rfl
@[simp] theorem State.updDie_crs : (s.updDie d f).crs = s.crs := rfl
@[simp] theorem State.updDie_cxl : (s.updDie d f).cxl = s.cxl := rfl
@[simp] theorem State.updDie_dvsec : (s.updDie d f).dvsec = s.dvsec := rfl
@[simp] theorem State.updDie_config : (s.updDie d f).config = s.config := rfl
@[simp] theorem State.updDie_biSnps : (s.updDie d f).biSnps = s.biSnps := rfl
@[simp] theorem State.updDie_homeWait : (s.updDie d f).homeWait = s.homeWait := rfl
@[simp] theorem State.updDie_trust : (s.updDie d f).trust = s.trust := rfl
@[simp] theorem State.updDie_pwr : (s.updDie d f).pwr = s.pwr := rfl
@[simp] theorem State.updDie_frWait : (s.updDie d f).frWait = s.frWait := rfl
@[simp] theorem State.updDie_erWait : (s.updDie d f).erWait = s.erWait := rfl
@[simp] theorem State.updDie_freeCtr : (s.updDie d f).freeCtr = s.freeCtr := rfl
end

@[simp] theorem State.cluster_updCluster (s : State) (c : ClusterId) (f : Cluster → Cluster) : (s.updCluster c f).cluster c = f (s.cluster c) := by
  show (Vector.set _ c.val _ c.isLt)[c.val] = _
  simp

theorem State.cluster_updCluster_ne (s : State) {c d : ClusterId} (h : c ≠ d) (f : Cluster → Cluster) : (s.updCluster c f).cluster d = s.cluster d :=
  Vector.getElem_set_ne c.isLt d.isLt (fun e => h (Fin.ext e))

@[simp] theorem State.region_updRegion (s : State) (c : RegionId) (f : Region → Region) : (s.updRegion c f).region c = f (s.region c) := by
  show (Vector.set _ c.val _ c.isLt)[c.val] = _
  simp

theorem State.region_updRegion_ne (s : State) {c d : RegionId} (h : c ≠ d) (f : Region → Region) : (s.updRegion c f).region d = s.region d :=
  Vector.getElem_set_ne c.isLt d.isLt (fun e => h (Fin.ext e))

@[simp] theorem State.die_updDie (s : State) (c : DieId) (f : Die → Die) : (s.updDie c f).die c = f (s.die c) := by
  show (Vector.set _ c.val _ c.isLt)[c.val] = _
  simp

theorem State.die_updDie_ne (s : State) {c d : DieId} (h : c ≠ d) (f : Die → Die) : (s.updDie c f).die d = s.die d :=
  Vector.getElem_set_ne c.isLt d.isLt (fun e => h (Fin.ext e))

@[simp] theorem State.core_updCluster (s : State) (c : ClusterId) (f : Cluster → Cluster) (x : CoreId) : (s.updCluster c f).core x = s.core x := rfl
@[simp] theorem State.core_updRegion (s : State) (r : RegionId) (f : Region → Region) (x : CoreId) : (s.updRegion r f).core x = s.core x := rfl
@[simp] theorem State.core_updDie (s : State) (d : DieId) (f : Die → Die) (x : CoreId) : (s.updDie d f).core x = s.core x := rfl
@[simp] theorem State.cluster_setCore (s : State) (c : CoreId) (k : Core) (x : ClusterId) : (s.setCore c k).cluster x = s.cluster x := rfl
@[simp] theorem State.cluster_updCore (s : State) (c : CoreId) (f : Core → Core) (x : ClusterId) : (s.updCore c f).cluster x = s.cluster x := rfl
@[simp] theorem State.cluster_updRegion (s : State) (r : RegionId) (f : Region → Region) (x : ClusterId) : (s.updRegion r f).cluster x = s.cluster x := rfl
@[simp] theorem State.cluster_updDie (s : State) (d : DieId) (f : Die → Die) (x : ClusterId) : (s.updDie d f).cluster x = s.cluster x := rfl
@[simp] theorem State.region_setCore (s : State) (c : CoreId) (k : Core) (x : RegionId) : (s.setCore c k).region x = s.region x := rfl
@[simp] theorem State.region_updCore (s : State) (c : CoreId) (f : Core → Core) (x : RegionId) : (s.updCore c f).region x = s.region x := rfl
@[simp] theorem State.region_updCluster (s : State) (c : ClusterId) (f : Cluster → Cluster) (x : RegionId) : (s.updCluster c f).region x = s.region x := rfl
@[simp] theorem State.region_updDie (s : State) (d : DieId) (f : Die → Die) (x : RegionId) : (s.updDie d f).region x = s.region x := rfl
@[simp] theorem State.die_setCore (s : State) (c : CoreId) (k : Core) (x : DieId) : (s.setCore c k).die x = s.die x := rfl
@[simp] theorem State.die_updCore (s : State) (c : CoreId) (f : Core → Core) (x : DieId) : (s.updCore c f).die x = s.die x := rfl
@[simp] theorem State.die_updCluster (s : State) (c : ClusterId) (f : Cluster → Cluster) (x : DieId) : (s.updCluster c f).die x = s.die x := rfl
@[simp] theorem State.die_updRegion (s : State) (r : RegionId) (f : Region → Region) (x : DieId) : (s.updRegion r f).die x = s.die x := rfl

/-! ## A core -/

section
variable (k : Core) (off : Nat) (v : W64)
@[simp] theorem Core.setReg_run : (k.setReg off v).run = k.run := rfl
@[simp] theorem Core.setReg_g : (k.setReg off v).g = k.g := rfl
@[simp] theorem Core.setReg_sb : (k.setReg off v).sb = k.sb := rfl
@[simp] theorem Core.setReg_late : (k.setReg off v).late = k.late := rfl
@[simp] theorem Core.setReg_c : (k.setReg off v).c = k.c := rfl
@[simp] theorem Core.setReg_scap : (k.setReg off v).scap = k.scap := rfl
@[simp] theorem Core.setReg_lateLoads : (k.setReg off v).lateLoads = k.lateLoads := rfl
@[simp] theorem Core.setReg_products : (k.setReg off v).products = k.products := rfl
@[simp] theorem Core.setReg_storeBuf : (k.setReg off v).storeBuf = k.storeBuf := rfl
@[simp] theorem Core.setReg_retBuf : (k.setReg off v).retBuf = k.retBuf := rfl
@[simp] theorem Core.setReg_lpLast : (k.setReg off v).lpLast = k.lpLast := rfl
@[simp] theorem Core.setReg_pq : (k.setReg off v).pq = k.pq := rfl
@[simp] theorem Core.setReg_held : (k.setReg off v).held = k.held := rfl
@[simp] theorem Core.setReg_exc : (k.setReg off v).exc = k.exc := rfl
@[simp] theorem Core.setReg_haltReq : (k.setReg off v).haltReq = k.haltReq := rfl
@[simp] theorem Core.setReg_dbgHalt : (k.setReg off v).dbgHalt = k.dbgHalt := rfl
@[simp] theorem Core.setReg_launch : (k.setReg off v).launch = k.launch := rfl
@[simp] theorem Core.setReg_tile : (k.setReg off v).tile = k.tile := rfl
@[simp] theorem Core.setReg_tileTags : (k.setReg off v).tileTags = k.tileTags := rfl
@[simp] theorem Core.setReg_tilePoison : (k.setReg off v).tilePoison = k.tilePoison := rfl
@[simp] theorem Core.setReg_v : (k.setReg off v).v = k.v := rfl
@[simp] theorem Core.setReg_vm : (k.setReg off v).vm = k.vm := rfl
@[simp] theorem Core.setReg_vl : (k.setReg off v).vl = k.vl := rfl
@[simp] theorem Core.setReg_vq : (k.setReg off v).vq = k.vq := rfl
@[simp] theorem Core.setReg_vRnd : (k.setReg off v).vRnd = k.vRnd := rfl
@[simp] theorem Core.setReg_vSat : (k.setReg off v).vSat = k.vSat := rfl
@[simp] theorem Core.setReg_vFit : (k.setReg off v).vFit = k.vFit := rfl
@[simp] theorem Core.setReg_aRnd : (k.setReg off v).aRnd = k.aRnd := rfl
@[simp] theorem Core.setReg_aSat : (k.setReg off v).aSat = k.aSat := rfl
@[simp] theorem Core.setReg_aFit : (k.setReg off v).aFit = k.aFit := rfl
@[simp] theorem Core.setReg_accFull : (k.setReg off v).accFull = k.accFull := rfl
@[simp] theorem Core.setReg_accS : (k.setReg off v).accS = k.accS := rfl
@[simp] theorem Core.setReg_md : (k.setReg off v).md = k.md := rfl
@[simp] theorem Core.setReg_mq : (k.setReg off v).mq = k.mq := rfl
@[simp] theorem Core.setReg_mxSq : (k.setReg off v).mxSq = k.mxSq := rfl
@[simp] theorem Core.setReg_acc : (k.setReg off v).acc = k.acc := rfl
@[simp] theorem Core.setReg_tiles : (k.setReg off v).tiles = k.tiles := rfl
@[simp] theorem Core.setReg_lastStatus : (k.setReg off v).lastStatus = k.lastStatus := rfl
@[simp] theorem Core.setReg_closes : (k.setReg off v).closes = k.closes := rfl
@[simp] theorem Core.setReg_shadows : (k.setReg off v).shadows = k.shadows := rfl
@[simp] theorem Core.setReg_feq : (k.setReg off v).feq = k.feq := rfl
@[simp] theorem Core.setReg_tileQueue : (k.setReg off v).tileQueue = k.tileQueue := rfl
@[simp] theorem Core.setReg_qwait : (k.setReg off v).qwait = k.qwait := rfl
@[simp] theorem Core.setReg_stopped : (k.setReg off v).stopped = k.stopped := rfl
@[simp] theorem Core.setReg_mxReserved : (k.setReg off v).mxReserved = k.mxReserved := rfl
@[simp] theorem Core.setReg_streams : (k.setReg off v).streams = k.streams := rfl
@[simp] theorem Core.setReg_txReqs : (k.setReg off v).txReqs = k.txReqs := rfl
@[simp] theorem Core.setReg_txGen : (k.setReg off v).txGen = k.txGen := rfl
@[simp] theorem Core.setReg_seqHeldV : (k.setReg off v).seqHeldV = k.seqHeldV := rfl
@[simp] theorem Core.setReg_seqHeldM : (k.setReg off v).seqHeldM = k.seqHeldM := rfl
@[simp] theorem Core.setReg_mgPost : (k.setReg off v).mgPost = k.mgPost := rfl
@[simp] theorem Core.setReg_mgRot : (k.setReg off v).mgRot = k.mgRot := rfl
@[simp] theorem Core.setReg_pr : (k.setReg off v).pr = k.pr := rfl
@[simp] theorem Core.setReg_tlb : (k.setReg off v).tlb = k.tlb := rfl
@[simp] theorem Core.setReg_walkCache : (k.setReg off v).walkCache = k.walkCache := rfl
@[simp] theorem Core.setReg_walks : (k.setReg off v).walks = k.walks := rfl
@[simp] theorem Core.setReg_invPend : (k.setReg off v).invPend = k.invPend := rfl
@[simp] theorem Core.setReg_l1i : (k.setReg off v).l1i = k.l1i := rfl
@[simp] theorem Core.setReg_l1d : (k.setReg off v).l1d = k.l1d := rfl
@[simp] theorem Core.setReg_basket : (k.setReg off v).basket = k.basket := rfl
@[simp] theorem Core.setReg_stride : (k.setReg off v).stride = k.stride := rfl
@[simp] theorem Core.setReg_strideCtx : (k.setReg off v).strideCtx = k.strideCtx := rfl
end

section
variable (k : Core) (off hi lo v : Nat)
@[simp] theorem Core.setFld_run : (k.setFld off hi lo v).run = k.run := rfl
@[simp] theorem Core.setFld_g : (k.setFld off hi lo v).g = k.g := rfl
@[simp] theorem Core.setFld_sb : (k.setFld off hi lo v).sb = k.sb := rfl
@[simp] theorem Core.setFld_late : (k.setFld off hi lo v).late = k.late := rfl
@[simp] theorem Core.setFld_c : (k.setFld off hi lo v).c = k.c := rfl
@[simp] theorem Core.setFld_scap : (k.setFld off hi lo v).scap = k.scap := rfl
@[simp] theorem Core.setFld_lateLoads : (k.setFld off hi lo v).lateLoads = k.lateLoads := rfl
@[simp] theorem Core.setFld_products : (k.setFld off hi lo v).products = k.products := rfl
@[simp] theorem Core.setFld_storeBuf : (k.setFld off hi lo v).storeBuf = k.storeBuf := rfl
@[simp] theorem Core.setFld_retBuf : (k.setFld off hi lo v).retBuf = k.retBuf := rfl
@[simp] theorem Core.setFld_lpLast : (k.setFld off hi lo v).lpLast = k.lpLast := rfl
@[simp] theorem Core.setFld_pq : (k.setFld off hi lo v).pq = k.pq := rfl
@[simp] theorem Core.setFld_held : (k.setFld off hi lo v).held = k.held := rfl
@[simp] theorem Core.setFld_exc : (k.setFld off hi lo v).exc = k.exc := rfl
@[simp] theorem Core.setFld_haltReq : (k.setFld off hi lo v).haltReq = k.haltReq := rfl
@[simp] theorem Core.setFld_dbgHalt : (k.setFld off hi lo v).dbgHalt = k.dbgHalt := rfl
@[simp] theorem Core.setFld_launch : (k.setFld off hi lo v).launch = k.launch := rfl
@[simp] theorem Core.setFld_tile : (k.setFld off hi lo v).tile = k.tile := rfl
@[simp] theorem Core.setFld_tileTags : (k.setFld off hi lo v).tileTags = k.tileTags := rfl
@[simp] theorem Core.setFld_tilePoison : (k.setFld off hi lo v).tilePoison = k.tilePoison := rfl
@[simp] theorem Core.setFld_v : (k.setFld off hi lo v).v = k.v := rfl
@[simp] theorem Core.setFld_vm : (k.setFld off hi lo v).vm = k.vm := rfl
@[simp] theorem Core.setFld_vl : (k.setFld off hi lo v).vl = k.vl := rfl
@[simp] theorem Core.setFld_vq : (k.setFld off hi lo v).vq = k.vq := rfl
@[simp] theorem Core.setFld_vRnd : (k.setFld off hi lo v).vRnd = k.vRnd := rfl
@[simp] theorem Core.setFld_vSat : (k.setFld off hi lo v).vSat = k.vSat := rfl
@[simp] theorem Core.setFld_vFit : (k.setFld off hi lo v).vFit = k.vFit := rfl
@[simp] theorem Core.setFld_aRnd : (k.setFld off hi lo v).aRnd = k.aRnd := rfl
@[simp] theorem Core.setFld_aSat : (k.setFld off hi lo v).aSat = k.aSat := rfl
@[simp] theorem Core.setFld_aFit : (k.setFld off hi lo v).aFit = k.aFit := rfl
@[simp] theorem Core.setFld_accFull : (k.setFld off hi lo v).accFull = k.accFull := rfl
@[simp] theorem Core.setFld_accS : (k.setFld off hi lo v).accS = k.accS := rfl
@[simp] theorem Core.setFld_md : (k.setFld off hi lo v).md = k.md := rfl
@[simp] theorem Core.setFld_mq : (k.setFld off hi lo v).mq = k.mq := rfl
@[simp] theorem Core.setFld_mxSq : (k.setFld off hi lo v).mxSq = k.mxSq := rfl
@[simp] theorem Core.setFld_acc : (k.setFld off hi lo v).acc = k.acc := rfl
@[simp] theorem Core.setFld_tiles : (k.setFld off hi lo v).tiles = k.tiles := rfl
@[simp] theorem Core.setFld_lastStatus : (k.setFld off hi lo v).lastStatus = k.lastStatus := rfl
@[simp] theorem Core.setFld_closes : (k.setFld off hi lo v).closes = k.closes := rfl
@[simp] theorem Core.setFld_shadows : (k.setFld off hi lo v).shadows = k.shadows := rfl
@[simp] theorem Core.setFld_feq : (k.setFld off hi lo v).feq = k.feq := rfl
@[simp] theorem Core.setFld_tileQueue : (k.setFld off hi lo v).tileQueue = k.tileQueue := rfl
@[simp] theorem Core.setFld_qwait : (k.setFld off hi lo v).qwait = k.qwait := rfl
@[simp] theorem Core.setFld_stopped : (k.setFld off hi lo v).stopped = k.stopped := rfl
@[simp] theorem Core.setFld_mxReserved : (k.setFld off hi lo v).mxReserved = k.mxReserved := rfl
@[simp] theorem Core.setFld_streams : (k.setFld off hi lo v).streams = k.streams := rfl
@[simp] theorem Core.setFld_txReqs : (k.setFld off hi lo v).txReqs = k.txReqs := rfl
@[simp] theorem Core.setFld_txGen : (k.setFld off hi lo v).txGen = k.txGen := rfl
@[simp] theorem Core.setFld_seqHeldV : (k.setFld off hi lo v).seqHeldV = k.seqHeldV := rfl
@[simp] theorem Core.setFld_seqHeldM : (k.setFld off hi lo v).seqHeldM = k.seqHeldM := rfl
@[simp] theorem Core.setFld_mgPost : (k.setFld off hi lo v).mgPost = k.mgPost := rfl
@[simp] theorem Core.setFld_mgRot : (k.setFld off hi lo v).mgRot = k.mgRot := rfl
@[simp] theorem Core.setFld_pr : (k.setFld off hi lo v).pr = k.pr := rfl
@[simp] theorem Core.setFld_tlb : (k.setFld off hi lo v).tlb = k.tlb := rfl
@[simp] theorem Core.setFld_walkCache : (k.setFld off hi lo v).walkCache = k.walkCache := rfl
@[simp] theorem Core.setFld_walks : (k.setFld off hi lo v).walks = k.walks := rfl
@[simp] theorem Core.setFld_invPend : (k.setFld off hi lo v).invPend = k.invPend := rfl
@[simp] theorem Core.setFld_l1i : (k.setFld off hi lo v).l1i = k.l1i := rfl
@[simp] theorem Core.setFld_l1d : (k.setFld off hi lo v).l1d = k.l1d := rfl
@[simp] theorem Core.setFld_basket : (k.setFld off hi lo v).basket = k.basket := rfl
@[simp] theorem Core.setFld_stride : (k.setFld off hi lo v).stride = k.stride := rfl
@[simp] theorem Core.setFld_strideCtx : (k.setFld off hi lo v).strideCtx = k.strideCtx := rfl
end

section
variable (k : Core) (off hi lo n : Nat)
@[simp] theorem Core.count_run : (k.count off hi lo n).run = k.run := rfl
@[simp] theorem Core.count_g : (k.count off hi lo n).g = k.g := rfl
@[simp] theorem Core.count_sb : (k.count off hi lo n).sb = k.sb := rfl
@[simp] theorem Core.count_late : (k.count off hi lo n).late = k.late := rfl
@[simp] theorem Core.count_c : (k.count off hi lo n).c = k.c := rfl
@[simp] theorem Core.count_scap : (k.count off hi lo n).scap = k.scap := rfl
@[simp] theorem Core.count_lateLoads : (k.count off hi lo n).lateLoads = k.lateLoads := rfl
@[simp] theorem Core.count_products : (k.count off hi lo n).products = k.products := rfl
@[simp] theorem Core.count_storeBuf : (k.count off hi lo n).storeBuf = k.storeBuf := rfl
@[simp] theorem Core.count_retBuf : (k.count off hi lo n).retBuf = k.retBuf := rfl
@[simp] theorem Core.count_lpLast : (k.count off hi lo n).lpLast = k.lpLast := rfl
@[simp] theorem Core.count_pq : (k.count off hi lo n).pq = k.pq := rfl
@[simp] theorem Core.count_held : (k.count off hi lo n).held = k.held := rfl
@[simp] theorem Core.count_exc : (k.count off hi lo n).exc = k.exc := rfl
@[simp] theorem Core.count_haltReq : (k.count off hi lo n).haltReq = k.haltReq := rfl
@[simp] theorem Core.count_dbgHalt : (k.count off hi lo n).dbgHalt = k.dbgHalt := rfl
@[simp] theorem Core.count_launch : (k.count off hi lo n).launch = k.launch := rfl
@[simp] theorem Core.count_tile : (k.count off hi lo n).tile = k.tile := rfl
@[simp] theorem Core.count_tileTags : (k.count off hi lo n).tileTags = k.tileTags := rfl
@[simp] theorem Core.count_tilePoison : (k.count off hi lo n).tilePoison = k.tilePoison := rfl
@[simp] theorem Core.count_v : (k.count off hi lo n).v = k.v := rfl
@[simp] theorem Core.count_vm : (k.count off hi lo n).vm = k.vm := rfl
@[simp] theorem Core.count_vl : (k.count off hi lo n).vl = k.vl := rfl
@[simp] theorem Core.count_vq : (k.count off hi lo n).vq = k.vq := rfl
@[simp] theorem Core.count_vRnd : (k.count off hi lo n).vRnd = k.vRnd := rfl
@[simp] theorem Core.count_vSat : (k.count off hi lo n).vSat = k.vSat := rfl
@[simp] theorem Core.count_vFit : (k.count off hi lo n).vFit = k.vFit := rfl
@[simp] theorem Core.count_aRnd : (k.count off hi lo n).aRnd = k.aRnd := rfl
@[simp] theorem Core.count_aSat : (k.count off hi lo n).aSat = k.aSat := rfl
@[simp] theorem Core.count_aFit : (k.count off hi lo n).aFit = k.aFit := rfl
@[simp] theorem Core.count_accFull : (k.count off hi lo n).accFull = k.accFull := rfl
@[simp] theorem Core.count_accS : (k.count off hi lo n).accS = k.accS := rfl
@[simp] theorem Core.count_md : (k.count off hi lo n).md = k.md := rfl
@[simp] theorem Core.count_mq : (k.count off hi lo n).mq = k.mq := rfl
@[simp] theorem Core.count_mxSq : (k.count off hi lo n).mxSq = k.mxSq := rfl
@[simp] theorem Core.count_acc : (k.count off hi lo n).acc = k.acc := rfl
@[simp] theorem Core.count_tiles : (k.count off hi lo n).tiles = k.tiles := rfl
@[simp] theorem Core.count_lastStatus : (k.count off hi lo n).lastStatus = k.lastStatus := rfl
@[simp] theorem Core.count_closes : (k.count off hi lo n).closes = k.closes := rfl
@[simp] theorem Core.count_shadows : (k.count off hi lo n).shadows = k.shadows := rfl
@[simp] theorem Core.count_feq : (k.count off hi lo n).feq = k.feq := rfl
@[simp] theorem Core.count_tileQueue : (k.count off hi lo n).tileQueue = k.tileQueue := rfl
@[simp] theorem Core.count_qwait : (k.count off hi lo n).qwait = k.qwait := rfl
@[simp] theorem Core.count_stopped : (k.count off hi lo n).stopped = k.stopped := rfl
@[simp] theorem Core.count_mxReserved : (k.count off hi lo n).mxReserved = k.mxReserved := rfl
@[simp] theorem Core.count_streams : (k.count off hi lo n).streams = k.streams := rfl
@[simp] theorem Core.count_txReqs : (k.count off hi lo n).txReqs = k.txReqs := rfl
@[simp] theorem Core.count_txGen : (k.count off hi lo n).txGen = k.txGen := rfl
@[simp] theorem Core.count_seqHeldV : (k.count off hi lo n).seqHeldV = k.seqHeldV := rfl
@[simp] theorem Core.count_seqHeldM : (k.count off hi lo n).seqHeldM = k.seqHeldM := rfl
@[simp] theorem Core.count_mgPost : (k.count off hi lo n).mgPost = k.mgPost := rfl
@[simp] theorem Core.count_mgRot : (k.count off hi lo n).mgRot = k.mgRot := rfl
@[simp] theorem Core.count_pr : (k.count off hi lo n).pr = k.pr := rfl
@[simp] theorem Core.count_tlb : (k.count off hi lo n).tlb = k.tlb := rfl
@[simp] theorem Core.count_walkCache : (k.count off hi lo n).walkCache = k.walkCache := rfl
@[simp] theorem Core.count_walks : (k.count off hi lo n).walks = k.walks := rfl
@[simp] theorem Core.count_invPend : (k.count off hi lo n).invPend = k.invPend := rfl
@[simp] theorem Core.count_l1i : (k.count off hi lo n).l1i = k.l1i := rfl
@[simp] theorem Core.count_l1d : (k.count off hi lo n).l1d = k.l1d := rfl
@[simp] theorem Core.count_basket : (k.count off hi lo n).basket = k.basket := rfl
@[simp] theorem Core.count_stride : (k.count off hi lo n).stride = k.stride := rfl
@[simp] theorem Core.count_strideCtx : (k.count off hi lo n).strideCtx = k.strideCtx := rfl
end

section
variable (k : Core) (sh : Nat) (fl : NF)
@[simp] theorem Core.raiseFlags_run : (k.raiseFlags sh fl).run = k.run := rfl
@[simp] theorem Core.raiseFlags_g : (k.raiseFlags sh fl).g = k.g := rfl
@[simp] theorem Core.raiseFlags_sb : (k.raiseFlags sh fl).sb = k.sb := rfl
@[simp] theorem Core.raiseFlags_late : (k.raiseFlags sh fl).late = k.late := rfl
@[simp] theorem Core.raiseFlags_c : (k.raiseFlags sh fl).c = k.c := rfl
@[simp] theorem Core.raiseFlags_scap : (k.raiseFlags sh fl).scap = k.scap := rfl
@[simp] theorem Core.raiseFlags_lateLoads : (k.raiseFlags sh fl).lateLoads = k.lateLoads := rfl
@[simp] theorem Core.raiseFlags_products : (k.raiseFlags sh fl).products = k.products := rfl
@[simp] theorem Core.raiseFlags_storeBuf : (k.raiseFlags sh fl).storeBuf = k.storeBuf := rfl
@[simp] theorem Core.raiseFlags_retBuf : (k.raiseFlags sh fl).retBuf = k.retBuf := rfl
@[simp] theorem Core.raiseFlags_lpLast : (k.raiseFlags sh fl).lpLast = k.lpLast := rfl
@[simp] theorem Core.raiseFlags_pq : (k.raiseFlags sh fl).pq = k.pq := rfl
@[simp] theorem Core.raiseFlags_held : (k.raiseFlags sh fl).held = k.held := rfl
@[simp] theorem Core.raiseFlags_exc : (k.raiseFlags sh fl).exc = k.exc := rfl
@[simp] theorem Core.raiseFlags_haltReq : (k.raiseFlags sh fl).haltReq = k.haltReq := rfl
@[simp] theorem Core.raiseFlags_dbgHalt : (k.raiseFlags sh fl).dbgHalt = k.dbgHalt := rfl
@[simp] theorem Core.raiseFlags_launch : (k.raiseFlags sh fl).launch = k.launch := rfl
@[simp] theorem Core.raiseFlags_tile : (k.raiseFlags sh fl).tile = k.tile := rfl
@[simp] theorem Core.raiseFlags_tileTags : (k.raiseFlags sh fl).tileTags = k.tileTags := rfl
@[simp] theorem Core.raiseFlags_tilePoison : (k.raiseFlags sh fl).tilePoison = k.tilePoison := rfl
@[simp] theorem Core.raiseFlags_v : (k.raiseFlags sh fl).v = k.v := rfl
@[simp] theorem Core.raiseFlags_vm : (k.raiseFlags sh fl).vm = k.vm := rfl
@[simp] theorem Core.raiseFlags_vl : (k.raiseFlags sh fl).vl = k.vl := rfl
@[simp] theorem Core.raiseFlags_vq : (k.raiseFlags sh fl).vq = k.vq := rfl
@[simp] theorem Core.raiseFlags_vRnd : (k.raiseFlags sh fl).vRnd = k.vRnd := rfl
@[simp] theorem Core.raiseFlags_vSat : (k.raiseFlags sh fl).vSat = k.vSat := rfl
@[simp] theorem Core.raiseFlags_vFit : (k.raiseFlags sh fl).vFit = k.vFit := rfl
@[simp] theorem Core.raiseFlags_aRnd : (k.raiseFlags sh fl).aRnd = k.aRnd := rfl
@[simp] theorem Core.raiseFlags_aSat : (k.raiseFlags sh fl).aSat = k.aSat := rfl
@[simp] theorem Core.raiseFlags_aFit : (k.raiseFlags sh fl).aFit = k.aFit := rfl
@[simp] theorem Core.raiseFlags_accFull : (k.raiseFlags sh fl).accFull = k.accFull := rfl
@[simp] theorem Core.raiseFlags_accS : (k.raiseFlags sh fl).accS = k.accS := rfl
@[simp] theorem Core.raiseFlags_md : (k.raiseFlags sh fl).md = k.md := rfl
@[simp] theorem Core.raiseFlags_mq : (k.raiseFlags sh fl).mq = k.mq := rfl
@[simp] theorem Core.raiseFlags_mxSq : (k.raiseFlags sh fl).mxSq = k.mxSq := rfl
@[simp] theorem Core.raiseFlags_acc : (k.raiseFlags sh fl).acc = k.acc := rfl
@[simp] theorem Core.raiseFlags_tiles : (k.raiseFlags sh fl).tiles = k.tiles := rfl
@[simp] theorem Core.raiseFlags_lastStatus : (k.raiseFlags sh fl).lastStatus = k.lastStatus := rfl
@[simp] theorem Core.raiseFlags_closes : (k.raiseFlags sh fl).closes = k.closes := rfl
@[simp] theorem Core.raiseFlags_shadows : (k.raiseFlags sh fl).shadows = k.shadows := rfl
@[simp] theorem Core.raiseFlags_feq : (k.raiseFlags sh fl).feq = k.feq := rfl
@[simp] theorem Core.raiseFlags_tileQueue : (k.raiseFlags sh fl).tileQueue = k.tileQueue := rfl
@[simp] theorem Core.raiseFlags_qwait : (k.raiseFlags sh fl).qwait = k.qwait := rfl
@[simp] theorem Core.raiseFlags_stopped : (k.raiseFlags sh fl).stopped = k.stopped := rfl
@[simp] theorem Core.raiseFlags_mxReserved : (k.raiseFlags sh fl).mxReserved = k.mxReserved := rfl
@[simp] theorem Core.raiseFlags_streams : (k.raiseFlags sh fl).streams = k.streams := rfl
@[simp] theorem Core.raiseFlags_txReqs : (k.raiseFlags sh fl).txReqs = k.txReqs := rfl
@[simp] theorem Core.raiseFlags_txGen : (k.raiseFlags sh fl).txGen = k.txGen := rfl
@[simp] theorem Core.raiseFlags_seqHeldV : (k.raiseFlags sh fl).seqHeldV = k.seqHeldV := rfl
@[simp] theorem Core.raiseFlags_seqHeldM : (k.raiseFlags sh fl).seqHeldM = k.seqHeldM := rfl
@[simp] theorem Core.raiseFlags_mgPost : (k.raiseFlags sh fl).mgPost = k.mgPost := rfl
@[simp] theorem Core.raiseFlags_mgRot : (k.raiseFlags sh fl).mgRot = k.mgRot := rfl
@[simp] theorem Core.raiseFlags_pr : (k.raiseFlags sh fl).pr = k.pr := rfl
@[simp] theorem Core.raiseFlags_tlb : (k.raiseFlags sh fl).tlb = k.tlb := rfl
@[simp] theorem Core.raiseFlags_walkCache : (k.raiseFlags sh fl).walkCache = k.walkCache := rfl
@[simp] theorem Core.raiseFlags_walks : (k.raiseFlags sh fl).walks = k.walks := rfl
@[simp] theorem Core.raiseFlags_invPend : (k.raiseFlags sh fl).invPend = k.invPend := rfl
@[simp] theorem Core.raiseFlags_l1i : (k.raiseFlags sh fl).l1i = k.l1i := rfl
@[simp] theorem Core.raiseFlags_l1d : (k.raiseFlags sh fl).l1d = k.l1d := rfl
@[simp] theorem Core.raiseFlags_basket : (k.raiseFlags sh fl).basket = k.basket := rfl
@[simp] theorem Core.raiseFlags_stride : (k.raiseFlags sh fl).stride = k.stride := rfl
@[simp] theorem Core.raiseFlags_strideCtx : (k.raiseFlags sh fl).strideCtx = k.strideCtx := rfl
end

section
variable (k : Core) (r : CReg) (v : Cap)
@[simp] theorem Core.setC_run : (k.setC r v).run = k.run := rfl
@[simp] theorem Core.setC_g : (k.setC r v).g = k.g := rfl
@[simp] theorem Core.setC_sb : (k.setC r v).sb = k.sb := rfl
@[simp] theorem Core.setC_late : (k.setC r v).late = k.late := rfl
@[simp] theorem Core.setC_scap : (k.setC r v).scap = k.scap := rfl
@[simp] theorem Core.setC_regs : (k.setC r v).regs = k.regs := rfl
@[simp] theorem Core.setC_lateLoads : (k.setC r v).lateLoads = k.lateLoads := rfl
@[simp] theorem Core.setC_products : (k.setC r v).products = k.products := rfl
@[simp] theorem Core.setC_storeBuf : (k.setC r v).storeBuf = k.storeBuf := rfl
@[simp] theorem Core.setC_retBuf : (k.setC r v).retBuf = k.retBuf := rfl
@[simp] theorem Core.setC_lpLast : (k.setC r v).lpLast = k.lpLast := rfl
@[simp] theorem Core.setC_pq : (k.setC r v).pq = k.pq := rfl
@[simp] theorem Core.setC_held : (k.setC r v).held = k.held := rfl
@[simp] theorem Core.setC_exc : (k.setC r v).exc = k.exc := rfl
@[simp] theorem Core.setC_haltReq : (k.setC r v).haltReq = k.haltReq := rfl
@[simp] theorem Core.setC_dbgHalt : (k.setC r v).dbgHalt = k.dbgHalt := rfl
@[simp] theorem Core.setC_launch : (k.setC r v).launch = k.launch := rfl
@[simp] theorem Core.setC_tile : (k.setC r v).tile = k.tile := rfl
@[simp] theorem Core.setC_tileTags : (k.setC r v).tileTags = k.tileTags := rfl
@[simp] theorem Core.setC_tilePoison : (k.setC r v).tilePoison = k.tilePoison := rfl
@[simp] theorem Core.setC_v : (k.setC r v).v = k.v := rfl
@[simp] theorem Core.setC_vm : (k.setC r v).vm = k.vm := rfl
@[simp] theorem Core.setC_vl : (k.setC r v).vl = k.vl := rfl
@[simp] theorem Core.setC_vq : (k.setC r v).vq = k.vq := rfl
@[simp] theorem Core.setC_vRnd : (k.setC r v).vRnd = k.vRnd := rfl
@[simp] theorem Core.setC_vSat : (k.setC r v).vSat = k.vSat := rfl
@[simp] theorem Core.setC_vFit : (k.setC r v).vFit = k.vFit := rfl
@[simp] theorem Core.setC_aRnd : (k.setC r v).aRnd = k.aRnd := rfl
@[simp] theorem Core.setC_aSat : (k.setC r v).aSat = k.aSat := rfl
@[simp] theorem Core.setC_aFit : (k.setC r v).aFit = k.aFit := rfl
@[simp] theorem Core.setC_accFull : (k.setC r v).accFull = k.accFull := rfl
@[simp] theorem Core.setC_accS : (k.setC r v).accS = k.accS := rfl
@[simp] theorem Core.setC_md : (k.setC r v).md = k.md := rfl
@[simp] theorem Core.setC_mq : (k.setC r v).mq = k.mq := rfl
@[simp] theorem Core.setC_mxSq : (k.setC r v).mxSq = k.mxSq := rfl
@[simp] theorem Core.setC_acc : (k.setC r v).acc = k.acc := rfl
@[simp] theorem Core.setC_tiles : (k.setC r v).tiles = k.tiles := rfl
@[simp] theorem Core.setC_lastStatus : (k.setC r v).lastStatus = k.lastStatus := rfl
@[simp] theorem Core.setC_closes : (k.setC r v).closes = k.closes := rfl
@[simp] theorem Core.setC_shadows : (k.setC r v).shadows = k.shadows := rfl
@[simp] theorem Core.setC_feq : (k.setC r v).feq = k.feq := rfl
@[simp] theorem Core.setC_tileQueue : (k.setC r v).tileQueue = k.tileQueue := rfl
@[simp] theorem Core.setC_qwait : (k.setC r v).qwait = k.qwait := rfl
@[simp] theorem Core.setC_stopped : (k.setC r v).stopped = k.stopped := rfl
@[simp] theorem Core.setC_mxReserved : (k.setC r v).mxReserved = k.mxReserved := rfl
@[simp] theorem Core.setC_streams : (k.setC r v).streams = k.streams := rfl
@[simp] theorem Core.setC_txReqs : (k.setC r v).txReqs = k.txReqs := rfl
@[simp] theorem Core.setC_txGen : (k.setC r v).txGen = k.txGen := rfl
@[simp] theorem Core.setC_seqHeldV : (k.setC r v).seqHeldV = k.seqHeldV := rfl
@[simp] theorem Core.setC_seqHeldM : (k.setC r v).seqHeldM = k.seqHeldM := rfl
@[simp] theorem Core.setC_mgPost : (k.setC r v).mgPost = k.mgPost := rfl
@[simp] theorem Core.setC_mgRot : (k.setC r v).mgRot = k.mgRot := rfl
@[simp] theorem Core.setC_pr : (k.setC r v).pr = k.pr := rfl
@[simp] theorem Core.setC_tlb : (k.setC r v).tlb = k.tlb := rfl
@[simp] theorem Core.setC_walkCache : (k.setC r v).walkCache = k.walkCache := rfl
@[simp] theorem Core.setC_walks : (k.setC r v).walks = k.walks := rfl
@[simp] theorem Core.setC_invPend : (k.setC r v).invPend = k.invPend := rfl
@[simp] theorem Core.setC_l1i : (k.setC r v).l1i = k.l1i := rfl
@[simp] theorem Core.setC_l1d : (k.setC r v).l1d = k.l1d := rfl
@[simp] theorem Core.setC_basket : (k.setC r v).basket = k.basket := rfl
@[simp] theorem Core.setC_stride : (k.setC r v).stride = k.stride := rfl
@[simp] theorem Core.setC_strideCtx : (k.setC r v).strideCtx = k.strideCtx := rfl
end

section
variable (k : Core) (i : Fin 5) (v : Cap)
@[simp] theorem Core.setScap_run : (k.setScap i v).run = k.run := rfl
@[simp] theorem Core.setScap_g : (k.setScap i v).g = k.g := rfl
@[simp] theorem Core.setScap_sb : (k.setScap i v).sb = k.sb := rfl
@[simp] theorem Core.setScap_late : (k.setScap i v).late = k.late := rfl
@[simp] theorem Core.setScap_c : (k.setScap i v).c = k.c := rfl
@[simp] theorem Core.setScap_regs : (k.setScap i v).regs = k.regs := rfl
@[simp] theorem Core.setScap_lateLoads : (k.setScap i v).lateLoads = k.lateLoads := rfl
@[simp] theorem Core.setScap_products : (k.setScap i v).products = k.products := rfl
@[simp] theorem Core.setScap_storeBuf : (k.setScap i v).storeBuf = k.storeBuf := rfl
@[simp] theorem Core.setScap_retBuf : (k.setScap i v).retBuf = k.retBuf := rfl
@[simp] theorem Core.setScap_lpLast : (k.setScap i v).lpLast = k.lpLast := rfl
@[simp] theorem Core.setScap_pq : (k.setScap i v).pq = k.pq := rfl
@[simp] theorem Core.setScap_held : (k.setScap i v).held = k.held := rfl
@[simp] theorem Core.setScap_exc : (k.setScap i v).exc = k.exc := rfl
@[simp] theorem Core.setScap_haltReq : (k.setScap i v).haltReq = k.haltReq := rfl
@[simp] theorem Core.setScap_dbgHalt : (k.setScap i v).dbgHalt = k.dbgHalt := rfl
@[simp] theorem Core.setScap_launch : (k.setScap i v).launch = k.launch := rfl
@[simp] theorem Core.setScap_tile : (k.setScap i v).tile = k.tile := rfl
@[simp] theorem Core.setScap_tileTags : (k.setScap i v).tileTags = k.tileTags := rfl
@[simp] theorem Core.setScap_tilePoison : (k.setScap i v).tilePoison = k.tilePoison := rfl
@[simp] theorem Core.setScap_v : (k.setScap i v).v = k.v := rfl
@[simp] theorem Core.setScap_vm : (k.setScap i v).vm = k.vm := rfl
@[simp] theorem Core.setScap_vl : (k.setScap i v).vl = k.vl := rfl
@[simp] theorem Core.setScap_vq : (k.setScap i v).vq = k.vq := rfl
@[simp] theorem Core.setScap_vRnd : (k.setScap i v).vRnd = k.vRnd := rfl
@[simp] theorem Core.setScap_vSat : (k.setScap i v).vSat = k.vSat := rfl
@[simp] theorem Core.setScap_vFit : (k.setScap i v).vFit = k.vFit := rfl
@[simp] theorem Core.setScap_aRnd : (k.setScap i v).aRnd = k.aRnd := rfl
@[simp] theorem Core.setScap_aSat : (k.setScap i v).aSat = k.aSat := rfl
@[simp] theorem Core.setScap_aFit : (k.setScap i v).aFit = k.aFit := rfl
@[simp] theorem Core.setScap_accFull : (k.setScap i v).accFull = k.accFull := rfl
@[simp] theorem Core.setScap_accS : (k.setScap i v).accS = k.accS := rfl
@[simp] theorem Core.setScap_md : (k.setScap i v).md = k.md := rfl
@[simp] theorem Core.setScap_mq : (k.setScap i v).mq = k.mq := rfl
@[simp] theorem Core.setScap_mxSq : (k.setScap i v).mxSq = k.mxSq := rfl
@[simp] theorem Core.setScap_acc : (k.setScap i v).acc = k.acc := rfl
@[simp] theorem Core.setScap_tiles : (k.setScap i v).tiles = k.tiles := rfl
@[simp] theorem Core.setScap_lastStatus : (k.setScap i v).lastStatus = k.lastStatus := rfl
@[simp] theorem Core.setScap_closes : (k.setScap i v).closes = k.closes := rfl
@[simp] theorem Core.setScap_shadows : (k.setScap i v).shadows = k.shadows := rfl
@[simp] theorem Core.setScap_feq : (k.setScap i v).feq = k.feq := rfl
@[simp] theorem Core.setScap_tileQueue : (k.setScap i v).tileQueue = k.tileQueue := rfl
@[simp] theorem Core.setScap_qwait : (k.setScap i v).qwait = k.qwait := rfl
@[simp] theorem Core.setScap_stopped : (k.setScap i v).stopped = k.stopped := rfl
@[simp] theorem Core.setScap_mxReserved : (k.setScap i v).mxReserved = k.mxReserved := rfl
@[simp] theorem Core.setScap_streams : (k.setScap i v).streams = k.streams := rfl
@[simp] theorem Core.setScap_txReqs : (k.setScap i v).txReqs = k.txReqs := rfl
@[simp] theorem Core.setScap_txGen : (k.setScap i v).txGen = k.txGen := rfl
@[simp] theorem Core.setScap_seqHeldV : (k.setScap i v).seqHeldV = k.seqHeldV := rfl
@[simp] theorem Core.setScap_seqHeldM : (k.setScap i v).seqHeldM = k.seqHeldM := rfl
@[simp] theorem Core.setScap_mgPost : (k.setScap i v).mgPost = k.mgPost := rfl
@[simp] theorem Core.setScap_mgRot : (k.setScap i v).mgRot = k.mgRot := rfl
@[simp] theorem Core.setScap_pr : (k.setScap i v).pr = k.pr := rfl
@[simp] theorem Core.setScap_tlb : (k.setScap i v).tlb = k.tlb := rfl
@[simp] theorem Core.setScap_walkCache : (k.setScap i v).walkCache = k.walkCache := rfl
@[simp] theorem Core.setScap_walks : (k.setScap i v).walks = k.walks := rfl
@[simp] theorem Core.setScap_invPend : (k.setScap i v).invPend = k.invPend := rfl
@[simp] theorem Core.setScap_l1i : (k.setScap i v).l1i = k.l1i := rfl
@[simp] theorem Core.setScap_l1d : (k.setScap i v).l1d = k.l1d := rfl
@[simp] theorem Core.setScap_basket : (k.setScap i v).basket = k.basket := rfl
@[simp] theorem Core.setScap_stride : (k.setScap i v).stride = k.stride := rfl
@[simp] theorem Core.setScap_strideCtx : (k.setScap i v).strideCtx = k.strideCtx := rfl
end

section
variable (k : Core) 
@[simp] theorem Core.flushQueue_run : (k.flushQueue).run = k.run := rfl
@[simp] theorem Core.flushQueue_g : (k.flushQueue).g = k.g := rfl
@[simp] theorem Core.flushQueue_sb : (k.flushQueue).sb = k.sb := rfl
@[simp] theorem Core.flushQueue_late : (k.flushQueue).late = k.late := rfl
@[simp] theorem Core.flushQueue_c : (k.flushQueue).c = k.c := rfl
@[simp] theorem Core.flushQueue_scap : (k.flushQueue).scap = k.scap := rfl
@[simp] theorem Core.flushQueue_lateLoads : (k.flushQueue).lateLoads = k.lateLoads := rfl
@[simp] theorem Core.flushQueue_products : (k.flushQueue).products = k.products := rfl
@[simp] theorem Core.flushQueue_storeBuf : (k.flushQueue).storeBuf = k.storeBuf := rfl
@[simp] theorem Core.flushQueue_retBuf : (k.flushQueue).retBuf = k.retBuf := rfl
@[simp] theorem Core.flushQueue_lpLast : (k.flushQueue).lpLast = k.lpLast := rfl
@[simp] theorem Core.flushQueue_held : (k.flushQueue).held = k.held := rfl
@[simp] theorem Core.flushQueue_exc : (k.flushQueue).exc = k.exc := rfl
@[simp] theorem Core.flushQueue_haltReq : (k.flushQueue).haltReq = k.haltReq := rfl
@[simp] theorem Core.flushQueue_dbgHalt : (k.flushQueue).dbgHalt = k.dbgHalt := rfl
@[simp] theorem Core.flushQueue_launch : (k.flushQueue).launch = k.launch := rfl
@[simp] theorem Core.flushQueue_tile : (k.flushQueue).tile = k.tile := rfl
@[simp] theorem Core.flushQueue_tileTags : (k.flushQueue).tileTags = k.tileTags := rfl
@[simp] theorem Core.flushQueue_tilePoison : (k.flushQueue).tilePoison = k.tilePoison := rfl
@[simp] theorem Core.flushQueue_v : (k.flushQueue).v = k.v := rfl
@[simp] theorem Core.flushQueue_vm : (k.flushQueue).vm = k.vm := rfl
@[simp] theorem Core.flushQueue_vl : (k.flushQueue).vl = k.vl := rfl
@[simp] theorem Core.flushQueue_vq : (k.flushQueue).vq = k.vq := rfl
@[simp] theorem Core.flushQueue_vRnd : (k.flushQueue).vRnd = k.vRnd := rfl
@[simp] theorem Core.flushQueue_vSat : (k.flushQueue).vSat = k.vSat := rfl
@[simp] theorem Core.flushQueue_vFit : (k.flushQueue).vFit = k.vFit := rfl
@[simp] theorem Core.flushQueue_aRnd : (k.flushQueue).aRnd = k.aRnd := rfl
@[simp] theorem Core.flushQueue_aSat : (k.flushQueue).aSat = k.aSat := rfl
@[simp] theorem Core.flushQueue_aFit : (k.flushQueue).aFit = k.aFit := rfl
@[simp] theorem Core.flushQueue_accFull : (k.flushQueue).accFull = k.accFull := rfl
@[simp] theorem Core.flushQueue_accS : (k.flushQueue).accS = k.accS := rfl
@[simp] theorem Core.flushQueue_md : (k.flushQueue).md = k.md := rfl
@[simp] theorem Core.flushQueue_mq : (k.flushQueue).mq = k.mq := rfl
@[simp] theorem Core.flushQueue_mxSq : (k.flushQueue).mxSq = k.mxSq := rfl
@[simp] theorem Core.flushQueue_acc : (k.flushQueue).acc = k.acc := rfl
@[simp] theorem Core.flushQueue_tiles : (k.flushQueue).tiles = k.tiles := rfl
@[simp] theorem Core.flushQueue_lastStatus : (k.flushQueue).lastStatus = k.lastStatus := rfl
@[simp] theorem Core.flushQueue_closes : (k.flushQueue).closes = k.closes := rfl
@[simp] theorem Core.flushQueue_shadows : (k.flushQueue).shadows = k.shadows := rfl
@[simp] theorem Core.flushQueue_feq : (k.flushQueue).feq = k.feq := rfl
@[simp] theorem Core.flushQueue_tileQueue : (k.flushQueue).tileQueue = k.tileQueue := rfl
@[simp] theorem Core.flushQueue_qwait : (k.flushQueue).qwait = k.qwait := rfl
@[simp] theorem Core.flushQueue_stopped : (k.flushQueue).stopped = k.stopped := rfl
@[simp] theorem Core.flushQueue_mxReserved : (k.flushQueue).mxReserved = k.mxReserved := rfl
@[simp] theorem Core.flushQueue_streams : (k.flushQueue).streams = k.streams := rfl
@[simp] theorem Core.flushQueue_txReqs : (k.flushQueue).txReqs = k.txReqs := rfl
@[simp] theorem Core.flushQueue_txGen : (k.flushQueue).txGen = k.txGen := rfl
@[simp] theorem Core.flushQueue_seqHeldV : (k.flushQueue).seqHeldV = k.seqHeldV := rfl
@[simp] theorem Core.flushQueue_seqHeldM : (k.flushQueue).seqHeldM = k.seqHeldM := rfl
@[simp] theorem Core.flushQueue_mgPost : (k.flushQueue).mgPost = k.mgPost := rfl
@[simp] theorem Core.flushQueue_mgRot : (k.flushQueue).mgRot = k.mgRot := rfl
@[simp] theorem Core.flushQueue_pr : (k.flushQueue).pr = k.pr := rfl
@[simp] theorem Core.flushQueue_tlb : (k.flushQueue).tlb = k.tlb := rfl
@[simp] theorem Core.flushQueue_walkCache : (k.flushQueue).walkCache = k.walkCache := rfl
@[simp] theorem Core.flushQueue_walks : (k.flushQueue).walks = k.walks := rfl
@[simp] theorem Core.flushQueue_invPend : (k.flushQueue).invPend = k.invPend := rfl
@[simp] theorem Core.flushQueue_l1i : (k.flushQueue).l1i = k.l1i := rfl
@[simp] theorem Core.flushQueue_l1d : (k.flushQueue).l1d = k.l1d := rfl
@[simp] theorem Core.flushQueue_basket : (k.flushQueue).basket = k.basket := rfl
@[simp] theorem Core.flushQueue_stride : (k.flushQueue).stride = k.stride := rfl
@[simp] theorem Core.flushQueue_strideCtx : (k.flushQueue).strideCtx = k.strideCtx := rfl
end

@[simp] theorem Core.flushQueue_pq (k : Core) : k.flushQueue.pq = [] := rfl

/-- A register written reads the value; the others read as before. -/
theorem Core.reg_setReg (k : Core) (o o' : Nat) (v : W64) : (k.setReg o v).reg o' = if o' = o then v else k.reg o' :=
  mget_mset _ _ _ _ _

@[simp] theorem Core.reg_setReg_self (k : Core) (o : Nat) (v : W64) : (k.setReg o v).reg o = v := by simp [Core.reg_setReg]

theorem Core.reg_setReg_ne (k : Core) {o o' : Nat} (v : W64) (h : o' ≠ o) : (k.setReg o v).reg o' = k.reg o' := by simp [Core.reg_setReg, h]

theorem Core.reg_setFld_ne (k : Core) {o o' : Nat} (hi lo v : Nat) (h : o' ≠ o) : (k.setFld o hi lo v).reg o' = k.reg o' := Core.reg_setReg_ne k _ h

theorem Core.reg_count_ne (k : Core) {o o' : Nat} (hi lo n : Nat) (h : o' ≠ o) : (k.count o hi lo n).reg o' = k.reg o' := Core.reg_setReg_ne k _ h

theorem Cluster.reg_setReg (k : Cluster) (o o' : Nat) (v : W64) : (k.setReg o v).reg o' = if o' = o then v else k.reg o' := mget_mset _ _ _ _ _
theorem Region.reg_setReg (k : Region) (o o' : Nat) (v : W64) : (k.setReg o v).reg o' = if o' = o then v else k.reg o' := mget_mset _ _ _ _ _
theorem Die.reg_setReg (k : Die) (o o' : Nat) (v : W64) : (k.setReg o v).reg o' = if o' = o then v else k.reg o' := mget_mset _ _ _ _ _

/-- All that a write of a general register can do (R138, R139, R142): a g0 takes nothing. -/
theorem Core.putG_cases (k : Core) (r : GReg) (v : W64) (p : Bool) :
    (r = 0 ∧ k.putG r v p = k) ∨ (r ≠ 0 ∧ ∃ regs, k.putG r v p = { k with
      g := k.g.set r.toNat v (by have := r.isLt; omega), sb := k.sb &&& ~~~(BitVec.ofNat 64 (2 ^ r.toNat)), regs := regs }) := by
  by_cases h : r = 0
  · exact .inl ⟨h, by simp [Core.putG, h]⟩
  · refine .inr ⟨h, mset coreReset k.regs rGPOISON (BitVec.ofNat 64 (setBits (k.reg rGPOISON).toNat r.toNat r.toNat p.toNat)), ?_⟩
    simp only [Core.putG, if_neg h]
    rfl

section
variable (k : Core) (r : GReg) (v : W64) (p : Bool)
@[simp] theorem Core.putG_run : (k.putG r v p).run = k.run := by unfold Core.putG; split <;> rfl
@[simp] theorem Core.putG_late : (k.putG r v p).late = k.late := by unfold Core.putG; split <;> rfl
@[simp] theorem Core.putG_c : (k.putG r v p).c = k.c := by unfold Core.putG; split <;> rfl
@[simp] theorem Core.putG_scap : (k.putG r v p).scap = k.scap := by unfold Core.putG; split <;> rfl
@[simp] theorem Core.putG_lateLoads : (k.putG r v p).lateLoads = k.lateLoads := by unfold Core.putG; split <;> rfl
@[simp] theorem Core.putG_products : (k.putG r v p).products = k.products := by unfold Core.putG; split <;> rfl
@[simp] theorem Core.putG_storeBuf : (k.putG r v p).storeBuf = k.storeBuf := by unfold Core.putG; split <;> rfl
@[simp] theorem Core.putG_retBuf : (k.putG r v p).retBuf = k.retBuf := by unfold Core.putG; split <;> rfl
@[simp] theorem Core.putG_lpLast : (k.putG r v p).lpLast = k.lpLast := by unfold Core.putG; split <;> rfl
@[simp] theorem Core.putG_pq : (k.putG r v p).pq = k.pq := by unfold Core.putG; split <;> rfl
@[simp] theorem Core.putG_held : (k.putG r v p).held = k.held := by unfold Core.putG; split <;> rfl
@[simp] theorem Core.putG_exc : (k.putG r v p).exc = k.exc := by unfold Core.putG; split <;> rfl
@[simp] theorem Core.putG_haltReq : (k.putG r v p).haltReq = k.haltReq := by unfold Core.putG; split <;> rfl
@[simp] theorem Core.putG_dbgHalt : (k.putG r v p).dbgHalt = k.dbgHalt := by unfold Core.putG; split <;> rfl
@[simp] theorem Core.putG_launch : (k.putG r v p).launch = k.launch := by unfold Core.putG; split <;> rfl
@[simp] theorem Core.putG_tile : (k.putG r v p).tile = k.tile := by unfold Core.putG; split <;> rfl
@[simp] theorem Core.putG_tileTags : (k.putG r v p).tileTags = k.tileTags := by unfold Core.putG; split <;> rfl
@[simp] theorem Core.putG_tilePoison : (k.putG r v p).tilePoison = k.tilePoison := by unfold Core.putG; split <;> rfl
@[simp] theorem Core.putG_v : (k.putG r v p).v = k.v := by unfold Core.putG; split <;> rfl
@[simp] theorem Core.putG_vm : (k.putG r v p).vm = k.vm := by unfold Core.putG; split <;> rfl
@[simp] theorem Core.putG_vl : (k.putG r v p).vl = k.vl := by unfold Core.putG; split <;> rfl
@[simp] theorem Core.putG_vq : (k.putG r v p).vq = k.vq := by unfold Core.putG; split <;> rfl
@[simp] theorem Core.putG_vRnd : (k.putG r v p).vRnd = k.vRnd := by unfold Core.putG; split <;> rfl
@[simp] theorem Core.putG_vSat : (k.putG r v p).vSat = k.vSat := by unfold Core.putG; split <;> rfl
@[simp] theorem Core.putG_vFit : (k.putG r v p).vFit = k.vFit := by unfold Core.putG; split <;> rfl
@[simp] theorem Core.putG_aRnd : (k.putG r v p).aRnd = k.aRnd := by unfold Core.putG; split <;> rfl
@[simp] theorem Core.putG_aSat : (k.putG r v p).aSat = k.aSat := by unfold Core.putG; split <;> rfl
@[simp] theorem Core.putG_aFit : (k.putG r v p).aFit = k.aFit := by unfold Core.putG; split <;> rfl
@[simp] theorem Core.putG_accFull : (k.putG r v p).accFull = k.accFull := by unfold Core.putG; split <;> rfl
@[simp] theorem Core.putG_accS : (k.putG r v p).accS = k.accS := by unfold Core.putG; split <;> rfl
@[simp] theorem Core.putG_md : (k.putG r v p).md = k.md := by unfold Core.putG; split <;> rfl
@[simp] theorem Core.putG_mq : (k.putG r v p).mq = k.mq := by unfold Core.putG; split <;> rfl
@[simp] theorem Core.putG_mxSq : (k.putG r v p).mxSq = k.mxSq := by unfold Core.putG; split <;> rfl
@[simp] theorem Core.putG_acc : (k.putG r v p).acc = k.acc := by unfold Core.putG; split <;> rfl
@[simp] theorem Core.putG_tiles : (k.putG r v p).tiles = k.tiles := by unfold Core.putG; split <;> rfl
@[simp] theorem Core.putG_lastStatus : (k.putG r v p).lastStatus = k.lastStatus := by unfold Core.putG; split <;> rfl
@[simp] theorem Core.putG_closes : (k.putG r v p).closes = k.closes := by unfold Core.putG; split <;> rfl
@[simp] theorem Core.putG_shadows : (k.putG r v p).shadows = k.shadows := by unfold Core.putG; split <;> rfl
@[simp] theorem Core.putG_feq : (k.putG r v p).feq = k.feq := by unfold Core.putG; split <;> rfl
@[simp] theorem Core.putG_tileQueue : (k.putG r v p).tileQueue = k.tileQueue := by unfold Core.putG; split <;> rfl
@[simp] theorem Core.putG_qwait : (k.putG r v p).qwait = k.qwait := by unfold Core.putG; split <;> rfl
@[simp] theorem Core.putG_stopped : (k.putG r v p).stopped = k.stopped := by unfold Core.putG; split <;> rfl
@[simp] theorem Core.putG_mxReserved : (k.putG r v p).mxReserved = k.mxReserved := by unfold Core.putG; split <;> rfl
@[simp] theorem Core.putG_streams : (k.putG r v p).streams = k.streams := by unfold Core.putG; split <;> rfl
@[simp] theorem Core.putG_txReqs : (k.putG r v p).txReqs = k.txReqs := by unfold Core.putG; split <;> rfl
@[simp] theorem Core.putG_txGen : (k.putG r v p).txGen = k.txGen := by unfold Core.putG; split <;> rfl
@[simp] theorem Core.putG_seqHeldV : (k.putG r v p).seqHeldV = k.seqHeldV := by unfold Core.putG; split <;> rfl
@[simp] theorem Core.putG_seqHeldM : (k.putG r v p).seqHeldM = k.seqHeldM := by unfold Core.putG; split <;> rfl
@[simp] theorem Core.putG_mgPost : (k.putG r v p).mgPost = k.mgPost := by unfold Core.putG; split <;> rfl
@[simp] theorem Core.putG_mgRot : (k.putG r v p).mgRot = k.mgRot := by unfold Core.putG; split <;> rfl
@[simp] theorem Core.putG_pr : (k.putG r v p).pr = k.pr := by unfold Core.putG; split <;> rfl
@[simp] theorem Core.putG_tlb : (k.putG r v p).tlb = k.tlb := by unfold Core.putG; split <;> rfl
@[simp] theorem Core.putG_walkCache : (k.putG r v p).walkCache = k.walkCache := by unfold Core.putG; split <;> rfl
@[simp] theorem Core.putG_walks : (k.putG r v p).walks = k.walks := by unfold Core.putG; split <;> rfl
@[simp] theorem Core.putG_invPend : (k.putG r v p).invPend = k.invPend := by unfold Core.putG; split <;> rfl
@[simp] theorem Core.putG_l1i : (k.putG r v p).l1i = k.l1i := by unfold Core.putG; split <;> rfl
@[simp] theorem Core.putG_l1d : (k.putG r v p).l1d = k.l1d := by unfold Core.putG; split <;> rfl
@[simp] theorem Core.putG_basket : (k.putG r v p).basket = k.basket := by unfold Core.putG; split <;> rfl
@[simp] theorem Core.putG_stride : (k.putG r v p).stride = k.stride := by unfold Core.putG; split <;> rfl
@[simp] theorem Core.putG_strideCtx : (k.putG r v p).strideCtx = k.strideCtx := by unfold Core.putG; split <;> rfl
end

section
variable (k : Core) (r : GReg) (v : W64)
@[simp] theorem Core.setG_run : (k.setG r v).run = k.run := by unfold Core.setG; simp
@[simp] theorem Core.setG_late : (k.setG r v).late = k.late := by unfold Core.setG; simp
@[simp] theorem Core.setG_c : (k.setG r v).c = k.c := by unfold Core.setG; simp
@[simp] theorem Core.setG_scap : (k.setG r v).scap = k.scap := by unfold Core.setG; simp
@[simp] theorem Core.setG_lateLoads : (k.setG r v).lateLoads = k.lateLoads := by unfold Core.setG; simp
@[simp] theorem Core.setG_products : (k.setG r v).products = k.products := by unfold Core.setG; simp
@[simp] theorem Core.setG_storeBuf : (k.setG r v).storeBuf = k.storeBuf := by unfold Core.setG; simp
@[simp] theorem Core.setG_retBuf : (k.setG r v).retBuf = k.retBuf := by unfold Core.setG; simp
@[simp] theorem Core.setG_lpLast : (k.setG r v).lpLast = k.lpLast := by unfold Core.setG; simp
@[simp] theorem Core.setG_pq : (k.setG r v).pq = k.pq := by unfold Core.setG; simp
@[simp] theorem Core.setG_held : (k.setG r v).held = k.held := by unfold Core.setG; simp
@[simp] theorem Core.setG_exc : (k.setG r v).exc = k.exc := by unfold Core.setG; simp
@[simp] theorem Core.setG_haltReq : (k.setG r v).haltReq = k.haltReq := by unfold Core.setG; simp
@[simp] theorem Core.setG_dbgHalt : (k.setG r v).dbgHalt = k.dbgHalt := by unfold Core.setG; simp
@[simp] theorem Core.setG_launch : (k.setG r v).launch = k.launch := by unfold Core.setG; simp
@[simp] theorem Core.setG_tile : (k.setG r v).tile = k.tile := by unfold Core.setG; simp
@[simp] theorem Core.setG_tileTags : (k.setG r v).tileTags = k.tileTags := by unfold Core.setG; simp
@[simp] theorem Core.setG_tilePoison : (k.setG r v).tilePoison = k.tilePoison := by unfold Core.setG; simp
@[simp] theorem Core.setG_v : (k.setG r v).v = k.v := by unfold Core.setG; simp
@[simp] theorem Core.setG_vm : (k.setG r v).vm = k.vm := by unfold Core.setG; simp
@[simp] theorem Core.setG_vl : (k.setG r v).vl = k.vl := by unfold Core.setG; simp
@[simp] theorem Core.setG_vq : (k.setG r v).vq = k.vq := by unfold Core.setG; simp
@[simp] theorem Core.setG_vRnd : (k.setG r v).vRnd = k.vRnd := by unfold Core.setG; simp
@[simp] theorem Core.setG_vSat : (k.setG r v).vSat = k.vSat := by unfold Core.setG; simp
@[simp] theorem Core.setG_vFit : (k.setG r v).vFit = k.vFit := by unfold Core.setG; simp
@[simp] theorem Core.setG_aRnd : (k.setG r v).aRnd = k.aRnd := by unfold Core.setG; simp
@[simp] theorem Core.setG_aSat : (k.setG r v).aSat = k.aSat := by unfold Core.setG; simp
@[simp] theorem Core.setG_aFit : (k.setG r v).aFit = k.aFit := by unfold Core.setG; simp
@[simp] theorem Core.setG_accFull : (k.setG r v).accFull = k.accFull := by unfold Core.setG; simp
@[simp] theorem Core.setG_accS : (k.setG r v).accS = k.accS := by unfold Core.setG; simp
@[simp] theorem Core.setG_md : (k.setG r v).md = k.md := by unfold Core.setG; simp
@[simp] theorem Core.setG_mq : (k.setG r v).mq = k.mq := by unfold Core.setG; simp
@[simp] theorem Core.setG_mxSq : (k.setG r v).mxSq = k.mxSq := by unfold Core.setG; simp
@[simp] theorem Core.setG_acc : (k.setG r v).acc = k.acc := by unfold Core.setG; simp
@[simp] theorem Core.setG_tiles : (k.setG r v).tiles = k.tiles := by unfold Core.setG; simp
@[simp] theorem Core.setG_lastStatus : (k.setG r v).lastStatus = k.lastStatus := by unfold Core.setG; simp
@[simp] theorem Core.setG_closes : (k.setG r v).closes = k.closes := by unfold Core.setG; simp
@[simp] theorem Core.setG_shadows : (k.setG r v).shadows = k.shadows := by unfold Core.setG; simp
@[simp] theorem Core.setG_feq : (k.setG r v).feq = k.feq := by unfold Core.setG; simp
@[simp] theorem Core.setG_tileQueue : (k.setG r v).tileQueue = k.tileQueue := by unfold Core.setG; simp
@[simp] theorem Core.setG_qwait : (k.setG r v).qwait = k.qwait := by unfold Core.setG; simp
@[simp] theorem Core.setG_stopped : (k.setG r v).stopped = k.stopped := by unfold Core.setG; simp
@[simp] theorem Core.setG_mxReserved : (k.setG r v).mxReserved = k.mxReserved := by unfold Core.setG; simp
@[simp] theorem Core.setG_streams : (k.setG r v).streams = k.streams := by unfold Core.setG; simp
@[simp] theorem Core.setG_txReqs : (k.setG r v).txReqs = k.txReqs := by unfold Core.setG; simp
@[simp] theorem Core.setG_txGen : (k.setG r v).txGen = k.txGen := by unfold Core.setG; simp
@[simp] theorem Core.setG_seqHeldV : (k.setG r v).seqHeldV = k.seqHeldV := by unfold Core.setG; simp
@[simp] theorem Core.setG_seqHeldM : (k.setG r v).seqHeldM = k.seqHeldM := by unfold Core.setG; simp
@[simp] theorem Core.setG_mgPost : (k.setG r v).mgPost = k.mgPost := by unfold Core.setG; simp
@[simp] theorem Core.setG_mgRot : (k.setG r v).mgRot = k.mgRot := by unfold Core.setG; simp
@[simp] theorem Core.setG_pr : (k.setG r v).pr = k.pr := by unfold Core.setG; simp
@[simp] theorem Core.setG_tlb : (k.setG r v).tlb = k.tlb := by unfold Core.setG; simp
@[simp] theorem Core.setG_walkCache : (k.setG r v).walkCache = k.walkCache := by unfold Core.setG; simp
@[simp] theorem Core.setG_walks : (k.setG r v).walks = k.walks := by unfold Core.setG; simp
@[simp] theorem Core.setG_invPend : (k.setG r v).invPend = k.invPend := by unfold Core.setG; simp
@[simp] theorem Core.setG_l1i : (k.setG r v).l1i = k.l1i := by unfold Core.setG; simp
@[simp] theorem Core.setG_l1d : (k.setG r v).l1d = k.l1d := by unfold Core.setG; simp
@[simp] theorem Core.setG_basket : (k.setG r v).basket = k.basket := by unfold Core.setG; simp
@[simp] theorem Core.setG_stride : (k.setG r v).stride = k.stride := by unfold Core.setG; simp
@[simp] theorem Core.setG_strideCtx : (k.setG r v).strideCtx = k.strideCtx := by unfold Core.setG; simp
end

section
variable (k : Core) (r : GReg)
@[simp] theorem Core.markG_run : (k.markG r).run = k.run := by unfold Core.markG; split <;> rfl
@[simp] theorem Core.markG_g : (k.markG r).g = k.g := by unfold Core.markG; split <;> rfl
@[simp] theorem Core.markG_late : (k.markG r).late = k.late := by unfold Core.markG; split <;> rfl
@[simp] theorem Core.markG_c : (k.markG r).c = k.c := by unfold Core.markG; split <;> rfl
@[simp] theorem Core.markG_scap : (k.markG r).scap = k.scap := by unfold Core.markG; split <;> rfl
@[simp] theorem Core.markG_regs : (k.markG r).regs = k.regs := by unfold Core.markG; split <;> rfl
@[simp] theorem Core.markG_lateLoads : (k.markG r).lateLoads = k.lateLoads := by unfold Core.markG; split <;> rfl
@[simp] theorem Core.markG_products : (k.markG r).products = k.products := by unfold Core.markG; split <;> rfl
@[simp] theorem Core.markG_storeBuf : (k.markG r).storeBuf = k.storeBuf := by unfold Core.markG; split <;> rfl
@[simp] theorem Core.markG_retBuf : (k.markG r).retBuf = k.retBuf := by unfold Core.markG; split <;> rfl
@[simp] theorem Core.markG_lpLast : (k.markG r).lpLast = k.lpLast := by unfold Core.markG; split <;> rfl
@[simp] theorem Core.markG_pq : (k.markG r).pq = k.pq := by unfold Core.markG; split <;> rfl
@[simp] theorem Core.markG_held : (k.markG r).held = k.held := by unfold Core.markG; split <;> rfl
@[simp] theorem Core.markG_exc : (k.markG r).exc = k.exc := by unfold Core.markG; split <;> rfl
@[simp] theorem Core.markG_haltReq : (k.markG r).haltReq = k.haltReq := by unfold Core.markG; split <;> rfl
@[simp] theorem Core.markG_dbgHalt : (k.markG r).dbgHalt = k.dbgHalt := by unfold Core.markG; split <;> rfl
@[simp] theorem Core.markG_launch : (k.markG r).launch = k.launch := by unfold Core.markG; split <;> rfl
@[simp] theorem Core.markG_tile : (k.markG r).tile = k.tile := by unfold Core.markG; split <;> rfl
@[simp] theorem Core.markG_tileTags : (k.markG r).tileTags = k.tileTags := by unfold Core.markG; split <;> rfl
@[simp] theorem Core.markG_tilePoison : (k.markG r).tilePoison = k.tilePoison := by unfold Core.markG; split <;> rfl
@[simp] theorem Core.markG_v : (k.markG r).v = k.v := by unfold Core.markG; split <;> rfl
@[simp] theorem Core.markG_vm : (k.markG r).vm = k.vm := by unfold Core.markG; split <;> rfl
@[simp] theorem Core.markG_vl : (k.markG r).vl = k.vl := by unfold Core.markG; split <;> rfl
@[simp] theorem Core.markG_vq : (k.markG r).vq = k.vq := by unfold Core.markG; split <;> rfl
@[simp] theorem Core.markG_vRnd : (k.markG r).vRnd = k.vRnd := by unfold Core.markG; split <;> rfl
@[simp] theorem Core.markG_vSat : (k.markG r).vSat = k.vSat := by unfold Core.markG; split <;> rfl
@[simp] theorem Core.markG_vFit : (k.markG r).vFit = k.vFit := by unfold Core.markG; split <;> rfl
@[simp] theorem Core.markG_aRnd : (k.markG r).aRnd = k.aRnd := by unfold Core.markG; split <;> rfl
@[simp] theorem Core.markG_aSat : (k.markG r).aSat = k.aSat := by unfold Core.markG; split <;> rfl
@[simp] theorem Core.markG_aFit : (k.markG r).aFit = k.aFit := by unfold Core.markG; split <;> rfl
@[simp] theorem Core.markG_accFull : (k.markG r).accFull = k.accFull := by unfold Core.markG; split <;> rfl
@[simp] theorem Core.markG_accS : (k.markG r).accS = k.accS := by unfold Core.markG; split <;> rfl
@[simp] theorem Core.markG_md : (k.markG r).md = k.md := by unfold Core.markG; split <;> rfl
@[simp] theorem Core.markG_mq : (k.markG r).mq = k.mq := by unfold Core.markG; split <;> rfl
@[simp] theorem Core.markG_mxSq : (k.markG r).mxSq = k.mxSq := by unfold Core.markG; split <;> rfl
@[simp] theorem Core.markG_acc : (k.markG r).acc = k.acc := by unfold Core.markG; split <;> rfl
@[simp] theorem Core.markG_tiles : (k.markG r).tiles = k.tiles := by unfold Core.markG; split <;> rfl
@[simp] theorem Core.markG_lastStatus : (k.markG r).lastStatus = k.lastStatus := by unfold Core.markG; split <;> rfl
@[simp] theorem Core.markG_closes : (k.markG r).closes = k.closes := by unfold Core.markG; split <;> rfl
@[simp] theorem Core.markG_shadows : (k.markG r).shadows = k.shadows := by unfold Core.markG; split <;> rfl
@[simp] theorem Core.markG_feq : (k.markG r).feq = k.feq := by unfold Core.markG; split <;> rfl
@[simp] theorem Core.markG_tileQueue : (k.markG r).tileQueue = k.tileQueue := by unfold Core.markG; split <;> rfl
@[simp] theorem Core.markG_qwait : (k.markG r).qwait = k.qwait := by unfold Core.markG; split <;> rfl
@[simp] theorem Core.markG_stopped : (k.markG r).stopped = k.stopped := by unfold Core.markG; split <;> rfl
@[simp] theorem Core.markG_mxReserved : (k.markG r).mxReserved = k.mxReserved := by unfold Core.markG; split <;> rfl
@[simp] theorem Core.markG_streams : (k.markG r).streams = k.streams := by unfold Core.markG; split <;> rfl
@[simp] theorem Core.markG_txReqs : (k.markG r).txReqs = k.txReqs := by unfold Core.markG; split <;> rfl
@[simp] theorem Core.markG_txGen : (k.markG r).txGen = k.txGen := by unfold Core.markG; split <;> rfl
@[simp] theorem Core.markG_seqHeldV : (k.markG r).seqHeldV = k.seqHeldV := by unfold Core.markG; split <;> rfl
@[simp] theorem Core.markG_seqHeldM : (k.markG r).seqHeldM = k.seqHeldM := by unfold Core.markG; split <;> rfl
@[simp] theorem Core.markG_mgPost : (k.markG r).mgPost = k.mgPost := by unfold Core.markG; split <;> rfl
@[simp] theorem Core.markG_mgRot : (k.markG r).mgRot = k.mgRot := by unfold Core.markG; split <;> rfl
@[simp] theorem Core.markG_pr : (k.markG r).pr = k.pr := by unfold Core.markG; split <;> rfl
@[simp] theorem Core.markG_tlb : (k.markG r).tlb = k.tlb := by unfold Core.markG; split <;> rfl
@[simp] theorem Core.markG_walkCache : (k.markG r).walkCache = k.walkCache := by unfold Core.markG; split <;> rfl
@[simp] theorem Core.markG_walks : (k.markG r).walks = k.walks := by unfold Core.markG; split <;> rfl
@[simp] theorem Core.markG_invPend : (k.markG r).invPend = k.invPend := by unfold Core.markG; split <;> rfl
@[simp] theorem Core.markG_l1i : (k.markG r).l1i = k.l1i := by unfold Core.markG; split <;> rfl
@[simp] theorem Core.markG_l1d : (k.markG r).l1d = k.l1d := by unfold Core.markG; split <;> rfl
@[simp] theorem Core.markG_basket : (k.markG r).basket = k.basket := by unfold Core.markG; split <;> rfl
@[simp] theorem Core.markG_stride : (k.markG r).stride = k.stride := by unfold Core.markG; split <;> rfl
@[simp] theorem Core.markG_strideCtx : (k.markG r).strideCtx = k.strideCtx := by unfold Core.markG; split <;> rfl
end

/-- What a write leaves in the general registers (R138). -/
theorem Core.getG_putG (k : Core) (r x : GReg) (v : W64) (p : Bool) : (k.putG r v p).getG x = if x = r ∧ r ≠ 0 then v else k.getG x := by
  rcases Core.putG_cases k r v p with ⟨h, e⟩ | ⟨h, regs, e⟩
  · rw [e]; simp [h]
  · rw [e]
    by_cases hx : x = 0
    · subst hx
      have hn : ¬((0 : GReg) = r ∧ r ≠ 0) := fun a => h a.1.symm
      rw [if_neg hn]; rfl
    · unfold Core.getG
      simp only [if_neg hx]
      by_cases hr : x = r
      · subst hr
        rw [if_pos ⟨rfl, h⟩]
        exact Vector.getElem_set_self _
      · have hne : r.toNat ≠ x.toNat := fun e => hr (BitVec.eq_of_toNat_eq e.symm)
        simp [Vector.getElem_set, hne, hr]

@[simp] theorem Core.getG_zero (k : Core) : k.getG 0 = 0 := rfl

theorem Core.getG_setG (k : Core) (r x : GReg) (v : W64) : (k.setG r v).getG x = if x = r ∧ r ≠ 0 then v else k.getG x := k.getG_putG r x v false

/-- All that the marks of a write can do (R159, R436): tags and poison of the words it touches, in the canonical form. -/
theorem Core.tileMarks_eq (k : Core) (a n : Nat) (p : Bool) :
    ∃ tags pois, k.tileMarks a n p = { k with tileTags := tags, tilePoison := pois } ∧
      (mwf noFlag k.tileTags = true → mwf noFlag tags = true) ∧ (mwf noFlag k.tilePoison = true → mwf noFlag pois = true) := by
  unfold Core.tileMarks
  generalize wordsOf a n = l
  induction l generalizing k with
  | nil => exact ⟨k.tileTags, k.tilePoison, rfl, id, id⟩
  | cons w r ih =>
    rw [List.foldl_cons]
    obtain ⟨t, q, e, h1, h2⟩ := ih _
    exact ⟨t, q, e, fun h => h1 (mwf_mset w false h), fun h => h2 (mwf_mset w _ h)⟩

/-- All that a write to tile memory can do (R159, R436): its bytes, and the tags and poison of the words they touch. -/
theorem Core.tileWrite_eq (k : Core) (a : Nat) (bs : List Byte) (p : Bool) :
    ∃ tags pois, k.tileWrite a bs p = { k with tileTags := tags, tilePoison := pois, tile := writeBytes zeroByte k.tile a bs } ∧
      (mwf noFlag k.tileTags = true → mwf noFlag tags = true) ∧ (mwf noFlag k.tilePoison = true → mwf noFlag pois = true) := by
  obtain ⟨t, q, e, h1, h2⟩ := Core.tileMarks_eq k a bs.length p
  exact ⟨t, q, by unfold Core.tileWrite; rw [e], h1, h2⟩

section
variable (k : Core) (a : Nat) (bs : List Byte) (p : Bool)
@[simp] theorem Core.tileWrite_run : (k.tileWrite a bs p).run = k.run := by obtain ⟨_, _, e, _⟩ := k.tileWrite_eq a bs p; rw [e]
@[simp] theorem Core.tileWrite_g : (k.tileWrite a bs p).g = k.g := by obtain ⟨_, _, e, _⟩ := k.tileWrite_eq a bs p; rw [e]
@[simp] theorem Core.tileWrite_sb : (k.tileWrite a bs p).sb = k.sb := by obtain ⟨_, _, e, _⟩ := k.tileWrite_eq a bs p; rw [e]
@[simp] theorem Core.tileWrite_late : (k.tileWrite a bs p).late = k.late := by obtain ⟨_, _, e, _⟩ := k.tileWrite_eq a bs p; rw [e]
@[simp] theorem Core.tileWrite_c : (k.tileWrite a bs p).c = k.c := by obtain ⟨_, _, e, _⟩ := k.tileWrite_eq a bs p; rw [e]
@[simp] theorem Core.tileWrite_scap : (k.tileWrite a bs p).scap = k.scap := by obtain ⟨_, _, e, _⟩ := k.tileWrite_eq a bs p; rw [e]
@[simp] theorem Core.tileWrite_regs : (k.tileWrite a bs p).regs = k.regs := by obtain ⟨_, _, e, _⟩ := k.tileWrite_eq a bs p; rw [e]
@[simp] theorem Core.tileWrite_lateLoads : (k.tileWrite a bs p).lateLoads = k.lateLoads := by obtain ⟨_, _, e, _⟩ := k.tileWrite_eq a bs p; rw [e]
@[simp] theorem Core.tileWrite_products : (k.tileWrite a bs p).products = k.products := by obtain ⟨_, _, e, _⟩ := k.tileWrite_eq a bs p; rw [e]
@[simp] theorem Core.tileWrite_storeBuf : (k.tileWrite a bs p).storeBuf = k.storeBuf := by obtain ⟨_, _, e, _⟩ := k.tileWrite_eq a bs p; rw [e]
@[simp] theorem Core.tileWrite_retBuf : (k.tileWrite a bs p).retBuf = k.retBuf := by obtain ⟨_, _, e, _⟩ := k.tileWrite_eq a bs p; rw [e]
@[simp] theorem Core.tileWrite_lpLast : (k.tileWrite a bs p).lpLast = k.lpLast := by obtain ⟨_, _, e, _⟩ := k.tileWrite_eq a bs p; rw [e]
@[simp] theorem Core.tileWrite_pq : (k.tileWrite a bs p).pq = k.pq := by obtain ⟨_, _, e, _⟩ := k.tileWrite_eq a bs p; rw [e]
@[simp] theorem Core.tileWrite_held : (k.tileWrite a bs p).held = k.held := by obtain ⟨_, _, e, _⟩ := k.tileWrite_eq a bs p; rw [e]
@[simp] theorem Core.tileWrite_exc : (k.tileWrite a bs p).exc = k.exc := by obtain ⟨_, _, e, _⟩ := k.tileWrite_eq a bs p; rw [e]
@[simp] theorem Core.tileWrite_haltReq : (k.tileWrite a bs p).haltReq = k.haltReq := by obtain ⟨_, _, e, _⟩ := k.tileWrite_eq a bs p; rw [e]
@[simp] theorem Core.tileWrite_dbgHalt : (k.tileWrite a bs p).dbgHalt = k.dbgHalt := by obtain ⟨_, _, e, _⟩ := k.tileWrite_eq a bs p; rw [e]
@[simp] theorem Core.tileWrite_launch : (k.tileWrite a bs p).launch = k.launch := by obtain ⟨_, _, e, _⟩ := k.tileWrite_eq a bs p; rw [e]
@[simp] theorem Core.tileWrite_v : (k.tileWrite a bs p).v = k.v := by obtain ⟨_, _, e, _⟩ := k.tileWrite_eq a bs p; rw [e]
@[simp] theorem Core.tileWrite_vm : (k.tileWrite a bs p).vm = k.vm := by obtain ⟨_, _, e, _⟩ := k.tileWrite_eq a bs p; rw [e]
@[simp] theorem Core.tileWrite_vl : (k.tileWrite a bs p).vl = k.vl := by obtain ⟨_, _, e, _⟩ := k.tileWrite_eq a bs p; rw [e]
@[simp] theorem Core.tileWrite_vq : (k.tileWrite a bs p).vq = k.vq := by obtain ⟨_, _, e, _⟩ := k.tileWrite_eq a bs p; rw [e]
@[simp] theorem Core.tileWrite_vRnd : (k.tileWrite a bs p).vRnd = k.vRnd := by obtain ⟨_, _, e, _⟩ := k.tileWrite_eq a bs p; rw [e]
@[simp] theorem Core.tileWrite_vSat : (k.tileWrite a bs p).vSat = k.vSat := by obtain ⟨_, _, e, _⟩ := k.tileWrite_eq a bs p; rw [e]
@[simp] theorem Core.tileWrite_vFit : (k.tileWrite a bs p).vFit = k.vFit := by obtain ⟨_, _, e, _⟩ := k.tileWrite_eq a bs p; rw [e]
@[simp] theorem Core.tileWrite_aRnd : (k.tileWrite a bs p).aRnd = k.aRnd := by obtain ⟨_, _, e, _⟩ := k.tileWrite_eq a bs p; rw [e]
@[simp] theorem Core.tileWrite_aSat : (k.tileWrite a bs p).aSat = k.aSat := by obtain ⟨_, _, e, _⟩ := k.tileWrite_eq a bs p; rw [e]
@[simp] theorem Core.tileWrite_aFit : (k.tileWrite a bs p).aFit = k.aFit := by obtain ⟨_, _, e, _⟩ := k.tileWrite_eq a bs p; rw [e]
@[simp] theorem Core.tileWrite_accFull : (k.tileWrite a bs p).accFull = k.accFull := by obtain ⟨_, _, e, _⟩ := k.tileWrite_eq a bs p; rw [e]
@[simp] theorem Core.tileWrite_accS : (k.tileWrite a bs p).accS = k.accS := by obtain ⟨_, _, e, _⟩ := k.tileWrite_eq a bs p; rw [e]
@[simp] theorem Core.tileWrite_md : (k.tileWrite a bs p).md = k.md := by obtain ⟨_, _, e, _⟩ := k.tileWrite_eq a bs p; rw [e]
@[simp] theorem Core.tileWrite_mq : (k.tileWrite a bs p).mq = k.mq := by obtain ⟨_, _, e, _⟩ := k.tileWrite_eq a bs p; rw [e]
@[simp] theorem Core.tileWrite_mxSq : (k.tileWrite a bs p).mxSq = k.mxSq := by obtain ⟨_, _, e, _⟩ := k.tileWrite_eq a bs p; rw [e]
@[simp] theorem Core.tileWrite_acc : (k.tileWrite a bs p).acc = k.acc := by obtain ⟨_, _, e, _⟩ := k.tileWrite_eq a bs p; rw [e]
@[simp] theorem Core.tileWrite_tiles : (k.tileWrite a bs p).tiles = k.tiles := by obtain ⟨_, _, e, _⟩ := k.tileWrite_eq a bs p; rw [e]
@[simp] theorem Core.tileWrite_lastStatus : (k.tileWrite a bs p).lastStatus = k.lastStatus := by obtain ⟨_, _, e, _⟩ := k.tileWrite_eq a bs p; rw [e]
@[simp] theorem Core.tileWrite_closes : (k.tileWrite a bs p).closes = k.closes := by obtain ⟨_, _, e, _⟩ := k.tileWrite_eq a bs p; rw [e]
@[simp] theorem Core.tileWrite_shadows : (k.tileWrite a bs p).shadows = k.shadows := by obtain ⟨_, _, e, _⟩ := k.tileWrite_eq a bs p; rw [e]
@[simp] theorem Core.tileWrite_feq : (k.tileWrite a bs p).feq = k.feq := by obtain ⟨_, _, e, _⟩ := k.tileWrite_eq a bs p; rw [e]
@[simp] theorem Core.tileWrite_tileQueue : (k.tileWrite a bs p).tileQueue = k.tileQueue := by obtain ⟨_, _, e, _⟩ := k.tileWrite_eq a bs p; rw [e]
@[simp] theorem Core.tileWrite_qwait : (k.tileWrite a bs p).qwait = k.qwait := by obtain ⟨_, _, e, _⟩ := k.tileWrite_eq a bs p; rw [e]
@[simp] theorem Core.tileWrite_stopped : (k.tileWrite a bs p).stopped = k.stopped := by obtain ⟨_, _, e, _⟩ := k.tileWrite_eq a bs p; rw [e]
@[simp] theorem Core.tileWrite_mxReserved : (k.tileWrite a bs p).mxReserved = k.mxReserved := by obtain ⟨_, _, e, _⟩ := k.tileWrite_eq a bs p; rw [e]
@[simp] theorem Core.tileWrite_streams : (k.tileWrite a bs p).streams = k.streams := by obtain ⟨_, _, e, _⟩ := k.tileWrite_eq a bs p; rw [e]
@[simp] theorem Core.tileWrite_txReqs : (k.tileWrite a bs p).txReqs = k.txReqs := by obtain ⟨_, _, e, _⟩ := k.tileWrite_eq a bs p; rw [e]
@[simp] theorem Core.tileWrite_txGen : (k.tileWrite a bs p).txGen = k.txGen := by obtain ⟨_, _, e, _⟩ := k.tileWrite_eq a bs p; rw [e]
@[simp] theorem Core.tileWrite_seqHeldV : (k.tileWrite a bs p).seqHeldV = k.seqHeldV := by obtain ⟨_, _, e, _⟩ := k.tileWrite_eq a bs p; rw [e]
@[simp] theorem Core.tileWrite_seqHeldM : (k.tileWrite a bs p).seqHeldM = k.seqHeldM := by obtain ⟨_, _, e, _⟩ := k.tileWrite_eq a bs p; rw [e]
@[simp] theorem Core.tileWrite_mgPost : (k.tileWrite a bs p).mgPost = k.mgPost := by obtain ⟨_, _, e, _⟩ := k.tileWrite_eq a bs p; rw [e]
@[simp] theorem Core.tileWrite_mgRot : (k.tileWrite a bs p).mgRot = k.mgRot := by obtain ⟨_, _, e, _⟩ := k.tileWrite_eq a bs p; rw [e]
@[simp] theorem Core.tileWrite_pr : (k.tileWrite a bs p).pr = k.pr := by obtain ⟨_, _, e, _⟩ := k.tileWrite_eq a bs p; rw [e]
@[simp] theorem Core.tileWrite_tlb : (k.tileWrite a bs p).tlb = k.tlb := by obtain ⟨_, _, e, _⟩ := k.tileWrite_eq a bs p; rw [e]
@[simp] theorem Core.tileWrite_walkCache : (k.tileWrite a bs p).walkCache = k.walkCache := by obtain ⟨_, _, e, _⟩ := k.tileWrite_eq a bs p; rw [e]
@[simp] theorem Core.tileWrite_walks : (k.tileWrite a bs p).walks = k.walks := by obtain ⟨_, _, e, _⟩ := k.tileWrite_eq a bs p; rw [e]
@[simp] theorem Core.tileWrite_invPend : (k.tileWrite a bs p).invPend = k.invPend := by obtain ⟨_, _, e, _⟩ := k.tileWrite_eq a bs p; rw [e]
@[simp] theorem Core.tileWrite_l1i : (k.tileWrite a bs p).l1i = k.l1i := by obtain ⟨_, _, e, _⟩ := k.tileWrite_eq a bs p; rw [e]
@[simp] theorem Core.tileWrite_l1d : (k.tileWrite a bs p).l1d = k.l1d := by obtain ⟨_, _, e, _⟩ := k.tileWrite_eq a bs p; rw [e]
@[simp] theorem Core.tileWrite_basket : (k.tileWrite a bs p).basket = k.basket := by obtain ⟨_, _, e, _⟩ := k.tileWrite_eq a bs p; rw [e]
@[simp] theorem Core.tileWrite_stride : (k.tileWrite a bs p).stride = k.stride := by obtain ⟨_, _, e, _⟩ := k.tileWrite_eq a bs p; rw [e]
@[simp] theorem Core.tileWrite_strideCtx : (k.tileWrite a bs p).strideCtx = k.strideCtx := by obtain ⟨_, _, e, _⟩ := k.tileWrite_eq a bs p; rw [e]
end

/-- Bytes written are read back, and every other byte of tile memory reads as before. -/
theorem Core.tileByte_tileWrite (k : Core) (a : Nat) (bs : List Byte) (p : Bool) (i : Nat) :
    (k.tileWrite a bs p).tileByte i = if h : a ≤ i ∧ i < a + bs.length then bs[i - a]'(by omega) else k.tileByte i := by
  obtain ⟨_, _, e, _⟩ := k.tileWrite_eq a bs p
  rw [e]
  exact mget_writeBytes zeroByte bs k.tile a i

theorem Core.tileRead_tileWrite (k : Core) (a : Nat) (bs : List Byte) (p : Bool) : (k.tileWrite a bs p).tileRead a bs.length = bs := by
  obtain ⟨_, _, e, _⟩ := k.tileWrite_eq a bs p
  rw [e]
  exact readBytes_writeBytes zeroByte bs k.tile a

/-- A write to tile memory keeps the canonical form. -/
theorem Core.tileWrite_wf (k : Core) (a : Nat) (bs : List Byte) (p : Bool)
    (h : mwf zeroByte k.tile = true ∧ mwf noFlag k.tileTags = true ∧ mwf noFlag k.tilePoison = true) :
    mwf zeroByte (k.tileWrite a bs p).tile = true ∧ mwf noFlag (k.tileWrite a bs p).tileTags = true ∧
      mwf noFlag (k.tileWrite a bs p).tilePoison = true := by
  obtain ⟨_, _, e, h1, h2⟩ := k.tileWrite_eq a bs p
  rw [e]
  exact ⟨mwf_writeBytes _ _ _ h.1, h1 h.2.1, h2 h.2.2⟩

theorem Core.tileWriteTagged_wf (k : Core) (a : Nat) (bs : List Byte) (t : Bool)
    (h : mwf zeroByte k.tile = true ∧ mwf noFlag k.tileTags = true ∧ mwf noFlag k.tilePoison = true) :
    mwf zeroByte (k.tileWriteTagged a bs t).tile = true ∧ mwf noFlag (k.tileWriteTagged a bs t).tileTags = true ∧
      mwf noFlag (k.tileWriteTagged a bs t).tilePoison = true := by
  obtain ⟨h1, h2, h3⟩ := k.tileWrite_wf a bs false h
  exact ⟨h1, mwf_mset _ _ h2, h3⟩

/-! ## Reports -/

/-- All that a report can do (R346, R347): it joins the list that waits for its ring. -/
theorem State.post_cases (s : State) (r : Report) :
    (r.event = true ∧ s.post r = { s with erWait := s.erWait ++ [s.stamp r] }) ∨
      (r.event = false ∧ s.post r = { s with frWait := s.frWait ++ [s.stamp r] }) := by
  cases h : r.event <;> simp [State.post, h]

@[simp] theorem State.post_cores (s : State) (r : Report) : (s.post r).cores = s.cores := by unfold State.post; split <;> rfl
@[simp] theorem State.post_clusters (s : State) (r : Report) : (s.post r).clusters = s.clusters := by unfold State.post; split <;> rfl
@[simp] theorem State.post_regions (s : State) (r : Report) : (s.post r).regions = s.regions := by unfold State.post; split <;> rfl
@[simp] theorem State.post_dies (s : State) (r : Report) : (s.post r).dies = s.dies := by unfold State.post; split <;> rfl
@[simp] theorem State.post_mem (s : State) (r : Report) : (s.post r).mem = s.mem := by unfold State.post; split <;> rfl
@[simp] theorem State.post_memTags (s : State) (r : Report) : (s.post r).memTags = s.memTags := by unfold State.post; split <;> rfl
@[simp] theorem State.post_hostMem (s : State) (r : Report) : (s.post r).hostMem = s.hostMem := by unfold State.post; split <;> rfl
@[simp] theorem State.post_journal (s : State) (r : Report) : (s.post r).journal = s.journal := by unfold State.post; split <;> rfl
@[simp] theorem State.post_rs (s : State) (r : Report) : (s.post r).rs = s.rs := by unfold State.post; split <;> rfl
@[simp] theorem State.post_pending (s : State) (r : Report) : (s.post r).pending = s.pending := by unfold State.post; split <;> rfl

end Sys2Proof.Machine
end

