-- ==== Sys2Proof/Laws/Memory.lean ====
section
/-! SUPPORT. What the operations over device and host memory keep, and the laws of the command journal. -/

namespace Sys2Proof.Machine

/-- The byte memories of the package are in the canonical form. -/
def State.memWf (s : State) : Prop := mwf zeroByte s.mem = true ∧ mwf noFlag s.memTags = true ∧ mwf zeroByte s.hostMem = true

/-- The canonical form speaks of three fields only. -/
theorem State.memWf_of_eq {s t : State} (h : s.memWf) (h1 : t.mem = s.mem) (h2 : t.memTags = s.memTags) (h3 : t.hostMem = s.hostMem) : t.memWf := by
  unfold State.memWf; rw [h1, h2, h3]; exact h

theorem State.post_memWf {s : State} (r : Report) (h : s.memWf) : (s.post r).memWf := State.memWf_of_eq h (by simp) (by simp) (by simp)

theorem State.regionReport_memWf {s : State} (r : RegionId) (code : BitVec 16) (e : Bool) (a : W64) (d : BitVec 128) (h : s.memWf) :
    (s.regionReport r code e a d).memWf := State.post_memWf _ h

theorem State.placeCount_memWf {s : State} (p : Place) (o n : Nat) (h : s.memWf) : (s.placeCount p o n).memWf := h

theorem State.setBlockPoison_memWf {s : State} (b : Nat) (v : Bool) (h : s.memWf) : (s.setBlockPoison b v).memWf := h

theorem State.clearTags_memWf {s : State} (a n : Nat) (h : s.memWf) : (s.clearTags a n).memWf :=
  ⟨h.1, mwf_foldl_mset _ _ _ _ h.2.1, h.2.2⟩

/-- R269: a write of one block keeps the canonical form. -/
theorem State.writeCells_memWf {s : State} (b : Nat) (cells : List (Nat × Byte)) (p : Bool) (h : s.memWf) : (s.writeCells b cells p).memWf := by
  have h1 : ({ s with mem := cells.foldl (fun m x => mset zeroByte m x.1 x.2) s.mem,
                      memTags := cells.foldl (fun m x => mset noFlag m (x.1 / 16) false) s.memTags } : State).memWf :=
    ⟨mwf_foldl_mset cells (fun x => x.1) (fun _ x => x.2) _ h.1, mwf_foldl_mset cells (fun x => x.1 / 16) (fun _ _ => false) _ h.2.1, h.2.2⟩
  unfold State.writeCells
  simp only
  split
  · exact h
  split
  · exact h
  split
  · exact h1
  split
  · exact State.regionReport_memWf _ _ _ _ _ h1
  split
  · exact h1
  · exact h1

theorem writeBlocks_memWf (n : Nat) (s : State) (a : Nat) (bs : List Byte) (p : List Bool) (h : s.memWf) : (writeBlocks n s a bs p).memWf := by
  induction n generalizing s a bs p with
  | zero => exact h
  | succ n ih =>
    unfold writeBlocks
    split
    · exact h
    · exact ih _ _ _ _ (State.writeCells_memWf _ _ _ h)

theorem State.memWrite_memWf {s : State} (a : Nat) (bs : List Byte) (p : List Bool) (h : s.memWf) : (s.memWrite a bs p).memWf :=
  writeBlocks_memWf _ _ _ _ _ h

theorem State.memSetLine_memWf {s : State} (a : Nat) (d : LData) (h : s.memWf) : (s.memSetLine a d).memWf := by
  unfold State.memSetLine
  split
  · exact State.placeCount_memWf _ _ _ h
  · have h2 := State.writeCells_memWf (a / 32 + 1) (((leBytes 64 d.data.toNat).drop 32).zipIdx.map (fun x => (a + 32 + x.2, x.1)))
      (bitsOf d.poison.toNat 3 2 != 0)
      (State.writeCells_memWf (a / 32) (((leBytes 64 d.data.toNat).take 32).zipIdx.map (fun x => (a + x.2, x.1))) (bitsOf d.poison.toNat 1 0 != 0) h)
    exact ⟨h2.1, mwf_foldl_mset _ _ _ _ h2.2.1, h2.2.2⟩

/-- R282: accumulates keep the canonical form. -/
theorem accInto_memWf (op n : Nat) (s : State) (a : Nat) (bs : List Byte) (h : s.memWf) : (accInto op n s a bs).memWf := by
  induction n generalizing s a bs with
  | zero => exact h
  | succ n ih =>
    unfold accInto
    split
    · exact h
    · have h1 : ∀ w, ({ s.clearTags a 4 with mem := writeBytes zeroByte s.mem a w } : State).memWf :=
        fun w => ⟨mwf_writeBytes _ _ _ h.1, (State.clearTags_memWf a 4 h).2.1, h.2.2⟩
      apply ih
      split
      · exact State.placeCount_memWf _ _ _ (h1 _)
      · exact h1 _

theorem accBlocks_memWf (op n : Nat) (s : State) (a : Nat) (bs : List Byte) (p : List Bool) (f : Bool) (h : s.memWf) :
    (accBlocks op n s a bs p f).memWf := by
  induction n generalizing s a bs p f with
  | zero => exact h
  | succ n ih =>
    unfold accBlocks
    split
    · exact h
    · apply ih
      split
      · split
        · exact State.placeCount_memWf _ _ _ h
        · exact h
      split
      · exact State.placeCount_memWf _ _ _ (State.setBlockPoison_memWf _ _ h)
      · exact accInto_memWf _ _ _ _ _ h

/-- R281: whatever an accumulate does, the memories keep their form. -/
theorem State.memAcc_memWf {s : State} (op a : Nat) (bs : List Byte) (p : List Bool) (h : s.memWf) : (s.memAcc op a bs p).1.memWf := by
  unfold State.memAcc
  split
  · exact State.placeCount_memWf _ _ _ h
  · exact accBlocks_memWf _ _ _ _ _ _ _ h

theorem State.hostPut_memWf {s : State} (a : Nat) (bs : List Byte) (h : s.memWf) : (s.hostPut a bs).memWf :=
  ⟨h.1, h.2.1, mwf_writeBytes _ _ _ h.2.2⟩

/-- Host memory reads what was written to it, and every other byte as before. -/
theorem State.hostByte_hostPut (s : State) (a : Nat) (bs : List Byte) (i : Nat) :
    mget zeroByte (s.hostPut a bs).hostMem i = if h : a ≤ i ∧ i < a + bs.length then bs[i - a]'(by omega) else mget zeroByte s.hostMem i :=
  mget_writeBytes _ _ _ _ _

/-! ## The command journal (R338) -/

@[simp] theorem State.job_setJob (s : State) (j i : Nat) (x : JSlot) : (s.setJob j x).job i = if i = j then some x else s.job i := by
  have hk : ∀ y ∈ s.journal.filter (fun y => y.1 != j), y.1 ≠ j := fun y hy => by simpa using (List.mem_filter.mp hy).2
  unfold State.job State.setJob
  simp only [find_minsert _ _ _ _ hk]
  by_cases e : i = j
  · simp [e]
  · simp [e, find_filter_ne s.journal e]

theorem State.job_updJob (s : State) (j i : Nat) (f : JSlot → JSlot) :
    (s.updJob j f).job i = if i = j then (s.job i).map f else s.job i := by
  unfold State.updJob
  cases h : s.job j with
  | none => by_cases e : i = j <;> simp [e, h]
  | some x => by_cases e : i = j <;> simp [e, h]

end Sys2Proof.Machine
end

