-- ==== Sys2Proof/Tests/Slice0.lean ====
section
/-! SUPPORT. Tests: what WellFormed refuses, syllables written out from the spec's field tables, small results from the spec's
examples, and for every statement with hypotheses a state and operands that meet them, clause by clause. -/

set_option Elab.async false

namespace Sys2Proof.Tests
open Sys2Proof Sys2Proof.Machine

/-! ## Small states -/

/-- A capability over all of tile memory, with permissions p and address a (R155 to R157). -/
def tcap (a : Nat) (p : Nat := 0x3FF) : Cap := { bits := BitVec.ofNat 128 (a + 0x18000 * 2 ^ 64 + 6 * 2 ^ 98 + p * 2 ^ 104), tag := true }
/-- A capability over device addresses 0 to 2^47, without TILE: 2^16 units of 2^31 bytes. -/
def dcap (a : Nat) (p : Nat := 0x3DF) : Cap := { bits := BitVec.ofNat 128 (a + 0x10000 * 2 ^ 64 + 31 * 2 ^ 98 + p * 2 ^ 104), tag := true }

/-- A running core: gn holds n, the code at 0x1000 and the stacks lie in tile memory, every capability register covers it. -/
def tcore : Core :=
  { run := .running, g := .ofFn (fun i => BitVec.ofNat 64 i.val), scap := #v[tcap 0x1000, tcap 0x8000, tcap 0x9000, tcap 0x1800, tcap 0x1C00],
    c := .replicate 16 (tcap 0x2000) }
/-- A package of which every core is k. -/
def tk (k : Core) : State := { State.reset with cores := .replicate 64 k }
def trun : State := tk tcore
/-- What core 0 holds after a step, where the step answers a next state. -/
def after (o : Host.Outcome State Fault Refusal) : Core := match o with | .next t => t.core 0 | _ => {}
def afterS (o : Host.Outcome State Fault Refusal) : State := match o with | .next t => t | _ => {}
def extA0 : ExtA := ⟨0, 0, 0, false, 0⟩
def extM0 : ExtM := ⟨0, 0, 0, 0, 0, 0⟩
def vf0 : VF := ⟨0, 0, 0, 0, false, false⟩
def refuses (i : Instr) : Bool := !i.wf

/-! ## What WellFormed refuses -/

/-- Condition codes, widths, formats and permission numbers outside their tables (R134, R163, R164). -/
theorem test_wf_scalar :
    refuses (.cmp 0 1 2 3 6) ∧ refuses (.cmpi 0 1 2 6 0) ∧ refuses (.sext 0 1 2 3) ∧ refuses (.zext 0 1 2 3) ∧ refuses (.fcvt 0 1 2 6 0 0) ∧
      refuses (.fcvt 0 1 2 0 6 0) ∧ refuses (.fcvt 0 1 2 0 0 2) ∧ refuses (.capChk 0 1 2 3 12) ∧ refuses (.capRds 0 1 5) ∧ refuses (.capWrs 0 5 1) := by
  decide

/-- A capability register above c15, a destination of pf, the press immediates' reserved bits (R130, R136). -/
theorem test_wf_memory_press :
    refuses (.ldC 0 ⟨0, 16, 0, 0, 0⟩) ∧ refuses (.stC 0 ⟨0, 16, 0, 0, 0⟩) ∧ refuses (.pf 0 ⟨0, 1, 0, 0, 0⟩) ∧ refuses (.prArrive 0 8) ∧
      refuses (.prWait 0 4) ∧ refuses (.prSync 0 8) := by decide

/-- Vector fields that an instruction does not use must be 0 (R130, R151): registers, mask, Z, and each field of the extensions. -/
theorem test_wf_vector_fields :
    refuses (.vxSync 0 ⟨1, 0, 0, 0, false, false⟩) ∧ refuses (.vxSync 0 ⟨0, 0, 0, 1, false, false⟩) ∧ refuses (.vxSync 0 ⟨0, 0, 0, 0, false, true⟩) ∧
      refuses (.vxMv 0 ⟨0, 0, 1, 0, false, false⟩) ∧ refuses (.vxMv 0 ⟨0, 0, 0, 0, true, false⟩) ∧ refuses (.vxMand 0 ⟨8, 0, 0, 0, false, false⟩) ∧
      refuses (.vxMand 0 ⟨0, 8, 0, 0, false, false⟩) ∧ refuses (.vxMand 0 ⟨0, 0, 8, 0, false, false⟩) ∧ refuses (.vxMor 0 ⟨8, 0, 0, 0, false, false⟩) ∧
      refuses (.vxMxor 0 ⟨8, 0, 0, 0, false, false⟩) ∧ refuses (.vxMnot 0 ⟨0, 0, 1, 0, false, false⟩) ∧ refuses (.vxTqpop 0 ⟨1, 0, 0, 0, false, false⟩) ∧
      refuses (.vxCmp 0 ⟨8, 0, 0, 0, false, false⟩ extA0) ∧ refuses (.vxCmp 0 vf0 ⟨0, 0, 0, false, 7⟩) ∧ refuses (.vxCompress 0 ⟨0, 0, 0, 0, true, false⟩ extA0) ∧
      refuses (.vxExpand 0 ⟨0, 0, 0, 0, true, false⟩ extA0) ∧ refuses (.vxMpop 0 ⟨0, 0, 0, 0, false, true⟩ extM0) ∧ refuses (.vxMfirst 0 ⟨0, 0, 0, 0, true, false⟩ extM0) := by
  decide

/-- Arithmetic that names a field of extension A it does not use (R151). -/
theorem test_wf_vector_arith :
    refuses (.vxAdd 0 vf0 ⟨0, 1, 0, false, 0⟩) ∧ refuses (.vxSub 0 vf0 ⟨0, 0, 0, true, 0⟩) ∧ refuses (.vxMul 0 vf0 ⟨0, 0, 0, false, 1⟩) ∧
      refuses (.vxFma 0 vf0 ⟨0, 1, 0, false, 0⟩) ∧ refuses (.vxFms 0 vf0 ⟨0, 1, 0, false, 0⟩) ∧ refuses (.vxDiv 0 vf0 ⟨0, 1, 0, false, 0⟩) ∧
      refuses (.vxSqrt 0 ⟨0, 0, 1, 0, false, false⟩ extA0) ∧ refuses (.vxMax 0 vf0 ⟨0, 0, 1, false, 0⟩) ∧ refuses (.vxMin 0 vf0 ⟨0, 0, 1, false, 0⟩) ∧
      refuses (.vxAbs 0 ⟨0, 0, 1, 0, false, false⟩ extA0) ∧ refuses (.vxNeg 0 ⟨0, 0, 1, 0, false, false⟩ extA0) ∧ refuses (.vxCpsgn 0 vf0 ⟨0, 0, 1, false, 0⟩) ∧
      refuses (.vxRndi 0 ⟨0, 0, 1, 0, false, false⟩ extA0) ∧ refuses (.vxLdexp 0 vf0 ⟨0, 0, 0, false, 1⟩) ∧ refuses (.vxGetexp 0 ⟨0, 0, 1, 0, false, false⟩ extA0) ∧
      refuses (.vxTwosum 0 vf0 ⟨0, 1, 0, false, 0⟩) ∧ refuses (.vxMullo 0 vf0 ⟨0, 0, 0, false, 1⟩) ∧ refuses (.vxIadd 0 vf0 ⟨0, 0, 1, false, 0⟩) ∧
      refuses (.vxIsub 0 vf0 ⟨0, 0, 1, false, 0⟩) ∧ refuses (.vxAnd 0 vf0 ⟨0, 0, 1, false, 0⟩) ∧ refuses (.vxOr 0 vf0 ⟨0, 0, 1, false, 0⟩) ∧
      refuses (.vxXor 0 vf0 ⟨0, 0, 1, false, 0⟩) ∧ refuses (.vxShl 0 vf0 ⟨0, 0, 1, false, 0⟩) ∧ refuses (.vxShr 0 vf0 ⟨0, 0, 1, false, 0⟩) ∧
      refuses (.vxSra 0 vf0 ⟨0, 0, 1, false, 0⟩) ∧ refuses (.vxImin 0 vf0 ⟨0, 0, 1, false, 0⟩) ∧ refuses (.vxImax 0 vf0 ⟨0, 0, 1, false, 0⟩) ∧
      refuses (.vxImul 0 vf0 ⟨0, 0, 1, false, 0⟩) ∧ refuses (.vxPerm 0 vf0 ⟨0, 0, 0, false, 1⟩) := by decide

/-- The other vector forms, and the shapes of two events' operands. -/
theorem test_wf_vector_others :
    refuses (.vxSetvl 0 vf0 ⟨0, 0, 0, 0, 6, 0⟩) ∧ refuses (.vxLd 0 ⟨0, 0, 1, 0, false, false⟩ extM0) ∧ refuses (.vxSt 0 ⟨0, 0, 1, 0, false, false⟩ extM0) ∧
      refuses (.vxLds 0 ⟨0, 1, 0, 0, false, false⟩ extM0) ∧ refuses (.vxSts 0 ⟨0, 1, 0, 0, false, false⟩ extM0) ∧ refuses (.vxLdx 0 ⟨0, 1, 0, 0, false, false⟩ extM0) ∧
      refuses (.vxStx 0 ⟨0, 1, 0, 0, false, false⟩ extM0) ∧ refuses (.vxPackPnl 0 ⟨0, 1, 0, 0, false, false⟩ extM0) ∧ refuses (.vxTqrd 0 vf0 ⟨1, 0, 0, 0, 0, 0⟩) ∧
      refuses (.vxTqhdr 0 vf0 ⟨1, 0, 0, 0, 0, 0⟩) ∧ refuses (.vxBcst 0 vf0 ⟨0, 1, 0, 0, 0, 0⟩) ∧ refuses (.vxExt 0 ⟨1, 0, 0, 0, false, false⟩ extM0) ∧
      refuses (.vxIns 0 ⟨0, 1, 0, 0, false, false⟩ extM0) ∧ refuses (.vxShuf 0 vf0 ⟨0, 0, 0, false, 6⟩) ∧ refuses (.vxPack 0 vf0 ⟨0, 0, 1, false, 0⟩) ∧
      refuses (.vxUnpack 0 ⟨0, 0, 1, 0, false, false⟩ extA0) ∧ refuses (.vxCvt 0 vf0 ⟨0, 0, 0, false, 1⟩) ∧ refuses (.vxSlc 0 vf0 ⟨0, 1, 0, 0, 0, 0⟩) ∧
      refuses (.vxWrd 0 ⟨0, 0, 1, 0, false, false⟩ extM0) ∧ refuses (.vxDraw 0 ⟨0, 1, 0, 0, false, false⟩ extA0) ∧ refuses (.vxDrawu 0 ⟨0, 1, 0, 0, false, false⟩ extA0) ∧
      refuses (.vxRsum 0 ⟨1, 0, 0, 0, false, false⟩ extM0) ∧ refuses (.vxRsumB 0 vf0 ⟨0, 0, 1, false, 0⟩) ∧ refuses (.vxRmax 0 ⟨1, 0, 0, 0, false, false⟩ extM0) ∧
      refuses (.vxRmaxB 0 vf0 ⟨0, 0, 1, false, 0⟩) ∧ refuses (.vxRmin 0 ⟨1, 0, 0, 0, false, false⟩ extM0) ∧ refuses (.vxRminB 0 vf0 ⟨0, 0, 1, false, 0⟩) ∧
      refuses (.vxRsumi 0 ⟨1, 0, 0, 0, false, false⟩ extM0) ∧ refuses (.vxRsumiB 0 vf0 ⟨0, 0, 1, false, 0⟩) ∧ refuses (.vxRmaxBlk 0 vf0 ⟨0, 0, 1, false, 0⟩) ∧
      refuses (.vxRsumBlk 0 vf0 ⟨0, 0, 1, false, 0⟩) ∧ refuses (.registerWrite .host .bar0 4 8 0) ∧ refuses (.registerWrite .host .bar0 4 2 0) ∧ refuses (.mcRequestArrival 0 ⟨.host, .read, none, 0, 257, [], [], false⟩) ∧
      refuses (.mcRequestArrival 0 ⟨.host, .read, none, 255, 2, [], [], false⟩) := by decide

/-! ## Syllables written out from the spec's field tables: slot, body [27:0], extension body -/

def reads (slot b : Nat) (x : Option Nat) (i : Instr) : Bool := match decodeSyl 0 slot b x with | .ok j => j == i | _ => false

/-- Slots 0 to 4: opcode and fields as R133, R134, R136 and R147 place them. -/
theorem test_decode_scalar :
    reads 0 0 none (.nop 0) ∧
    reads 0 0b000001_1111111111111111111110 none (.br 0 (-2)) ∧
    reads 0 0b001000_000101_110_0000000000011 none (.bc 0 5 6 3) ∧
    reads 0 0b010000_1_000111_00_0000000001000 none (.lpSet 0 1 7 8) ∧
    reads 0 0b011001_000011_0000_001100000110 none (.ctlWr 0 3 0x306) ∧
    reads 1 0b000001_000001_000010_000011_0000 none (.sub 0 1 2 3) ∧
    reads 2 0b010000_000001_000010_1111111111 none (.addi 0 1 2 (-1)) ∧
    reads 1 0b001101_000001_000010_000011_0101 none (.cmp 0 1 2 3 5) ∧
    reads 1 0b111_1_10_000100_1000000000000001 none (.movK 0 4 true 2 0x8001) ∧
    reads 1 0b101111_000001_000010_100_001_00_01 none (.fcvt 0 1 2 4 1 1) ∧
    reads 3 0b0110_01_001101_0011_001010_000001 none (.ldD 0 ⟨1, 13, 3, 10, 1⟩) ∧
    reads 3 0b1100_00_001111_0000_000000_000010 none (.stC 0 ⟨0, 15, 0, 0, 2⟩) := by decide +kernel

/-- Slots 1 (capabilities) and 4 to 7: R147, R151, R152, R163, R189. -/
theorem test_decode_units :
    reads 1 0b110010_000011_000101_001001_0001 none (.capSetbo 0 3 5 9) ∧
    reads 1 0b110110_000001_000010_000011_0101 none (.capChk 0 1 2 3 5) ∧
    reads 4 0b000010_000101_000110_0000000000 none (.divS 0 5 6) ∧
    reads 5 0b1_0001000_00001_00010_00011_100_1_1 (some 0b0000_0000_10_0_00000_000000000000) (.vxAdd 0 ⟨1, 2, 3, 4, true, true⟩ ⟨0, 0, 2, false, 0⟩) ∧
    reads 5 0b1_0110000_00111_00000_00000_000_0_0 (some 0b0011_0101_000110_000000_00000_00_0) (.vxLd 0 ⟨7, 0, 0, 0, false, false⟩ ⟨3, 5, 6, 0, 0, 0⟩) ∧
    reads 5 0b0_1001010_00001_00010_00011_000_0_0 none (.vxMand 0 ⟨1, 2, 3, 0, false, false⟩) ∧
    reads 5 0b1_1010000_00001_00010_00011_000_0_0 (some 0b0001_0100_00_1_00000_000000000000) (.vxCvt 0 ⟨1, 2, 3, 0, false, false⟩ ⟨1, 4, 0, true, 0⟩) ∧
    reads 6 0b0010_1111_1_011_100_0000000000000 none (.mxAcc 0 15 true 3 4) ∧
    reads 6 0b0011_0001_0_001_010_011_100_1_000000 none (.mxAccs 0 1 false 1 2 3 4 true) ∧
    reads 7 0b000000_000010_000000_0011_000001 none (.txLast 0 1 3 2) ∧
    reads 7 0b001010_000000_000000_0000_000110 none (.prSync 0 6) ∧
    reads 7 0b001101_000010_000000_0011_000000 none (.mgRot 0 3 2) := by decide +kernel

/-- What no table names raises 0x1011, and a missing or superfluous extension 0x1010 (R130, R133, R134, R136, R151). -/
theorem test_decode_refused :
    (decodeSyl 0 0 (0x3F * 2 ^ 22) none = .reserved) ∧ (decodeSyl 0 1 (0x3 * 2 ^ 26 + 0xF * 2 ^ 22) none ≠ .ok (.nop 0)) ∧
    (decodeSyl 0 3 (0xE * 2 ^ 24) none = .reserved) ∧ (decodeSyl 0 0 1 none = .reserved) ∧
    (decodeSyl 0 5 (8 * 2 ^ 20) none = .illegal) ∧ (decodeSyl 0 5 (2 ^ 27 + 1 * 2 ^ 20) (some 0) = .illegal) := by decide +kernel

/-! ## Results -/

def run1 (i : Instr) : Core := after (exec i trun)
def withG (k : Core) (r : GReg) (v : W64) : Core := k.setG r v

/-- R135: addi wraps modulo 2^64; with the overflow trap it faults 0x1031 and gD keeps its value. -/
theorem test_addi :
    (run1 (.addi 0 1 0 (-1))).getG 1 = 0xFFFFFFFFFFFFFFFF ∧
    (let k := after (exec (.addi 0 5 3 1) (tk ((tcore.setG 3 0x7FFFFFFFFFFFFFFF).setReg 0x1600 2)))
     k.exc.map Exc.code = some 0x1031 ∧ k.getG 5 = 5) := by decide +kernel

/-- R138: g0 reads 0 and discards writes; R134: sel, cmp.lt and sra by hand. -/
theorem test_alu :
    (run1 (.addi 0 0 3 1)).getG 0 = 0 ∧ (run1 (.sel 0 9 0 3)).getG 9 = 9 ∧ (run1 (.sel 0 9 1 3)).getG 9 = 3 ∧ (run1 (.cmp 0 9 3 4 2)).getG 9 = 1 ∧
    (after (exec (.sra 0 9 3 2) (tk (tcore.setG 3 0x8000000000000000)))).getG 9 = 0xE000000000000000 := by decide +kernel

/-- R149: CRC-32C of "123456789" is 0xE3069283 (the polynomial's published check value), eight bytes and then one. -/
theorem test_crc32c :
    (crcStep (crcStep 0xFFFFFFFF 0x3837363534333231 8 polyCrc32c) 0x39 1 polyCrc32c) ^^^ 0xFFFFFFFF = 0xE3069283 := by decide +kernel

/-- R136, R143: the bytes of a store drain to tile memory and a signed byte load extends them. -/
theorem test_store_load :
    (let s := afterS (exec (.stB 0 ⟨0, 7, 0, 32, 0⟩) (tk (tcore.setG 7 0x80)))
     let s := afterS (exec (.storeDrain 0 []) s)
     (s.core 0).tileByte 32 = 0x80 ∧ (after (exec (.ldB 0 ⟨0, 9, 0, 32, 0⟩) s)).getG 9 = 0xFFFFFFFFFFFFFF80) := by decide +kernel

/-- R147: a division by zero sends MLO = 0 and MHI = gA. -/
theorem test_divide_by_zero : (run1 (.divU 0 7 0)).products = [⟨0, 7, true⟩] := by decide +kernel

/-- Chapter 07's example: the frame of a divide trap at 0x5E_FA00, and the return past the bundle with SKIP = 1. -/
def trapCore : Core :=
  { tcore with scap := #v[tcap 0x4010, tcap 0x8000, tcap 0x5F0000, tcap 0x1800, tcap 0x1C00], exc := some { cls := 0, code := 0x1030, len := 2 } }
theorem test_divide_trap :
    (let k := after (exec (.exceptionEntry 0 []) (tk trapCore))
     k.escap.addr = 0x5EFA00 ∧ k.depth = 1 ∧ k.pcc.addr = 0x1800 ∧ k.held = none) ∧ trapCore.tagMask = 0x3FFFF ∧
    (let h := trapCore.frameHeader { cls := 0, code := 0x1030, len := 2 } 0 0x3FFFF
     h.length = 64 ∧ numAt h 4 2 = 0x1030 ∧ numAt h 6 1 = 0 ∧ numAt h 7 1 = 2 ∧ numAt h 32 3 = 0x3FFFF) ∧
    (let k : Core := { tcore with tile := writeBytes zeroByte (writeBytes zeroByte [] 0x9004 [0x30, 0x10, 0, 2]) 0x9040 (leBytes 16 (tcap 0x4010).bits.toNat) }
     ((k.setFld 0x1610 1 1 1).restore 0 0x9000).pcc.addr = 0x4018 ∧ (k.restore 0 0x9000).pcc.addr = 0x4010) := by decide +kernel

/-- Chapter 09's example: the three entries of a walk, and its leaf. -/
def walkMem : State :=
  ((({ State.reset with dies := .replicate 2 (({} : Die).setReg 0x500018 (0x4000 * 2 ^ 16 + 1)) } : State).memWrite 0x40000010 (leBytes 8 0x40010001)).memWrite
    0x40010040 (leBytes 8 0x40010101)).memWrite 0x40010108 (leBytes 8 0x80A2000007)
theorem test_walk :
    (let r := walkFrom (fun a => (leNat (walkMem.memRead a 8), false)) 3 0x1202000000 3 0 0x40000000
     r.fault = none ∧ r.leaf.base = 0x80A2000000 ∧ r.leaf.sh = 25 ∧ r.leaf.w = true ∧ r.leaf.x = false) ∧
    invHits 0x0042000003000901 3 0x1202000000 (2 ^ 25) = true ∧ invHits 0x0042000003000901 3 0x1204000000 (2 ^ 25) = false := by decide +kernel

/-- R16: where device memory of each die ends, and the next package's offsets begin. -/
theorem test_map : paKind 0x4FFFFFFFFF = .dev ∧ paKind 0x5000000000 ≠ .dev ∧ paKind 0x8000000000 = .dev := by decide +kernel

/-- Chapter 18's example, step 2: 1,220 W in the 1,150 W class moves the divider to 9. -/
theorem test_power :
    (let s := afterS (exec (.powerSample 1220 true) { State.reset with straps := { State.reset.straps with pwrClass := 1 } })
     s.divNow = 1 ∧ s.erWait.map Report.code = [0xE030]) := by decide +kernel

/-! ## Witnesses: the scalar processor. Each names the statement whose hypotheses it meets, clause by clause. -/

def ovCore : Core := ((tcore.setG 3 0x7FFFFFFFFFFFFFFF).setG 4 0x8000000000000000).setReg 0x1600 2
def ov : State := tk ovCore

theorem witness_AluRegisterForms :
    aluRegs.all (fun x => trun.takes 0 (x.1 0 1 2 3)) = true ∧ trun.takes 0 (.sel 0 1 2 3) = true ∧ trun.takes 0 (.add 0 1 2 3) = true ∧
    (ov.core 0).fld rARITHCTL 1 1 = 1 ∧ (trun.core 0).fld rARITHCTL 1 1 = 0 ∧
    ov.takes 0 (.add 0 5 3 1) = true ∧ ¬(ovCore.getG 3).toInt + (ovCore.getG 1).toInt < 2 ^ 63 ∧
    ov.takes 0 (.sub 0 5 4 1) = true ∧ ¬-2 ^ 63 ≤ (ovCore.getG 4).toInt - (ovCore.getG 1).toInt ∧
    ov.takes 0 (.addi 0 5 3 1) = true ∧ ¬(ovCore.getG 3).toInt + ((1 : BitVec 10).signExtend 64).toInt < 2 ^ 63 ∧
    -2 ^ 63 ≤ (ovCore.getG 3).toInt + 0 ∧ (ovCore.getG 3).toInt + 0 < 2 ^ 63 ∧ -2 ^ 63 ≤ (ovCore.getG 4).toInt - 0 ∧ (ovCore.getG 4).toInt - 0 < 2 ^ 63 := by
  decide +kernel

theorem witness_AluImmediateForms :
    [Instr.andi 0 1 2 (-1), .ori 0 1 2 511, .xori 0 1 2 512, .shli 0 1 2 63, .shri 0 1 2 0, .srai 0 1 2 63, .cmpi 0 1 2 0 31, .cmpi 0 1 2 5 32, .clz 0 1 2,
      .ctz 0 1 2, .popc 0 1 2, .parity 0 1 2, .brev 0 1 2 63, .sext 0 1 2 0, .sext 0 1 2 2, .zext 0 1 2 2, .crc32c 0 1 2 3 3, .crc64 0 1 2 3 0, .mfm 0 1 true,
      .movK 0 1 false 3 0xFFFF, .ctlRd 0 1 0xFFF].all (trun.takes 0) = true ∧ (1 : Nat) ≠ 0 ∧ 2 ^ 64 - 1 < 2 ^ 64 := by decide +kernel

theorem witness_ScalarFloat :
    [Instr.fcmp 0 1 2 3 0 3, .fmax 0 1 2 3 1, .fmin 0 1 2 3 3, .fcvt 0 1 2 4 5 1].all (trun.takes 0) = true := by decide +kernel

/-- The slot at RSCAP's address holds 0x1000. -/
def retCore : Core := { tcore with tile := [(0x8001, 0x10)] }
theorem witness_Branches :
    trun.takes 0 (.nop 0) = true ∧
    tcore.targetOk (BitVec.ofInt 64 ((tcore.pc : Int) + 4 * (0 : BitVec 22).toInt)).toNat = true ∧
    tcore.targetOk (BitVec.ofInt 64 ((tcore.pc : Int) + 4 * (-1 : BitVec 22).toInt)).toNat = true ∧
    [Instr.br 0 0, .br 0 (-1), .call 0 0, .call 0 (-1)].all (trun.takes 0) = true ∧
    tcore.retSlotOk ((tcore.rscap.addr : Int) - 8) = true ∧
    tcore.targetOk (tcore.getG 12).toNat = true ∧ trun.takes 0 (.jr 0 12) = true ∧ trun.takes 0 (.callr 0 12) = true ∧
    retCore.retSlotOk retCore.rscap.addr = true ∧ retCore.targetOk (retCore.tileNat retCore.rscap.addr 8) = true ∧ (tk retCore).takes 0 (.ret 0) = true ∧
    bcHolds 0 (tcore.getG 1) = false ∧ bcHolds 0 (tcore.getG 0) = true ∧ trun.takes 0 (.bc 0 1 0 4095) = true ∧ trun.takes 0 (.bc 0 0 0 4095) = true ∧
    tcore.targetOk (BitVec.ofInt 64 ((tcore.pc : Int) + 4 * (4095 : BitVec 13).toInt)).toNat = true := by decide +kernel

/-- The bundle at 0x1008 is one nop (0x80000000, its STOP bit set). -/
def nopCore : Core := { tcore with tile := [(0x1003, 0x80), (0x100B, 0x80)] }
def loopCore (n : Nat) (cnt : W64) : Core := ((tcore.setReg (rLC n) cnt).setReg (rLE n) 0x1000).setReg (rLS n) 0x0FF0
theorem witness_CountedLoops :
    tcore.getG 5 ≠ 0 ∧ trun.takes 0 (.lpSet 0 1 5 8191) = true ∧ tcore.getG 0 = 0 ∧
    ((tk nopCore).fetchAt 0 0x1008).toOption = some [0x80000000] ∧ nopCore.targetOk 0x100C = true ∧ (tk nopCore).takes 0 (.lpSet 0 0 0 2) = true ∧
    tcore.reg (rLC 0) = 0 ∧ tcore.reg (rLC 1) = 0 ∧
    ((loopCore 0 2).reg (rLE 0)).toNat = (loopCore 0 2).pc ∧ 1 < ((loopCore 0 2).reg (rLC 0)).toNat ∧ (loopCore 0 2).reg (rLC 1) = 0 ∧ (loopCore 0 1).reg (rLC 0) = 1 ∧
    ((loopCore 1 2).reg (rLE 1)).toNat = (loopCore 1 2).pc ∧ 1 < ((loopCore 1 2).reg (rLC 1)).toNat ∧ (loopCore 1 2).reg (rLC 0) = 0 ∧ (loopCore 1 1).reg (rLC 1) = 1 := by
  decide +kernel

def oneStore (a : Nat) (bs : List Byte) (cap : Option Bool := none) : StoreE :=
  { bytes := (bytesAt .tile a bs.length).zip bs, ctx := 0, nc := false, cap := cap, va := BitVec.ofNat 64 a }
def storing : Core := { tcore with storeBuf := [oneStore 0x20 [1, 2, 3, 4]] }
/-- Code without SYS: every permission but bit 6. -/
def user : Core := { tcore with scap := #v[tcap 0x1000 0x3BF, tcap 0x8000, tcap 0x9000, {}, {}] }
theorem witness_ControlInstructions :
    trun.takes 0 (.sys 0 0xFFFF) = true ∧ tcore.storeBuf = [] ∧ tcore.lateLoads = [] ∧ trun.takes 0 (.fence 0) = true ∧
    storing.storeBuf ≠ [] ∧ (tk storing).takes 0 (.fence 0) = true ∧ (tcore.setReg 0x1618 0x80).fld 0x1618 7 0 ≠ 0 ∧ (tk (tcore.setReg 0x1618 0x80)).takes 0 (.idle 0) = true ∧
    tcore.fld 0x1618 7 0 = 0 ∧ trun.takes 0 (.idle 0) = true ∧
    user.pcc.perm pSYS = false ∧ ¬((user.getG 1).toNat &&& 0xFF01 = (user.reg 0x1610).toNat &&& 0xFF01) ∧ 0x1000 + 8 * (0xC2 : BitVec 12).toNat = 0x1610 ∧
    (tk user).takes 0 (.ctlWr 0 1 0xC2) = true ∧ ((user.getG 2).toNat &&& 0xFF01 = (user.reg 0x1610).toNat &&& 0xFF01) ∧ (tk user).takes 0 (.ctlWr 0 2 0xC2) = true ∧
    tcore.pcc.perm pSYS = true ∧ 0x1000 + 8 * 0xA2 = 0x1510 ∧ 0x1000 + 8 * 0xC6 = 0x1630 ∧ [Instr.ctlWr 0 3 0xA2, .ctlWr 0 3 0xA3, .ctlWr 0 3 0xA4, .ctlWr 0 3 0xA5, .ctlWr 0 3 0xC6].all (trun.takes 0) = true ∧
    0x1000 + 8 * 0xA6 = 0x1530 ∧ 0x1000 + 8 * 0xA9 = 0x1548 ∧ [Instr.ctlWr 0 3 0xA6, .ctlWr 0 3 0xA7, .ctlWr 0 3 0xA8, .ctlWr 0 3 0xA9].all (trun.takes 0) = true := by
  decide +kernel

/-- c0 usable with every permission, c1 a sealer of kind 14, c2 sealed with kind 14, c3 untagged, c4 with an odd address, c5 without TILE or ESTK, c6 a sealer of
kind 15. -/
def capCore : Core :=
  (((((tcore.setC 1 (tcap 14)).setC 2 ((tcap 0x2000).setSeal 14)).setC 3 {}).setC 4 (tcap 0x2001)).setC 5 (tcap 0x2000 0x0DF)).setC 6 (tcap 15)
def capSt : State := tk (((capCore.setG 20 0x20000).setG 21 0x600000).setG 22 0x20001)
def sealer (y : Cap) : Bool := y.usable && y.perm pSEAL && decide (1 ≤ y.addr) && decide (y.addr ≤ 14)
theorem witness_Capabilities :
    [Instr.capGetf 0 1 0 7, .capSeta 0 7 0 5, .capAdda 0 7 0 5, .capMv 0 7 0, .capClrt 0 7 0, .capAndp 0 7 0 5, .capSeal 0 7 0 1, .capUnseal 0 7 2 1, .capChk 0 1 0 5 11,
      .capRds 0 7 0, .capRds 0 7 4, .capWrs 0 1 0, .capWrs 0 4 0, .capWrs 0 2 0, .capSetb 0 7 0 5, .capSetbo 0 7 4 22].all (capSt.takes 0) = true ∧
    (capCore.getC 0).usable = true ∧ (capCore.getC 3).usable = false ∧ (capCore.getC 2).usable = false ∧ sealer (capCore.getC 1) = true ∧ sealer (capCore.getC 6) = false ∧
    (capCore.getC 2).tagged = true ∧ (capCore.getC 2).seal = (capCore.getC 1).addr ∧ (capCore.getC 0).seal ≠ (capCore.getC 1).addr ∧ (capCore.getC 3).tagged = false ∧
    capCore.pcc.perm pSYS = true ∧ user.pcc.perm pSYS = false ∧ (tk user).takes 0 (.capRds 0 7 1) = true ∧ (tk user).takes 0 (.capRds 0 7 2) = true ∧ (tk user).takes 0 (.capWrs 0 1 0) = true ∧
    ¬((capCore.getC 5).perm pESTK = true ∧ (capCore.getC 5).tile = true) ∧ capSt.takes 0 (.capWrs 0 2 5) = true ∧
    (capCore.getC 0).perm pESTK = true ∧ (capCore.getC 0).tile = true ∧
    leastE 0x20000 = 1 ∧ leastE 0x1FFFF = 0 ∧ (0x20000 : Nat) < 2 ^ 64 ∧
    (capCore.getC 4).usable = true ∧ (capCore.getC 4).addr % 2 ^ leastE 0x20000 ≠ 0 ∧ capSt.takes 0 (.capSetb 0 7 4 20) = true ∧
    (capCore.getC 0).addr % 2 ^ leastE 0x20000 = 0 ∧ (capCore.getC 0).base ≤ (capCore.getC 0).addr ∧ (capCore.getC 0).addr + 0x20000 ≤ (capCore.getC 0).top ∧
    ¬(capCore.getC 0).addr + 0x600000 ≤ (capCore.getC 0).top ∧ (capCore.getC 0).addr % 2 ^ leastE 0x600000 = 0 ∧ 0x600000 % 2 ^ leastE 0x600000 = 0 ∧
    capSt.takes 0 (.capSetb 0 7 0 20) = true ∧ capSt.takes 0 (.capSetb 0 7 0 21) = true ∧ capSt.takes 0 (.capSetbo 0 7 0 21) = true := by decide +kernel

/-- A package whose context 0 is enabled and maps VA 0 to 32 MiB onto device memory at 0, in every core's translation buffer. -/
def ctx0 (k : Core) : State :=
  { (tk { k with tlb := [{ ctx := 0, sh := 25, vpn := 0, base := 0, w := true, x := true, nc := false, host := false }] }) with
    dies := .replicate 2 { (({} : Die).setReg 0x500000 1) with masks := [(0, 1)] } }
def devCore : Core := { tcore with c := .replicate 16 (dcap 0x2000) }
def mf (gD gA : GReg) (cM : CReg := 0) : MemF := ⟨0, gD, cM, gA, 0⟩
/-- g40 names the last doubleword before the emergency area, g41 the area, g42 an odd address. -/
def memCore : Core := ((tcore.setG 40 0x5FFDF8).setG 41 0x5FFE00).setG 42 0x21
def memSt : State := tk memCore

theorem witness_TileLoadsAndPrefetch :
    (ctx0 devCore).frameOk (some (devCore.getC 0).ctx) (64 * 0) = true ∧ (devCore.getC 0).ctx = 0 ∧
    loadForms.all (fun p => memSt.takes 0 (p.1 0 (mf 5 40))) = true ∧ (memCore.getC 0).allows [pLD] 0x5FFE00 1 = false ∧
    (memEa (mf 5 40) memCore 8).toNat = 0x5FFDF8 ∧ (memCore.getC 0).allows [pLD] 0x5FFDF8 8 = true ∧ (memCore.getC 0).tile = true ∧ 0x5FFDF8 + 8 ≤ Config.tileBytes ∧
    memCore.youngest (bytesAt .tile 0x5FFDF8 8) = none ∧
    storing.youngest (bytesAt .tile 0x20 4) = some (oneStore 0x20 [1, 2, 3, 4]) ∧ (bytesAt .tile 0x20 4).all (oneStore 0x20 [1, 2, 3, 4]).has = true ∧ storing.fld 0x1508 0 0 = 1 ∧
    storing.youngest (bytesAt .tile 0x23 2) = some (oneStore 0x20 [1, 2, 3, 4]) ∧ (bytesAt .tile 0x23 2).all (oneStore 0x20 [1, 2, 3, 4]).has = false ∧
    (tk storing).takes 0 (.ldH 0 (mf 5 32)) = true ∧
    (memEa (mf 5 42) memCore 16).toNat % 16 ≠ 0 ∧ memSt.takes 0 (.ldC 0 (mf 5 42)) = true ∧
    (memEa (mf 5 41) memCore 16).toNat % 16 = 0 ∧ (memCore.getC 0).allows [pLD] 0x5FFE00 16 = false ∧ memSt.takes 0 (.ldC 0 (mf 5 41)) = true ∧
    (memCore.getC 0).allows [pLD] 0x20 16 = true ∧ memSt.takes 0 (.ldC 0 (mf 15 32)) = true ∧
    memSt.takes 0 (.pf 0 (mf 0 32)) = true ∧ (devCore.getC 0).tile = false ∧ (devCore.getC 0).allows [pLD] 32 64 = true ∧ (ctx0 devCore).takes 0 (.pf 0 (mf 0 0)) = true ∧
    (match ((ctx0 devCore).retired 0 (.pf 0 (mf 0 0)) (memApply (mf 0 0) 64 devCore)).xlateSpan 0 0 0 64 .load with
      | .ok x => cacheable x && lineKeys x.bytes == [0] | .error _ => false) = true := by decide +kernel

def fullBuf : Core := { memCore with storeBuf := List.replicate 8 (oneStore 0x20 [1]) }
/-- c1 may store but not store capabilities. -/
def noStc : Core := memCore.setC 1 (tcap 0x2000 0x3EF)
theorem witness_TileStores :
    storeForms.all (fun p => memSt.takes 0 (p.1 0 (mf 5 40))) = true ∧ storeForms.all (fun p => memSt.takes 0 (p.1 0 (mf 5 41))) = true ∧
    (memCore.getC 0).allows [pST] 0x5FFE00 1 = false ∧ (memCore.getC 0).allows [pST] 0x5FFDF8 8 = true ∧ 0x5FFDF8 + 8 ≤ Config.tileBytes ∧ memCore.storeBuf.length < 8 ∧
    8 ≤ fullBuf.storeBuf.length ∧ (tk fullBuf).takes 0 (.stD 0 (mf 5 40)) = true ∧
    memSt.takes 0 (.stC 0 (mf 5 42)) = true ∧ (memEa (mf 5 42) memCore 16).toNat % 16 ≠ 0 ∧ memSt.takes 0 (.stC 0 (mf 5 41)) = true ∧
    (memCore.getC 0).allows [pST] 0x5FFE00 16 = false ∧ (memCore.getC 0).allows [pST] 0x20 16 = true ∧ (memCore.getC 5).tagged = true ∧
    (noStc.getC 1).perm pSTC = false ∧ (noStc.getC 1).allows [pST] 0x20 16 = true ∧ (tk noStc).takes 0 (.stC 0 (mf 5 32 1)) = true ∧ (noStc.getC 0).perm pSTC = true := by
  decide +kernel

def dividing : Core := { tcore with products := [⟨0, 7, true⟩] }
/-- g3 holds −2^63 and g4 −1; both traps are enabled. -/
def trapsOn : Core := ((tcore.setG 3 0x8000000000000000).setG 4 0xFFFFFFFFFFFFFFFF).setReg 0x1600 3
theorem witness_MultiplyDivide :
    dividing.products.any Product.divide = true ∧ [Instr.mulS 0 1 2, .mulU 0 1 2, .divS 0 1 2, .divU 0 1 2].all ((tk dividing).takes 0) = true ∧
    tcore.products.any Product.divide = false ∧ [Instr.mulS 0 1 2, .mulU 0 1 2, .divS 0 1 2, .divU 0 1 2, .divS 0 1 0, .divU 0 1 0].all (trun.takes 0) = true ∧
    tcore.getG 0 = 0 ∧ tcore.getG 2 ≠ 0 ∧ tcore.fld 0x1600 1 0 = 0 ∧ trapsOn.fld 0x1600 0 0 = 1 ∧ trapsOn.fld 0x1600 1 1 = 1 ∧
    (trapsOn.getG 3).toInt = -2 ^ 63 ∧ (trapsOn.getG 4).toInt = -1 ∧ [Instr.divS 0 3 4, .divS 0 3 0, .divU 0 3 0].all ((tk trapsOn).takes 0) = true ∧
    (tk (trapsOn.setReg 0x1600 0)).takes 0 (.divS 0 3 4) = true := by decide +kernel

def bundled (k : Core) (ws : List W32) : State := tk { k with pq := [⟨0x1000, ws⟩] }
def goes : Issue → Bool | .go _ => true | _ => false
def faultsWith (code : BitVec 16) : Issue → Bool | .fault x _ => x == code | _ => false
/-- Whether the pieces of the fetched bundle meet p, where every hypothesis about fetching, decoding, readiness and waiting holds. -/
def fetched (s : State) (p : State → Nat → List Piece → Bool) : Bool :=
  (s.core 0).run == .running && (s.core 0).exc.isNone &&
  match s.fetchHead 0 with
  | .error _ => false
  | .ok (s1, ws) =>
    match bundleOf 0 ws with
    | .error _ => false
    | .ok l => let ps := l.map (fun (y : Syl) => y.piece 0); (s1.core 0).ready ps && ps.all (fun q => !q.waits (s1.core 0)) && (s1.core 0).loopOk && p s1 ws.length ps

/-- nop | addi g1, g2, 1 retires; nop | addi g5, g3, 1 faults 0x1031 under the overflow trap; addi alone is a bundle of one. -/
theorem witness_Bundles :
    fetched (bundled tcore [0, 0x94010801]) (fun s n ps => ps.length == 2 && ps.all (fun q => goes (q.issue n s 0))) = true ∧
    fetched (bundled ovCore [0, 0x94050C01]) (fun s n ps => (ps.take 1).all (fun q => goes (q.issue n s 0)) && (ps.drop 1).all (fun q => faultsWith 0x1031 (q.issue n s 0))) = true ∧
    fetched (bundled tcore [0x94010801]) (fun s n ps => n == syllablesOf (.addi 0 1 2 1) && ps.map some == [pieceOf (.addi 0 1 2 1)] && s.takes 0 (.addi 0 1 2 1)) = true := by
  decide +kernel

/-- Sources 0 and 7 pend and are enabled; source 3 pends but is masked. -/
def irqCore : Core := { tcore with run := .running }.setReg 0x1618 0x89 |>.setReg 0x1610 0x8101
theorem witness_ExceptionPriority :
    ({ tcore with exc := some { cls := 1, code := 5 } } : Core).exc = some { cls := 1, code := 5 } ∧ ({ tcore with haltReq := true } : Core).exc = none ∧
    irqCore.exc = none ∧ irqCore.haltReq = false ∧ irqCore.fld 0x1610 0 0 = 1 ∧ irqCore.fld 0x1608 1 0 ≤ 1 ∧ (irqCore.reg 0x1618).toNat.testBit 0 = true ∧
    (irqCore.reg 0x1610).toNat.testBit 8 = true ∧ (irqCore.reg 0x1618).toNat.testBit 7 = true ∧ (irqCore.reg 0x1610).toNat.testBit 15 = true ∧
    (irqCore.reg 0x1618).toNat.testBit 3 = true ∧ (irqCore.reg 0x1610).toNat.testBit 11 = false ∧ tcore.fld 0x1610 0 0 = 0 := by decide +kernel

def due0 (k : Core) : Core := { k with exc := some { cls := 0, code := 0x1030, len := 2 } }
/-- ESCAP at its lowest: a frame of 1,536 bytes at 0. -/
def lowCore (n : Nat) : Core := due0 (tcore.setScap 2 (tcap n))
theorem witness_ExceptionEntry :
    (lowCore 1536).due.isSome = true ∧ (lowCore 1536).run = .running ∧ (lowCore 1536).settled = true ∧ (lowCore 1536).heldInM = false ∧ (lowCore 1536).depth ≤ 1 ∧
    1536 ≤ (lowCore 1536).escap.addr ∧ (lowCore 1536).escapOk 0 = true ∧ (lowCore 1536).vq.length ≤ 8 ∧ (lowCore 1536).vStop [] 0 = lowCore 1536 ∧
    ((lowCore 1536).setFld 0x1608 1 0 1).depth = 1 := by decide +kernel

def deepCore : Core := (due0 tcore).setFld 0x1608 1 0 2
theorem witness_FrameFaults :
    deepCore.due.isSome = true ∧ deepCore.settled = true ∧ deepCore.heldInM = false ∧ deepCore.depth = 2 ∧
    (lowCore 1472).due.isSome = true ∧ (lowCore 1472).settled = true ∧ ¬1536 ≤ (lowCore 1472).escap.addr ∧
    (let k := tcore.setFld 0x1608 1 0 1
     k.storeBuf = [] ∧ k.vq = [] ∧ k.depth ≠ 0 ∧ (k.escapOk k.escap.addr && k.frameSound k.escap.addr && k.sealMatches k.escap.addr) = false ∧ (tk k).takes 0 (.eret 0) = true ∧
       k.fld 0x1608 2 2 = 0 ∧ (k.setFld 0x1608 2 2 1).fld 0x1608 2 2 = 1) := by decide +kernel

/-- A frame of zeros but for its version and its seal. -/
def framed : Core := { (tcore.setFld 0x1608 1 0 1) with tile := writeBytes zeroByte [(0x9000, 1)] 0x9028 (leBytes 8 0xbcbef92b5963e313) }
theorem witness_Eret :
    (tk storing).takes 0 (.eret 0) = true ∧ storing.storeBuf ≠ [] ∧ tcore.storeBuf = [] ∧ tcore.vq = [] ∧ tcore.depth = 0 ∧ trun.takes 0 (.eret 0) = true ∧
    framed.depth ≠ 0 ∧ framed.escapOk 0x9000 = true ∧ framed.frameSound 0x9000 = true ∧ framed.sealMatches 0x9000 = true ∧ (tk framed).takes 0 (.eret 0) = true := by
  decide +kernel

theorem witness_EntryThenReturn :
    tcore.depth ≤ 1 ∧ 1536 ≤ tcore.escap.addr ∧ tcore.escapOk (tcore.escap.addr - 1536) = true ∧ tcore.vq = [] := by decide +kernel

def tqHeld : Core := { tcore with held := some { why := .tqEmpty, syl := 0, slot := 5, len := 1, pop := false } } |>.setReg 0x1418 1
/-- Two lines with a stride of 1: the next ones are prefetched. -/
def strideCore : Core := { (tcore.setFld 0x1B00 2 2 1) with stride := [0x1000, 0x1040, 0x1080] }
theorem witness_CoreEvents :
    (tcore.setFld 0x1B00 2 2 0).fld 0x1B00 2 2 = 0 ∧ ((strideAhead strideCore.stride).getLast?).map (fun a => (ctx0 strideCore).frameOk (some strideCore.strideCtx) a) = some true ∧
    (tcore.setReg 0x1630 0).reg 0x1630 = 0 ∧ (tcore.setReg 0x1630 1).reg 0x1630 = 1 ∧ (trun.die 0).ts = 0 ∧ trun.trust.openScope < 2 ∧
    2 ≤ ({ State.reset.trust with scope := 2 } : Trust).openScope ∧ tcore.vq = [] ∧ dividing.products = [⟨0, 7, true⟩] ∧
    tqHeld.held.isSome = true ∧ tqHeld.queuesResult = false ∧ tqHeld.fld 0x1418 0 0 = 1 ∧ strideCore.fld 0x1B00 2 2 = 1 ∧
    (strideAhead strideCore.stride).getLast?.map paKind = some .dev := by decide +kernel

def lateTile : LateLoad := { toCap := false, reg := 5, size := 8, sx := false, keepTag := false, bytes := bytesAt .pa 0x40 8, ctx := 0, nc := false, va := 0x40 }
def lateSt : State := { (tk { tcore with lateLoads := [lateTile] }) with dies := .replicate 2 { masks := [(0, 1)] } }
theorem witness_LateLoadsAndStores :
    (lateSt.core 0).lateLoads[0]? = some lateTile ∧ lateTile.need = 0 ∧ lateTile.bytes.any remoteAddr = false ∧ (lateSt.loadGate 0 lateTile.bytes).isNone = true ∧
    lateSt.frameBad 0 lateTile.ctx lateTile.bytes = none ∧ lateTile.toCap = false ∧ lateTile.reg ≠ 0 ∧
    storing.storeBuf = [oneStore 0x20 [1, 2, 3, 4]] ∧ (oneStore 0x20 [1, 2, 3, 4]).bytes = (bytesAt .tile 0x20 4).zip [1, 2, 3, 4] ∧
    (oneStore 0x20 (List.replicate 16 7) (some true)).cap = some true ∧ 0x20 % 16 = 0 := by decide +kernel

/-! ## Witnesses: the vector engine -/

def vlCore (n : Nat) : Core := { tcore with vl := BitVec.ofNat 13 n }
def vEnt (i : Instr) (vl : Nat) (x y : W64 := 0) : VEntry :=
  { instr := i, vl := vl, hem := 0, x := x, y := y, beats := 0, drew := false, done := false, gval := 0 }
def vfull : Core := { tcore with vq := List.replicate 8 (vEnt (.vxMv 0 vf0) 1) }
def vfd (d a b : BitVec 5) : VF := ⟨d, a, b, 0, false, false⟩

/-- No check fails and the queue has room, or is full; the format check fails; VL is one above VLMAX. -/
theorem witness_VectorElementwiseIssue :
    [Instr.vxMax 0 vf0 ⟨0xB, 0, 0, false, 0⟩, .vxCmp 0 vf0 ⟨0xB, 0, 0, false, 0⟩, .vxRminB 0 vf0 ⟨0xB, 0, 0, false, 0⟩, .vxAdd 0 vf0 ⟨2, 0, 0, false, 0⟩, .vxIadd 0 vf0 ⟨3, 0, 0, false, 0⟩, .vxRsumiB 0 vf0 ⟨3, 0, 0, false, 0⟩,
      .vxGetexp 0 vf0 ⟨2, 0, 0, false, 0⟩].all (trun.takes 0) = true ∧
    floatForms.all (fun p => trun.takes 0 (p.1 0 vf0 extA0)) = true ∧ intForms.all (fun p => trun.takes 0 (p.1 0 vf0 extA0)) = true ∧
    [Instr.vxGetexp 0 vf0 extA0, .vxTwosum 0 (vfd 1 2 3) extA0, .vxMullo 0 vf0 extA0, .vxRsumB 0 vf0 extA0, .vxRsumiB 0 vf0 extA0, .vxDraw 0 vf0 ⟨0, 0, 0, false, 2⟩,
      .vxDrawu 0 vf0 ⟨0, 0, 0, false, 3⟩].all (trun.takes 0) = true ∧
    tcore.vq.length < 8 ∧ tcore.vl = 0 ∧ 8 ≤ vfull.vq.length ∧ (tk vfull).takes 0 (.vxAdd 0 vf0 extA0) = true ∧
    trun.takes 0 (.vxAdd 0 vf0 ⟨3, 0, 0, false, 0⟩) = true ∧ trun.takes 0 (.vxIadd 0 vf0 ⟨4, 0, 0, false, 0⟩) = true ∧ trun.takes 0 (.vxMullo 0 vf0 ⟨1, 0, 0, false, 0⟩) = true ∧
    trun.takes 0 (.vxTwosum 0 vf0 extA0) = true ∧ trun.takes 0 (.vxDraw 0 vf0 ⟨0, 0, 0, false, 1⟩) = true ∧
    vlmax 32 = 512 ∧ (vlCore 513).vl.toNat = 513 ∧ (tk (vlCore 513)).takes 0 (.vxAdd 0 vf0 extA0) = true ∧
    srDraws (vlCore 512) 2 = some (0, 64) ∧ srDraws tcore 0 = none := by decide +kernel

theorem witness_VectorOtherIssue :
    (tk vfull).takes 0 (.vxSetvl 0 vf0 ⟨0, 0, 5, 6, 2, 0⟩) = true ∧ 8 ≤ vfull.vq.length ∧ tcore.vq.length < 8 ∧ tcore.vl = 0 ∧ (vlCore 2).vl ≠ 0 ∧ (tcore.getG 6).toNat < vlmax (fmtWidth 0) ∧
    [Instr.vxPerm 0 (vfd 1 2 3) extA0, .vxShuf 0 (vfd 1 2 3) ⟨0, 0, 0, false, 5⟩, .vxCompress 0 (vfd 1 2 0) extA0, .vxExpand 0 (vfd 1 2 0) extA0, .vxPack 0 (vfd 1 2 3) ⟨2, 1, 0, false, 0⟩,
      .vxUnpack 0 (vfd 1 2 0) ⟨1, 2, 0, false, 0⟩, .vxMand 0 (vfd 1 2 3), .vxMor 0 (vfd 1 1 1), .vxMxor 0 (vfd 1 2 3), .vxMnot 0 (vfd 1 1 0), .vxMv 0 (vfd 1 2 0), .vxMpop 0 vf0 ⟨0, 0, 5, 0, 0, 0⟩,
      .vxMfirst 0 vf0 ⟨0, 0, 5, 0, 0, 0⟩, .vxBcst 0 vf0 extM0, .vxExt 0 vf0 ⟨0, 0, 5, 6, 0, 0⟩, .vxIns 0 vf0 ⟨0, 0, 5, 6, 0, 0⟩, .vxCvt 0 (vfd 1 2 3) ⟨0, 1, 0, false, 0⟩, .vxSlc 0 (vfd 1 2 3) extM0,
      .vxRsum 0 vf0 ⟨0, 0, 5, 0, 0, 0⟩, .vxRmax 0 vf0 ⟨0, 0, 5, 0, 0, 0⟩, .vxRmin 0 vf0 ⟨0, 0, 5, 0, 0, 0⟩, .vxRsumi 0 vf0 ⟨0, 0, 5, 0, 0, 0⟩, .vxSync 0 vf0, .vxSetvl 0 vf0 ⟨0, 0, 5, 6, 5, 0⟩,
      .vxPerm 0 vf0 ⟨15, 0, 0, false, 0⟩, .vxPerm 0 vf0 extA0, .vxCvt 0 vf0 ⟨10, 0, 0, false, 0⟩, .vxExt 0 vf0 ⟨0, 0, 5, 63, 0, 0⟩].all (trun.takes 0) = true ∧
    tcore.vq = [] ∧ vfull.vq ≠ [] ∧ (tk vfull).takes 0 (.vxSync 0 vf0) = true ∧ fmtOf 15 = none ∧ (fmtOf 0).isSome = true ∧ tcore.fld 0x1300 3 0 ≠ 0 ∧
    (tcore.setG 63 512).getG 63 = 512 ∧ (tk (tcore.setG 63 512)).takes 0 (.vxExt 0 vf0 ⟨0, 0, 5, 63, 0, 0⟩) = true := by decide +kernel

/-- One result of 64 bytes waits in the tile queue. -/
def tqCore : Core := { vlCore 32 with tileQueue := [⟨List.replicate 64 0, List.replicate 64 0⟩] }
def exm (fmt : BitVec 4) (gX gY : GReg) : ExtM := ⟨fmt, 0, gX, gY, 0, 0⟩
/-- An instruction in the queue writes v2. -/
def busyV : Core := { tcore with vq := [vEnt (.vxMv 0 (vfd 2 3 0)) 1] }
theorem witness_VectorMemoryIssue :
    [Instr.vxLd 0 vf0 (exm 0 32 0), .vxSt 0 vf0 (exm 0 32 0), .vxLds 0 vf0 (exm 0 32 4), .vxSts 0 vf0 (exm 0 32 4), .vxLdx 0 vf0 (exm 0 32 0), .vxStx 0 vf0 (exm 0 32 0), .vxWrd 0 vf0 (exm 0 32 4)].all
      ((tk (vlCore 2)).takes 0) = true ∧ [pLD, pST].all (fun p => (tcore.getC 0).tile && (tcore.getC 0).allows [p] 32 8 && (tcore.getC 0).allows [p] 32 (4 * 1 + 4)) = true ∧
    (tcore.getG 32).toNat = 32 ∧ (tcore.getG 4).toNat * (2 - 1) < 2 ^ 24 ∧ (tcore.getC 0).allows [pLD] 32 (80 * 2) = true ∧
    (List.range 2).all (fun j => elem 32 (tcore.vreg 0) j == 0 && (tcore.getC 0).allows [pLD] 32 4 && (tcore.getC 0).allows [pST] 32 4) = true ∧
    (tk (vlCore 32)).takes 0 (.vxPackPnl 0 vf0 (exm 3 32 4)) = true ∧ (vlCore 32).vl.toNat % 32 = 0 ∧
    (let lo := 32 + (panelPlace (fmtWidth 3) 4 0).1
     let hi := 32 + (panelPlace (fmtWidth 3) 4 31).1 + (if fmtWidth 3 = 6 then 3 else 4)
     (tcore.getC 0).allows [pST] lo (hi - lo) && decide (hi ≤ Config.tileBytes)) = true ∧ (tqCore.getG 0).toNat = 0 ∧ (tqCore.getG 7).toNat < 8 ∧
    [Instr.vxLd 0 vf0 (exm 0 32 0), .vxSt 0 vf0 (exm 0 32 0), .vxLds 0 vf0 (exm 0 32 4), .vxSts 0 vf0 (exm 0 32 4), .vxLdx 0 vf0 (exm 0 32 0), .vxStx 0 vf0 (exm 0 32 0),
      .vxPackPnl 0 vf0 (exm 3 32 0), .vxWrd 0 vf0 (exm 0 32 5), .vxTqrd 0 vf0 (exm 0 0 0), .vxTqhdr 0 vf0 (exm 0 5 7), .vxTqpop 0 vf0,
      .vxLd 0 vf0 (exm 15 32 0), .vxLds 0 vf0 (exm 15 32 4)].all ((tk tqCore).takes 0) = true ∧
    fmtOf 15 = none ∧ isMx 3 = true ∧ isMx 0 = false ∧ tqLeft tcore = 0 ∧ tqLeft tqCore ≠ 0 ∧ [Instr.vxTqrd 0 vf0 (exm 0 0 0), .vxTqhdr 0 vf0 (exm 0 5 7), .vxTqpop 0 vf0].all (trun.takes 0) = true ∧
    busyV.vq.any (fun e => ((vDep e.instr).wr &&& 2 ^ 2) != 0) = true ∧ (tk busyV).takes 0 (.vxLdx 0 (vfd 1 0 2) (exm 0 32 0)) = true ∧
    (memCore.getC 0).allows [pLD] 0x5FFDF8 8 = true ∧ (memCore.getC 0).allows [pLD] 0x5FFE00 128 = false ∧
    (tk { memCore with vl := 32 }).takes 0 (.vxLd 0 vf0 (exm 0 41 0)) = true := by decide +kernel

/-- v1 holds elements 1, 1, ...; v2 elements 3, 3, ...; the queue's head is the instruction, VL 2. -/
def vhead (i : Instr) (x y : W64 := 0) : Core :=
  { tcore with v := (Vector.replicate 32 0).set 1 (BitVec.ofNat 16384 0x300000003) |>.set 2 (BitVec.ofNat 16384 0x100000001), vq := [vEnt i 2 x y] }
theorem witness_VectorIntegerRetires :
    intForms.all (fun p => (vhead (p.1 0 (vfd 3 1 2) ⟨2, 0, 0, false, 0⟩)).vq.length == 1) = true ∧ (vEnt (.vxIadd 0 (vfd 3 1 2) ⟨2, 0, 0, false, 0⟩) 2).vl ≠ 0 ∧
    (vEnt (.vxIadd 0 (vfd 3 1 2) ⟨3, 0, 0, false, 0⟩) 256).vl ≤ vlmax (8 * 2 ^ 3) ∧ (2 : BitVec 4).toNat < 4 ∧
    (let q := after (exec (.vectorRetire 0 0 0) (tk (vhead (.vxIadd 0 (vfd 3 1 2) ⟨2, 0, 0, false, 0⟩))))
     elem 32 (q.vreg 3) 0 = 4 ∧ elem 32 (q.vreg 3) 1 = 4 ∧ elem 32 (q.vreg 3) 2 = 0) := by decide +kernel

theorem witness_VectorFloatRetires :
    (ffmtOf 0).map FFmt.width = some 32 ∧ (ffmtOf 2).isSome = true ∧ (vEnt (.vxAdd 0 (vfd 3 1 2) extA0) 512).vl ≤ vlmax 32 ∧ (vhead (.vxSqrt 0 (vfd 3 1 0) extA0)).vq.length = 1 := by
  decide +kernel

theorem witness_VectorMemoryFrame :
    (vhead (.vxSt 0 vf0 (exm 0 32 0)) 0x20).vq = [vEnt (.vxSt 0 vf0 (exm 0 32 0)) 2 0x20] ∧ (0x1F < 0x20 ∧ 0x20 + (2 * fmtWidth 0 + 7) / 8 ≤ 0x28) ∧
    (0x1F : Int) < 0x20 + 0 * 4 ∧ isMx 3 = true ∧ (vEnt (.vxSts 0 vf0 (exm 0 32 4)) 2 0x20 4).vl = 2 ∧ elem 32 ((vhead (.vxStx 0 (vfd 1 0 2) (exm 0 32 0)) 0x20).vreg 2) 1 = 1 := by
  decide +kernel

theorem witness_VectorGeneralResults :
    (vhead (.vxMpop 0 vf0 (exm 0 5 0))).vq.length = 1 ∧ (vEnt (.vxExt 0 vf0 (exm 0 5 6)) 2 0 511).y.toNat < vlmax (fmtWidth 0) ∧ intWidth 3 = some 64 ∧ intWidth 0 = some 8 ∧
    ({ vEnt (.vxTqhdr 0 vf0 (exm 0 5 7)) 2 with done := true } : VEntry).done = true := by decide +kernel

/-! ## Witnesses: the matrix arrays -/

/-- A tile of 32 × 32 FP32 elements whose welt lies at 0x100000: to the tile queue (DEST 1), and to tile memory at 0x40000 with rows of 128 bytes (DEST 0). -/
def tdQ : BitVec 256 := BitVec.ofNat 256 (0x40 + 31 * 2 ^ 8 + 31 * 2 ^ 13 + 0x100000 * 2 ^ 192)
def tdM : BitVec 256 := BitVec.ofNat 256 (31 * 2 ^ 8 + 31 * 2 ^ 13 + (0x40000 + 128 * 2 ^ 32) * 2 ^ 64 + 0x100000 * 2 ^ 192)
/-- Two INT8 K-blocks: the panel at 0x10000, its scales at 0x20000. -/
def odN : Nat := 8 + 1 * 2 ^ 8 + 0x10000 * 2 ^ 64 + 0x20000 * 2 ^ 128
def od : OpDesc := opDescOf odN
/-- Descriptors at 0x3000 (a tile's) and 0x3040 (an operand's); g50 and g51 name them, g52 is odd, g53 names a place where neither fits. -/
def mxCore : Core :=
  { ((((tcore.setG 50 0x3000).setG 51 0x3040).setG 52 0x3001).setG 53 0x5FFE00) with
    tile := writeBytes zeroByte (writeBytes zeroByte [] 0x3000 (leBytes 32 tdQ.toNat)) 0x3040 (leBytes 32 odN), md := .replicate 8 (some od) }
def mxSt : State := tk mxCore
def opened (a : Fin 4) (t : Fin 2) (d : BitVec 256) (k : Core) : Core := { k with tiles := k.tiles.set (tileIx a t).val (openedTile d) (tileIx a t).isLt }
def mxFull : Core := { mxCore with mq := List.replicate 8 { sq := 0, m := 1, t := 0, op := .close } }

theorem witness_MatrixIssue :
    mxCore.accS = 1 ∧ mxCore.accFull = false ∧ ({ mxCore with mxReserved := 1 } : Core).mxReserved &&& 1 ≠ 0 ∧ (tk { mxCore with mxReserved := 1 }).takes 0 (.mxClose 0 1 false) = true ∧
    [Instr.mxOpen 0 1 false 0 50, .mxOpen 0 1 false 0 52, .mxOpen 0 1 false 0 53, .mxOpen 0 0 false 0 50, .mxClose 0 1 false, .mxClose 0 0 true, .mxAcc 0 1 false 0 7, .mxAccs 0 1 false 0 7 0 0 false,
      .mxAccs 0 1 false 0 7 7 0 true].all (mxSt.takes 0) = true ∧
    BitVec.ofNat 256 (mxCore.tileNat 0x3000 64) = tdQ ∧ (tileSpanOk (mxCore.getC 0) pLD 0x3000 64) = true ∧ outFmtOk (dFmt tdQ) = true ∧ tileDescBad tdQ.toNat = false ∧
    tileDescSpansOk tdQ (mxCore.getC 0) = true ∧ mxCore.mxReserved = 0 ∧ (mxCore.slotAfter 0 0).1 = .free ∧ mxCore.weltBad tdQ 1 0 = false ∧ mxCore.mq.length < 8 ∧
    (tk (opened 0 0 tdQ mxCore)).takes 0 (.mxClose 0 1 false) = true ∧ ((opened 0 0 tdQ mxCore).slotAfter 0 0).1 = .opened ∧ (mxFull.slotAfter 0 0).1 ≠ .opened ∧ 8 ≤ mxFull.mq.length ∧
    (mxCore.md.get 7) = some od ∧ (tcore.md.get 0) = none ∧ trun.takes 0 (.mxAcc 0 1 false 0 7) = true ∧ trun.takes 0 (.mxAccs 0 1 false 0 7 0 0 false) = true ∧ od.fmt = 8 ∧
    (opened 0 1 tdQ mxCore).weltBad tdQ 1 0 = true := by decide +kernel

theorem witness_MatrixRegisters :
    (tk { mxCore with mxReserved := 8 }).takes 0 (.mxWait 0 5 3 true) = true ∧ ({ mxCore with mxReserved := 8 } : Core).mxReserved.getLsbD 3 = true ∧ mxCore.mxReserved.getLsbD 3 = false ∧ mxCore.mq.length < 8 ∧
    8 ≤ mxFull.mq.length ∧ mxFull.closePending 3 1 = false ∧ [Instr.mxLdd 0 7 0 51, .mxWait 0 5 3 true, .mxStat 0 5].all ((tk mxFull).takes 0) = true ∧
    [Instr.mxLdd 0 7 0 51, .mxLdd 0 7 0 52, .mxLdd 0 7 0 53, .mxWait 0 5 3 true, .mxStat 0 5].all (mxSt.takes 0) = true ∧ mxCore.tileNat 0x3040 32 = odN ∧
    tileSpanOk (mxCore.getC 0) pLD 0x3040 32 = true ∧ isMx od.fmt = true ∧ opDescBad odN = false ∧ od.spansOk (mxCore.getC 0) = true ∧
    mxCore.closePending 3 1 = false ∧ mxFull.closePending 0 0 = true ∧ (tk mxFull).takes 0 (.mxWait 0 5 0 false) = true ∧ mxCore.mq.length < 16 ∧ mxCore.tileQueue.length < 8 := by decide +kernel

def foldingCore : Core := { mxCore with shadows := .replicate 4 (some ⟨0, 0, 1, 1, 0, 0, true, [], [], [], []⟩) }
/-- A save area at 0x3000 whose header has version 1 and no tile or operation. -/
def savedCore : Core := { (tcore.setG 50 0x3000) with tile := [(0x3000, 1)] }
theorem witness_MatrixStopResume :
    8 ≤ mxFull.mq.length ∧ (tk mxFull).takes 0 (.mxStop 0 0 50) = true ∧ mxCore.mq.length < 8 ∧ foldingCore.mq.length < 8 ∧
    (tk { savedCore with mq := mxFull.mq }).takes 0 (.mxResume 0 0 50) = true ∧ ({ savedCore with mq := mxFull.mq } : Core).tileNat 0x3000 64 = 1 ∧
    tileSpanOk (mxCore.getC 0) pST 0x3000 132160 = true ∧ mxCore.stopWaits = false ∧ mxCore.mxReserved = 0 ∧ mxCore.stopOps.length ≤ 8 ∧ mxSt.takes 0 (.mxStop 0 0 50) = true ∧
    tileSpanOk (mxCore.getC 0) pST 0x5FFE00 132160 = false ∧ mxSt.takes 0 (.mxStop 0 0 53) = true ∧ foldingCore.stopWaits = true ∧ (tk foldingCore).takes 0 (.mxStop 0 0 50) = true ∧
    tileSpanOk (savedCore.getC 0) pLD 0x3000 132160 = true ∧ savedCore.tileNat 0x3000 64 = 1 ∧ (tk savedCore).takes 0 (.mxResume 0 0 50) = true ∧ mxSt.takes 0 (.mxResume 0 0 53) = true ∧
    mxCore.tileNat 0x3000 64 % 256 ≠ 1 ∧ mxSt.takes 0 (.mxResume 0 0 50) = true := by decide +kernel

def mqe (op : MOp) : MqE := { sq := 0, m := 1, t := 0, op := op }
theorem witness_MatrixStarts :
    ({ mxCore with mq := [mqe (.mopen tdQ 0x3000)] } : Core).mxFree 0 (mqe (.mopen tdQ 0x3000)) 0 = true ∧ mxCore.stopping = false ∧ named 1 = [0] ∧ (mxCore.tileAt 0 0).st = .free ∧
    mxCore.acc = none ∧ ({ mxCore with mq := [mqe (.acc od od none 0)] } : Core).mxFree 0 (mqe (.acc od od none 0)) 0 = true ∧
    ((opened 0 0 tdQ mxCore).tileAt 0 0).st = .opened ∧ mxCore.closes.get 0 = none ∧ ({ (opened 0 0 tdQ mxCore) with mq := [mqe .close] } : Core).mxFree 0 (mqe .close) 0 = true := by decide +kernel

/-- The tile is of one element. -/
def accing (b : Nat) : Core := { (opened 0 0 (0x40 + 0x100000 * 2 ^ 192) mxCore) with acc := some (mqe (.acc od od none b)) }
theorem witness_MatrixBlocks :
    ((accing 0).bankErrors []).acc = some (mqe (.acc od od none 0)) ∧ ((accing 0).bankErrors []).stopping = false ∧ ((accing 0).bankErrors []).shadows.get 0 = none ∧ (accing 2).acc = some (mqe (.acc od od none 2)) ∧
    ({ accing 0 with acc := some (mqe (.acc od od (some ⟨0, 0, true⟩) 2)) } : Core).shadows.get 0 = none ∧
    (accing 0).stopping = false ∧ 1 ≤ od.nblkM1.toNat ∧ ((accing 0).arrayEnd 0 od od none 0 0).shadow = none ∧ (accing 0).shadows.get 0 = none ∧ od.nblkM1.toNat < 2 ∧
    ((accing 0).reg 0x1218).toNat + 8 < 2 ^ 64 := by decide +kernel

/-- One slab of 1 in cell 0 of a tile with base 0 and anchor 0. -/
def anchored : Tile := { openedTile tdQ with baseSet := true, anchSet := true }
theorem witness_SlabsAddExactly :
    anchored.baseSet = true ∧ anchored.anchSet = true ∧ (blockFind anchored 0 [⟨0, .fin 1, 0⟩]).why.fold = false ∧ windowOf 0 0 = .within ∧ windowOf 0 254 = .within ∧ windowOf 0 255 = .above ∧
    cellOf (mget zeroCell anchored.cells 0) = (0, 0) := by decide +kernel

/-- A capture of a 1 × 1 tile with value 5 and anchor −288, the lowest. -/
def cap1 : Shadow := ⟨0, 0x100000, 1, 1, 0, -288, true, [(0, 5)], [], [], []⟩
theorem witness_FoldsMergeExactly :
    cap1.welt % 16 = 0 ∧ cap1.rows ≤ 32 ∧ cap1.slabs = [] ∧ -288 ≤ cap1.anchor ∧ unmasked 1 1 = [0] ∧ cellOf (mget zeroCell cap1.cells 0) = (5, 0) ∧
    ((mergeShadow tcore cap1 []).1).weltRead 0x100000 = (5, 0) := by decide +kernel

def closing (d : BitVec 256) : Core :=
  { mxCore with tiles := mxCore.tiles.set (tileIx 0 0).val { openedTile d with st := .closing } (tileIx 0 0).isLt, closes := (Vector.replicate 4 none).set 0 (some ⟨0, 0, true, false, 0, none⟩) }
def waitingQ : Core := { mxCore with qwait := [⟨0, 0, ⟨[], []⟩, 0⟩] }
def undrained : Core := { waitingQ with held := some { why := .mxWait 0, syl := 0, slot := 6, len := 1, pop := false } } |>.setFld 0x1208 1 1 1
theorem witness_MatrixEnds :
    ({ mxCore with feq := [.merge 0], shadows := (Vector.replicate 4 none).set 0 (some cap1) } : Core).shadows.get 0 = some cap1 ∧
    (closing tdQ).closes.get 0 = some ⟨0, 0, true, false, 0, none⟩ ∧ (closing tdQ).shadows.get 0 = none ∧ dDest tdQ = 1 ∧ dDest tdM = 0 ∧ dFmt tdM = 0 ∧ 4 * dCols tdM ≤ dStride tdM ∧
    dDest (tdM + 0x80) = 2 ∧ (closing tdQ).tileQueue.length < 4 ∧ (closing tdQ).qwait = [] ∧ waitingQ.qwait ≠ [] ∧ waitingQ.tileQueue.length < 4 ∧
    (closing tdM).elementAt ((closing tdM).tileAt 0 0) 0 = (.num false 0 (-288) false, 0) ∧
    undrained.waitsOnQueue = true ∧ undrained.popQueued = false ∧ undrained.fld 0x1208 1 1 = 1 := by decide +kernel

/-! ## Witnesses: transfers, fused commands, the press tree and the mangle ring -/

/-- A last of 64 bytes from tile memory at 0x5000 to tile memory at 0x6000, its record at 0x7000; and one from device address 0 on. -/
def lastN : Nat := 2 ^ 8 + 2 ^ 10 + 0x5000 * 2 ^ 64 + 0x6000 * 2 ^ 128 + 0x7000 * 2 ^ 192 + (64 + 2 ^ 32) * 2 ^ 256
/-- The last stands at 0x4000, the same with a reserved bit at 0x4060, one beyond its capability at 0x40C0, a fused command of one PROG stage at 0x4400; g48 to g51 name
them, g52 is misaligned, g53 lies outside. -/
def txCore : Core :=
  { ((((((tcore.setG 48 0x4000).setG 49 0x4060).setG 50 0x40C0).setG 51 0x4400).setG 52 0x4001).setG 53 0x5FFE00) with
    tile := writeBytes zeroByte (writeBytes zeroByte (writeBytes zeroByte (writeBytes zeroByte [] 0x4000 (leBytes 40 lastN)) 0x4060 (leBytes 40 (lastN + 2 ^ 24))) 0x40C0
      (leBytes 40 (lastN + 0x5FB000 * 2 ^ 64))) 0x4400 [1, 1] |> fun m => mset zeroByte m 0x4440 5 }
def txSt : State := tk txCore
def okLast (k : Core) (off : Nat) : Option Last := (checkLast k (k.getC 0) off (fun x => decide (x < 2)) (fun x => decide (x < 2))).toOption
def lastErr (k : Core) (off : Nat) : BitVec 16 := match checkLast k (k.getC 0) off (fun x => decide (x < 2)) (fun x => decide (x < 2)) with | .error e => e.1 | .ok _ => 0
def fuseErr (k : Core) (off : Nat) : BitVec 16 := match checkFused k (k.getC 0) off with | .error e => e.1 | .ok _ => 0
def aLast : Last := lastOf txCore 0x4000 lastN
def strm (x : Stream) (k : Core) (n : Nat := 0) : Core := k.setStream n x
def running : Stream := { gen := 0, last := some aLast, limit := 64 }
def ctxsFull (k : Core) : Core := { k with streams := .replicate 16 (some running) }

theorem witness_TransferInstructions :
    (okLast txCore 0x4000).isSome = true ∧ lastErr txCore 0x4001 = 0x6010 ∧ lastErr txCore 0x5FFE00 = 0x6011 ∧ lastErr txCore 0x4060 = 0x6010 ∧ lastErr txCore 0x40C0 = 0x6011 ∧
    fuseErr txCore 0x4400 = 0 ∧ fuseErr txCore 0x4001 = 0x6012 ∧
    [Instr.txLast 0 5 0 48, .txLast 0 5 0 49, .txLast 0 5 0 52, .txFuse 0 5 0 51, .txFuse 0 5 0 52, .txWait 0 5 0, .txTest 0 5 0].all (txSt.takes 0) = true ∧
    txCore.freeCtxs = List.range 16 ∧ (ctxsFull txCore).freeCtxs = [] ∧ (okLast (ctxsFull txCore) 0x4000).isSome = true ∧ (tk (ctxsFull txCore)).takes 0 (.txLast 0 5 0 48) = true ∧
    txCore.stream 0 = none ∧ ((strm { running with st := .ended } txCore).stream 0).map Stream.st = some .ended ∧ (tk (strm { running with st := .ended } txCore)).takes 0 (.txWait 0 5 0) = true ∧
    ((strm running txCore).stream 0).map Stream.st = some .running ∧ (tk (strm running txCore)).takes 0 (.txTest 0 5 0) = true := by decide +kernel

def prog (fl : List Firing := []) : StageS := { kind := .prog, outRate := 0, inRate := [0, 0, 0, 0], firings := 0, body := 0, flight := fl }
def fusedOf (l : List StageS) (es : List EdgeS := []) : Fused := { irq := true, tag := 0, spillVa := 0, spillBytes := 0, spillCtx := 0, stages := l, edges := es }
def fstrm (l : List StageS) (es : List EdgeS := []) : Core := strm { gen := 0, fused := some (fusedOf l es) } tcore
theorem witness_ProgStages :
    tcore.progStage 0 0 = none ∧ trun.takes 0 (.txStw 0 5 0 0) = true ∧ trun.takes 0 (.txStp 0 0 0) = true ∧
    ((fstrm [prog]).progStage 0 0).isSome = true ∧ (match stwResult (fusedOf [prog]) 0 prog with | .fire _ _ => true | _ => false) = true ∧
    (match stwResult (fusedOf [prog [⟨[], false⟩]]) 0 (prog [⟨[], false⟩]) with | .wait => true | _ => false) = true ∧
    (match stwResult (fusedOf [prog]) 0 { prog with fin := true } with | .marker false => true | _ => false) = true ∧
    (match stwResult (fusedOf [prog]) 0 { prog with aborted := true } with | .marker true => true | _ => false) = true ∧
    (tk (fstrm [prog])).takes 0 (.txStw 0 5 0 0) = true ∧ (tk (fstrm [prog [⟨[], false⟩]])).takes 0 (.txStp 0 0 0) = true := by decide +kernel

def devLast : Last := { aLast with srcSp := 0, src := 0xF0 }
theorem witness_TransferRequests :
    ((strm running txCore).stream 0) = some running ∧ running.last = some aLast ∧ running.issued < running.limit ∧ aLast.op = 0 ∧ 0 < aLast.esz ∧ aLast.dstSp = 1 ∧ aLast.srcSp = 1 ∧
    aLast.scatter = false ∧ ({ running with last := some devLast } : Stream).runLength devLast 0 63 1 = 16 ∧
    (match (tk (strm { running with last := some devLast } txCore)).xlateSide 0 0 0xF0 16 .load with | .error f => f == 0x7030 | .ok _ => false) = true ∧
    (match (ctx0 (strm { running with last := some devLast } txCore)).xlateSide 0 0 0xF0 16 .load with | .error _ => false | .ok (x, _) => !x.host && !x.pa.testBit 47) = true ∧
    txCore.tagFor false = some 0 := by decide +kernel

def aReq : TxReq :=
  { tag := 3, s := 0, gen := 0, e0 := 0, n := 16, unit := 1, op := 0, units := (List.range 16).map (fun i => (⟨.pa, i⟩, ⟨.tile, 0x6000 + i⟩)), data := none, bulk := false, crit := false, nc := false,
    sctx := 0, dctx := 0, vas := [] }
def reqCore : Core := { strm running txCore with txReqs := [aReq] }
/-- Both report rings stand open, in BAR0's buffers. -/
def ringsOn (s : State) : State := ((s.setBar 0x2008 1).setBar 0x2000 1)
def halting : Stream := { running with st := .halting, code := 0x7020 }
theorem witness_TransferEnds :
    reqCore.txReqs.find? (fun r => r.tag == 3) = some aReq ∧ reqCore.stream 0 = some running ∧ paKind 0 = .dev ∧ (tk reqCore).gate (some 0) (memKeys (bytesAt .pa 0 16)) false = none ∧
    (({ tk reqCore with dies := .replicate 2 { masks := [(0, 1)] } } : State).txFrameBad 0 0 ⟨.pa, 0⟩ 16) = false ∧
    (strm halting txCore).stream 0 = some halting ∧ halting.fused = none ∧ (strm halting txCore).outstanding 0 = false ∧ halting.wrote = false ∧ (ringsOn (tk (strm halting txCore))).frRoom 0 = true ∧
    covered [(0, 64)] 0 aLast.total = true ∧ aLast.total = 64 ∧ covered [(0, 63)] 0 64 = false ∧ (Writer.host ≠ .cretas) ∧ txCore.fld 0x1918 47 32 < 2 ^ 16 - 1 := by decide +kernel

def cvt (fl : List Firing := []) : StageS := { kind := .cvt, outRate := 0, inRate := [1, 0, 0, 0], firings := 0, body := 0, flight := fl }
def edge0 : EdgeS := { prod := 1, cons := 0, port := 0, spill := true, slots := 3, size := 64, base := 0x8000, full := 1 }
def heldV : VEntry := { vEnt (.vxMv 0 vf0) 1 with seq := some { s := 0, stage := 0, f1 := 0, f2 := 0, rnd := 0, g := false, n := 1, ins := [], outs := [] } }
theorem witness_FusedEvents :
    ((tk (fstrm [cvt] [edge0])).spillDue 0 0 = tk (fstrm [cvt] [edge0])) ∧ (fstrm [cvt] [edge0]).tagFor true ≠ none ∧ ({ tcore with seqHeldV := [heldV] } : Core).seqHeldV = [heldV] ∧
    ((fstrm [cvt] [edge0]).stream 0).bind Stream.fused = some (fusedOf [cvt] [edge0]) ∧ (fusedOf [cvt] [edge0]).ready 0 cvt = true ∧
    (fstrm [cvt [⟨[], true⟩]]).firingDone (cvt [⟨[], true⟩]) ⟨[], true⟩ = true ∧ (fusedOf [cvt] [edge0]).stages.all (fun z => !z.aborted) = true ∧ edge0.marker = none ∧
    ({ edge0 with ring := [0] } : EdgeS).resv = 0 ∧ ({ edge0 with ring := [0] } : EdgeS).used < ({ edge0 with ring := [0] } : EdgeS).ord ∧
    (match spillIn 3 ({ ctx0 (fstrm [cvt] [{ edge0 with ring := [0] }]) with dies := .replicate 2 { (({} : Die).setReg 0x500000 1) with masks := [(0, 1)] } } : State) 0 0 0 64 with
      | .ok (some (bs, _), _) => bs.length == 64 | _ => false) = true ∧
    ({ tcore with seqHeldV := [heldV] } : Core).seqHeldM = [] ∧ heldV.seq.isSome = true ∧ ({ tcore with seqHeldV := [heldV] } : Core).waitsFor 5 = false ∧ tcore.vq.length < 8 ∧
    tcore.fld 0x1908 31 16 ≠ 0 := by decide +kernel

/-- Core 0 alone is a member of channel 0. -/
def member (s : State) : State := s.updDie 0 (fun d => d.setReg (chOff 0 0) 1)
def arrived (p : PrCh) : Core := tcore.updPress 0 (fun _ => p)
theorem witness_PressTree :
    (member (tk (arrived { pending := true }))).isMember 0 0 = true ∧ (member (tk (arrived { pending := true }))).takes 0 (.prArrive 0 0) = true ∧ ((arrived { pending := true }).press 0).pending = true ∧
    trun.rs.standing = none ∧ trun.rs.snaps = [] ∧ ((arrived { pending := true }).press 0).entered = false ∧ (tcore.press 0).bySync = false ∧
    trun.isMember 0 0 = false ∧ trun.takes 0 (.prArrive 0 0) = true ∧ trun.takes 0 (.prSync 0 0) = true ∧ trun.takes 0 (.prWait 0 3) = true ∧ (member trun).isMember 0 0 = true ∧
    (member trun).takes 0 (.prArrive 0 4) = true ∧ (tcore.press 0).pending = false ∧ ((arrived { pending := true, bySync := true }).press 0).pending = true ∧
    (tk (arrived { pending := true, bySync := true })).takes 0 (.prSync 0 0) = true ∧ (tk (arrived { bySync := true })).takes 0 (.prSync 0 0) = true ∧
    ((arrived { pending := true }).press 0).waits.all (fun g => !(arrived { pending := true }).openGens.contains g && !(arrived { pending := true }).outstanding g) = true ∧
    ((member (trun.setCore 0 (arrived { pending := true }))).updCore 0 (fun k => k.updPress 0 (fun x => { x with entered := true }))).localDone 0 = true ∧
    (((member (trun.setCore 0 (arrived { pending := true }))).updDie 0 (fun d => d.setReg (chOff 0 0) 3)).updCore 0 (fun k => k.updPress 0 (fun x => { x with entered := true }))).localDone 0 = false ∧
    (member trun).system 0 = false ∧ trun.rs.capture = none ∧ (member (trun.setCore 0 (arrived { pending := true }))).pressRuns 0 = true ∧ trun.pkgFld 0x400000 15 0 ≠ 0 := by decide +kernel

/-- Ring descriptors at 0x4000 (64 bytes at 0x5000) and, malformed, at 0x4020. -/
def ringCore : Core :=
  { ((tcore.setG 48 0x4000).setG 49 0x4020) with tile := writeBytes zeroByte (writeBytes zeroByte [] 0x4000 (leBytes 8 (0x5000 + 64 * 2 ^ 32))) 0x4020 [1] }
def posted (s e : Bool) (n : Nat) : MgOp := { area := 0x5000, len := n, span := 0, started := s, ended := e }
theorem witness_MangleRing :
    tcore.run ≠ .inReset ∧ (posted false false 64).len ≠ (posted false false 32).len ∧ (posted false false 64).ended = false ∧ (posted true false 64).started = true ∧
    (ringDesc ringCore (ringCore.getC 0) 0x4000 pST).toOption.isSome = true ∧ (ringDesc ringCore (ringCore.getC 0) 0x4000 pLD).toOption.isSome = true ∧
    (ringDesc ringCore (ringCore.getC 0) 0x4020 pST).toOption.isSome = false ∧ ringCore.mgPost = none ∧ ringCore.mgRot = none ∧
    [Instr.mgPost 0 0 48, .mgPost 0 0 49, .mgRot 0 0 48, .mgRot 0 0 49, .mgWait 0 5].all ((tk ringCore).takes 0) = true ∧
    (tk { ringCore with mgPost := some (posted false false 64), mgRot := some (posted false false 64) }).takes 0 (.mgWait 0 5) = true ∧
    (posted true true 64).ended = true ∧ (posted false false 64).started = false ∧ (posted true false 64).len % 16 = 0 ∧ ringNext 0 = 1 := by decide +kernel

/-! ## Witnesses: translation, invalidation and caches -/

def pg (base : Nat) (w x host : Bool) : TlbE := { ctx := 0, sh := 25, vpn := 0, base := base, w := w, x := x, nc := false, host := host }
/-- Context 0 is enabled (bit 1 of ctl: HOST); core 0's buffer holds l. -/
def pgSt (l : List TlbE) (ctl : W64 := 1) : State := { (tk { tcore with tlb := l }) with dies := .replicate 2 (({} : Die).setReg 0x500000 ctl) }
def hasPg (l : TlbE) (ctl : W64 := 1) : Bool := (pgSt [l] ctl).ctxEn 0 && ((pgSt [l] ctl).core 0).tlbFind 0 0x40 == some l
/-- A walk in progress. -/
def walking (ctx : BitVec 4) (va : W64) (stale : Bool) : Core := { tcore with walks := [⟨ctx, va, .load, stale⟩] }

theorem witness_Translation :
    tcore.walks.any (fun w => samePage w 0 0x40) = false ∧ winHole 0 (0x40 : Nat) = false ∧ paReserved (2 ^ 48 + 0x40) = true ∧ (trun.winCtx 0) = false ∧
    trun.ctxEn 0 = false ∧ (pgSt []).ctxEn 0 = true ∧ ((pgSt []).core 0).tlbFind 0 0x40 = none ∧ ((pgSt []).walk 0 0 0x40).fault = some 0x7020 ∧
    walkMem.ctxEn 3 = true ∧ (walkMem.core 0).tlbFind 3 0x1202000000 = none ∧ (walkMem.walk 0 3 0x1202000000).fault = none ∧
    hasPg (pg 0 false false false) = true ∧ hasPg (pg 0 true false false) = true ∧ hasPg (pg 0 true true true) = true ∧ hasPg (pg 0 true true true) 3 = true ∧
    hasPg (pg (2 ^ 47) true true false) = true ∧ hasPg (pg (2 ^ 48) true true false) = true ∧ paKind (2 ^ 48 + 0x40) = .reserved ∧ paKind 0x40 = .dev ∧
    (pgSt [] 1).ctxHost 0 = false ∧ (pgSt [] 3).ctxHost 0 = true ∧ (match paKind (2 ^ 47 + 0x40) with | .remote _ _ => true | _ => false) = true ∧
    hasPg (pg 0x7F00000000 true true false) = true ∧ (match paKind 0x7F00000040 with | .win _ _ => true | _ => false) = true ∧
    entryBad 0x41 0 = true ∧ (0x41 : Nat).testBit 0 = true ∧ entryBad 3 0 = false ∧ (3 : Nat).testBit 1 = true ∧ entryAddr 3 % 2 ^ lvShift 0 = 0 ∧ entryAddr 3 % 2 ^ lvShift 1 = 0 ∧
    entryBad 0x10001 0 = false ∧ entryBad 0x10001 1 = false ∧ (0x10001 : Nat).testBit 0 = true ∧ (0x10001 : Nat).testBit 1 = false ∧ paKind (entryAddr 0x10001) = .dev ∧
    (walking 0 0 true).walks[0]? = some ⟨0, 0, .load, true⟩ ∧ (walking 3 0x1202000000 false).walks[0]? = some ⟨3, 0x1202000000, .load, false⟩ ∧
    (((walkMem.setCore 0 (walking 3 0x1202000000 false)).updCore 0 (fun k => k.count 0x1A10 63 0 9)).walk 0 3 0x1202000000).fault = none ∧
    (((tk (walking 3 0 false)).updCore 0 (fun k => k.count 0x1A10 63 0 9)).walk 0 3 0).fault ≠ none := by decide +kernel

theorem witness_Invalidation :
    trun.pkgFld 0x500108 9 9 = 1 ∧ trun.journal = [] ∧ ({ trun with invQ := [0], invRun := true } : State).invTimed = false ∧ trun.homeWait = [] ∧
    ({ tcore with invPend := [⟨0, false⟩] } : Core).invPend.any (fun p => p.doorbell == false) = true ∧ (tk { tcore with invPend := [⟨0, false⟩] }).invClear 0 false = true ∧
    ({ tcore with invPend := [⟨0, true⟩], lateLoads := [{ lateTile with inv := 2 }] } : Core).invPend.any InvReq.doorbell = true ∧
    (tk { tcore with invPend := [⟨0, true⟩], lateLoads := [{ lateTile with inv := 2 }] }).invClear 0 true = true ∧
    (tk { tcore with invPend := [⟨0, true⟩], lateLoads := [{ lateTile with inv := 2 }] }).invClear 0 false = false ∧
    (tk { tcore with lateLoads := [{ lateTile with inv := 3 }] }).invClear 0 true = false ∧ (tk { tcore with lateLoads := [{ lateTile with inv := 3 }] }).invClear 0 false = false ∧
    invBad 0x0042000003000901 = false ∧ trun.invQ.length < 16 ∧ invBad 0x800000 = true ∧ 16 ≤ ({ trun with invQ := List.replicate 16 0 } : State).invQ.length ∧
    ({ trun with invQ := [0] } : State).invQ ≠ [] ∧ trun.invRun = false ∧ ({ trun with invQ := [0], invRun := true } : State).invGot.getLsbD 0 = false ∧ tcore.run ≠ .inReset ∧
    (tk { tcore with invPend := [⟨0, true⟩] }).invClear 0 true = true ∧ (tk { tcore with lateLoads := [{ lateTile with inv := 1 }] }).invClear 0 true = false ∧
    ({ trun with invQ := [0], invRun := true, invAck := BitVec.allOnes 64 } : State).invAck = BitVec.allOnes 64 ∧ trun.invAck ≠ BitVec.allOnes 64 ∧
    trun.pkgFld 0x500118 15 0 ≠ 0 ∧ Writer.host ≠ .cretas ∧ trun.pkgFld 0x500128 15 0 < 2 ^ 16 - 1 := by decide +kernel

def l2l (key : Nat) (st : LSt) (scalar : Bool := true) : L2Line := { key := key, st := st, scalar := scalar, d := {}, hold := false }
/-- Cluster 0 is k; cluster 1 holds l. -/
def clSt (k : Cluster) (l : List L2Line := []) : State := { trun with clusters := ((Vector.replicate 16 {}).set 0 k).set 1 { l2 := l } }
def reqOf (kind : ReqKind) (retry : Bool) : CohReq :=
  { kind := kind, key := 1, retry := retry, tries := 0, hostFill := {}, mask := 1, data := 5, poison := false }
/-- A host processor may cache line key, which every home tracks as owned. -/
def gated (key : Nat) (s : State) : State := { s with regions := .replicate 8 { filter := [⟨key, true⟩] } }
/-- A host processor may cache line 1 (R359). -/
def filtered : State := { trun with regions := (Vector.replicate 8 {}).set (trun.homeOf 1).val { filter := [⟨1, true⟩] } }
theorem witness_CoherentRequests :
    (clSt {} [{ l2l 1 .m with hold := true }]).heldBy 0 1 = some 1 ∧ (clSt {} [{ l2l 1 .m with hold := true }]).lineBusy 0 none 1 = false ∧
    ((clSt { reqs := [reqOf .read true] }).cluster 0).reqs[0]? = some (reqOf .read true) ∧ ReqKind.read.owns = false ∧ (clSt { reqs := [reqOf .read true] }).lineBusy 0 (some 0) 1 = false ∧
    (clSt { reqs := [reqOf .read true] }).heldBy 0 1 = none ∧ ((clSt { reqs := [reqOf .read true] }).gate (some 0) [1] false).isNone = true ∧
    ({ trun with clusters := trun.clusters.set 0 { reqs := [reqOf .read true] } |>.set 1 { reqs := [reqOf .readOwn false] } } : State).lineBusy 0 (some 0) 1 = true ∧
    ({ l2 := [{ l2l 1 .m with hold := true }], defers := [⟨2, 1, 0, true, false⟩] } : Cluster).defers.filter (fun d => decide (d.key % 2 ^ 58 = 1)) = [⟨2, 1, 0, true, false⟩] ∧
    paKind (64 * lineKey false 1) = .dev ∧ (filtered.gate (some 0) [1] false).isSome = true ∧ (trun.gate (some 0) [1] false).isSome = false ∧
    ({ trun with clusters := trun.clusters.set 1 { reqs := [reqOf .readOwn false] } } : State).lineBusy 0 none 1 = true ∧ trun.lineBusy 0 none 1 = false ∧
    trun.heldBy 0 1 = none ∧ ((clSt { l2 := [l2l 1 .s] }).cluster 0).find 1 = some (l2l 1 .s) ∧ (trun.cluster 0).find 1 = none ∧ ((trun.cluster 0).ham 1).isNone = true ∧
    ((clSt {} [l2l 1 .m]).firstSupply 0 1).isSome = true ∧ (clSt {} [l2l 1 .m]).otherCopy 0 1 = true ∧ trun.otherCopy 0 1 = false ∧
    ((clSt { l2 := [l2l 1 .o] }).cluster 0).find 1 = some (l2l 1 .o) ∧
    ((clSt { reqs := [reqOf .upgrade true] }).cluster 0).reqs[0]? = some (reqOf .upgrade true) ∧
    [ReqKind.readOwn, .upgrade, .writeInv].all (fun x => ((clSt { reqs := [reqOf x false] }).cluster 0).reqs[0]? == some (reqOf x false)) = true ∧
    ((clSt { reqs := [reqOf .readOwn false] }).gate (some 0) [1] true).isNone = true ∧ ((clSt { reqs := [reqOf .writeInv false] }).gate none [1] true).isNone = true ∧
    (clSt { reqs := [reqOf .readOwn false] } [l2l 1 .s]).heldBy 0 1 = none := by decide +kernel

def hamE (key : Nat) (kind : HamKind) (st : Option LSt) (scalar : Bool := true) : HamE := { key := key, kind := kind, st := st, scalar := scalar, d := {}, stale := false }
def fullHam : List HamE := List.replicate Config.hamperEntries (hamE 7 .writeback (some .m))
def moving (m : Move) (q : Region) : State := { trun with regions := .replicate 8 { q with moves := [m] } }
def hk : Nat := lineKey true 1
theorem witness_Evictions :
    ({ l2 := [l2l 1 .m] } : Cluster).evWait = [] ∧ ({ hamper := [hamE 1 .offer (some .e)] } : Cluster).evWait = [] ∧
    [LSt.m, .o, .e, .s].all (fun x => ((clSt { l2 := [l2l 1 x] }).cluster 0).l2.filter (fun l => l2Set l.key == 1) == [l2l 1 x]) = true ∧
    ([l2l 1 .s false].filter (fun l => l2Set l.key == 1)).getLast? = some (l2l 1 .s false) ∧ isHost 1 = false ∧ isHost hk = true ∧
    ({} : Cluster).hamRoom = true ∧ ({ hamper := fullHam } : Cluster).hamRoom = false ∧ ({ hamper := fullHam } : Cluster).fld 0x28 63 0 + 5 < 2 ^ 64 ∧ (({} : Cluster).setReg 0 0x100).fld 0 8 8 = 1 ∧
    ({ evWait := [l2l 1 .m] } : Cluster).evWait = [l2l 1 .m] ∧ ((moving ⟨0, 1, false, false, {}⟩ {}).region 0).moves[0]? = some ⟨0, 1, false, false, {}⟩ ∧
    ((({} : Region).setReg 0x20000 4).rcOn) = true ∧ (({} : Region).setReg 0x20000 4).declines 1 = false ∧ (({} : Region).setReg 0x20000 6).declines 1 = true ∧
    ((moving ⟨0, 1, true, true, {}⟩ {}).region 0).fld 0x20028 63 0 < 2 ^ 64 - 1 ∧ (trun.region 0).fld 0x20020 63 0 < 2 ^ 64 - 1 ∧
    (trun.region (trun.homeOf 1)).moves = [] ∧ ((moving ⟨0, 1, false, false, {}⟩ {}).region ((moving ⟨0, 1, false, false, {}⟩ {}).homeOf 1)).moves ≠ [] ∧
    [some LSt.m, some .e, some .s, none].all (fun x => ({ hamper := [hamE 1 .offer x] } : Cluster).hamper.find? (fun e => e.key == 1 && e.kind != .victim) == some (hamE 1 .offer x)) = true ∧
    (List.finRange 16).all (fun x => !(trun.cluster x).hostTransit hk) = true ∧ trun.heldAnywhere hk = false ∧
    (clSt { l2 := [l2l hk .m] }).heldAnywhere hk = true ∧ ((clSt { l2 := [l2l hk .m] }).dirtyData hk).isSome = true ∧ ((clSt { l2 := [l2l hk .e] }).dirtyData hk).isNone = true ∧
    (clSt { l2 := [l2l hk .e] }).heldAnywhere hk = true ∧ ({ hamper := [hamE hk .writeback (some .m)] } : Cluster).hamper.find? (fun e => e.key == hk && e.kind != .victim) = some (hamE hk .writeback (some .m)) := by
  decide +kernel

/-! ## Witnesses: channel controllers and seam links -/

def rgS (q : Region) (ready : Bool := true) : State := { trun with memReady := ready, regions := .replicate 8 q }
def chR (c : Chan) (p : PhysId := 0) : Region := ({} : Region).updChan p (fun _ => c)
def rdReq (ctx : Option (BitVec 4) := none) : MReq := ⟨.host, .read, ctx, 0, 64, [], [], false⟩
def mce (q : MReq) (aged : Bool := false) : McE := { req := q, cls := trun.reqClass q, aged := aged, lch := 0, off := 0, done := 0 }
def wrReq : MReq := ⟨.host, .write, none, 0, 64, List.replicate 64 1, [], false⟩
def fullQ : List McE := List.replicate Config.mcQueue (mce (rdReq none))
def retr (fails : Nat) : Chan := { svc := .retraining, queue := [mce rdReq], fails := fails }
def patching (n done : Nat) : Region := { patch := { state := n, lch := 1, done := done, old := 1 } }

theorem witness_MemoryControllers :
    decide (rdReq.src = .host ∧ ({} : Region).copyWants 0 = false ∧ ({ patching 2 0 with patch := { (patching 2 0).patch with old := 0 } } : Region).copyWants 0 = true ∧
    (patching 2 0).copyBehind = true ∧ ({} : Chan).room 3 = true ∧ ({ (patching 2 0).patch with got := 4 } : Patch).got = 4 ∧ ({ fill := some 0, fillRec := true } : Chan).fillRec = true ∧
    ({ due := true } : Chan).due = true ∧ (chR (retr 0)).mayRetrain 1 = true ∧ (patching 2 0).patchHolds 1 = true ∧ trun.homeWait = [] ∧
    (let q := (((chR { soak := some ⟨false⟩ }).setReg (mcOff 0 0x800) 3).setReg (mcOff 0 0x810) 64)
     2 ≤ q.fld (mcOff 0 0x800) 1 0 ∧ q.fld (mcOff 0 0x808) 32 0 ≤ 0 ∧ 0 < q.fld (mcOff 0 0x810) 32 0 ∧ badLanes (q.soakBurst 0 0) [] ≠ [])) = true ∧
    devSpan 0 64 = true ∧ ((rgS {}).place 0).region = 0 ∧ (rgS {}).frameOk (some 0) 0 = false ∧ (rgS {}).frameOk none 0 = true ∧ ({} : Region).rcFind 0 = none ∧
    ((rgS {}).region 0).quiesced = false ∧ (rgS {}).crs.resets.contains (2, 0) = false ∧ ((rgS {}).region 0).patch.state ≠ 3 ∧ ({} : Chan).room (trun.reqClass rdReq) = true ∧
    ({ queue := fullQ } : Chan).room 1 = false ∧ (rgS {} false).memReady = false ∧ (retr 0).svc = .retraining ∧ (retr 0).queue ≠ [] ∧
    ((rgS (chR (retr 0))).region 0).fld (mcOff 0 cRTWAIT) 63 0 + 5 < 2 ^ 64 ∧
    ({ queue := [mce wrReq] } : Chan).svc ≠ .retraining ∧ (chR { queue := [mce wrReq] }).pick 0 = some (0, mce wrReq) ∧
    wrReq.data.length = 64 ∧ ((rgS {}).chanOf ((rgS {}).place 0)).svc ≠ .dead ∧ ((rgS {}).chanOf ((rgS {}).place 32)).svc ≠ .dead ∧
    ({ queue := [mce rdReq] } : Chan).queue[0]? = some (mce rdReq) ∧ ((rgS {}).region 0).fld (mcOff 0 cAGED) 63 0 < 2 ^ 64 - 1 ∧
    [1, 2, 3].all (fun op => (List.replicate (accBytes op) (1 : Byte)).length == accBytes op) = true ∧ (rgS {}).blockPoison 0 = false ∧
    ({} : Region).logicalOf 0 = some 0 ∧ (({} : Region).setReg 0x40028 0x100).fld 0x40028 8 8 = 1 ∧ ({} : Region).chans.toList.any (fun c => c.svc == .retraining) = false ∧
    ({} : Region).patchHolds 0 = false ∧ (({} : Region).setReg 0x40010 (2 ^ 32)).fld 0x40010 32 32 = 1 ∧ (patching 1 0).patch.state = 1 ∧ ({} : Region).spare = 16 ∧ (patching 1 0).patchHolds 16 = false ∧
    ((chR (retr 2)).chans.get 0).svc = .retraining ∧ (List.finRange 17).all (fun x => ((chR (retr 2)).chans.get x).svc != .retraining || x == 0) = true ∧
    (patching 2 0).patch.done < chanGranules ∧ (patching 2 chanGranules).patch.done = chanGranules ∧ (((patching 2 0).chans.get ((patching 2 0).physOf 1)).queue = []) ∧
    ({ fill := some 0 } : Chan).fill = some 0 ∧ ({ svc := .spare } : Chan).soak = none ∧ ((0 : PhysId) ≠ 16) ∧ ({} : Region).fld 0x40030 47 32 < 2 ^ 16 - 1 ∧
    ({ soak := some ⟨false⟩ } : Chan).soak = some ⟨false⟩ ∧ trun.pwr.rst = false ∧ (List.finRange 8).all (fun h => (trun.region h).ringWait == []) = true := by decide +kernel

/-- Port 0 is k, with its register EN set and LANEMASK all ones. -/
def ptSt (k : Port) (ctl : W64 := 0xFF2301) : State := { trun with ports := trun.ports.set 0 k, dies := .replicate 2 (({} : Die).setReg (0x700008) ctl) }

/-- A flit of a type with a sequence number and a body, as R293 and R294 build it. -/
def mkFlit (t : Byte) (sq : Nat) (body : List Byte) : List Byte :=
  let b := [t, 0] ++ beBytes 2 sq ++ [0, 0, 0, 0, 0, 0, 0, 0] ++ (body ++ List.replicate 304 0).take 304
  b ++ beBytes 4 (crc32 b)
def goodF (f : List Byte) (t : Nat) : Bool := flitGood f false && flitType f == t
def cfgBody (pos : Byte) : List Byte := [0, pos, 0, 0, 8]
def msgF : List Byte := mkFlit 1 0 (msgBytes { plainMsg 0 5 64 0 with ttl := 3, src := 7 } 0x01)
def cfgK (n : Nat) (pos : Byte) : Port := { st := .config, width := 8, cfgGood := n, cfgLast := configBody (mkFlit 2 0 (cfgBody pos)) }
def actK : Port := { st := .active, lanes := 0xFF, width := 8 }
theorem witness_SeamLinks :
    (ptSt {}).sendChs = [] ∧ actK.out = [] ∧ flitNak (mkFlit 0 0 []) = false ∧ ({ actK with selfLoop := false } : Port).selfLoop = false ∧ (0xF7 : BitVec 8) &&& actK.mask &&& ~~~actK.left = 0xF7 ∧
    (ptSt {}).slEn 0 = true ∧ (1 : BitVec 8) &&& BitVec.ofNat 8 ((ptSt {}).slFld 0 8 23 16) ≠ 0 ∧ (ptSt {} 1).slEn 0 = true ∧ BitVec.ofNat 8 ((ptSt {} 1).slFld 0 8 23 16) = 0 ∧
    (ptSt {}).widthOf 0 = 0 ∧ (ptSt {}).widthOf 0xF7 = 4 ∧ actK.lanes.getLsbD 7 = true ∧ (0 : BitVec 8).getLsbD 7 = false ∧
    ({ actK with st := .retrain, good := 0xFF } : Port).st = .retrain ∧ (0 : Nat) + 1 < max 1 ((ptSt {}).slFld 0 8 15 12) ∧ max 1 ((ptSt {}).slFld 0 8 15 12) ≤ 1 + 1 ∧
    (ptSt {}).sendChs = [] ∧ ({ actK with st := .retrain } : Port).out = [] ∧ (ptSt { st := .down }).slEn 0 = true ∧
    goodF (mkFlit 2 0 (cfgBody 5)) 2 = true ∧ BitVec.ofNat 10 (flitNum (mkFlit 2 0 (cfgBody 0)) 12 2) = trun.straps.pos ∧ goodF (mkFlit 2 0 (cfgBody 0)) 2 = true ∧
    BitVec.ofNat 10 (flitNum (mkFlit 2 0 (cfgBody 5)) 12 2) ≠ trun.straps.pos ∧ (cfgK 2 5).cfgLast = configBody (mkFlit 2 0 (cfgBody 5)) ∧ (cfgK 2 5).cfgGood + 1 < 4 ∧
    4 ≤ (cfgK 3 5).cfgGood + 1 ∧ min (cfgK 3 5).width (flitNum (mkFlit 2 0 (cfgBody 5)) 16 1) ≠ 0 ∧ flitGood [] false = false ∧ goodF (mkFlit 0 0 []) 0 = true ∧
    goodF (mkFlit 1 0 []) 1 = true ∧ flitNum (mkFlit 1 0 []) 2 2 = actK.expect ∧ goodF (mkFlit 1 1 []) 1 = true ∧ flitNum (mkFlit 1 1 []) 2 2 ≠ actK.expect ∧
    msgsOf 19 ((mkFlit 1 0 []).drop 12 |>.take 304) = [] ∧ goodF msgF 1 = true ∧ (msgsOf 19 ((msgF.drop 12).take 304)).length = 1 ∧
    (match msgsOf 19 ((msgF.drop 12).take 304) with | [(_, m)] => m.dst != trun.straps.pos && m.dst == { trun.straps with pos := 5 }.pos | _ => false) = true ∧
    ({ actK with replay := [(0, [])] } : Port).replay ≠ [] ∧ (0 : Nat) + 1 < max 1 ((ptSt {}).slFld 0 8 11 8) ∧ max 1 ((ptSt {}).slFld 0 8 11 8) ≤ 2 + 1 := by decide +kernel

/-- A message from package 7 to package 0 on a VC. -/
def msg7 (vc : BitVec 4) (tsn : BitVec 32 := 0) (len : Nat := 64) : Msg := { plainMsg vc 0 len 0 with src := 7, tsn := tsn, incarn := 1, ttl := 3 }
def rch (e : BitVec 32) (n : Nat := 0) : RecvCh := { src := 7, vc := 0, incarn := 1, expected := e, since := n }
/-- Window 0 shows frame 0 to every package (mask m on the frame); every port is Active and package 5's route is port 0. -/
def winSt (m : BitVec 16 := 1) (chs : List SendCh := []) : State :=
  { trun with dies := .replicate 2 { (({} : Die).setReg (winOff 0) 0x10F |>.setReg 0x750028 8 |>.setReg 0x750038 8) with masks := [(0, m)] },
              ports := .replicate 6 actK, sendChs := chs }
def sent (opc : BitVec 8) (who : Asker) (tries : Nat := 0) : SendCh := { dst := 7, vc := 0, next := 1, unacked := [⟨opc, { plainMsg 0 7 64 0 with tsn := 0 }, who, tries, false⟩] }
def mapJob : JSlot := { entry := BitVec.ofNat 512 (0x50 + 2 * 2 ^ 128 + 7 * 2 ^ 144), src := 0, gen := 0, ticket := 1, cq := 0, started := true }

theorem witness_SeamMessages :
    (isMessage (.msgRd (msg7 0)) 0x01 (msg7 0) ∧ isMessage (.msgWinr (msg7 13)) 0x90 (msg7 13)) ∧ (plainMsg 0 5 64 0).dst ≠ trun.straps.pos ∧ (plainMsg 0 5 64 0).ttl = 0 ∧
    trun.route 5 = none ∧ ({ plainMsg 0 5 64 0 with ttl := 1 } : Msg).ttl ≠ 0 ∧ winSt.route 5 = some 0 ∧ trun.pkgFld smTTLEXP 63 0 < 2 ^ 64 - 1 ∧ (msg7 0).dst = trun.straps.pos ∧
    malformedMsg 0x01 (msg7 0 0 257) = true ∧ malformedMsg 0x01 (msg7 0 0 256) = false ∧ (trun.port 0).st ≠ .active ∧ trun.homeWait.any (fun r => r.sameCh (msg7 0)) = false ∧
    (trun.gate none (trun.msgKeys 0x01 (msg7 0) none) false).isNone = true ∧
    (({ winSt with regions := .replicate 8 { filter := [⟨0, true⟩] } } : State).gate none (winSt.msgKeys 0x01 (msg7 0) none) false).isSome = true ∧
    trun.recvCh 7 0 = none ∧ ({ trun with recvChs := [rch 5] } : State).recvCh 7 0 = some (rch 5) ∧ (rch 5).incarn = (msg7 0 5).incarn ∧
    ({ msg7 0 with incarn := 2 } : Msg).incarn ≠ (rch 5).incarn ∧ ((msg7 0 6).tsn - (rch 5).expected).toNat < 2 ^ 31 ∧ 2 ^ 31 ≤ ((msg7 0 4).tsn - (rch 5).expected).toNat ∧
    isReq 0x01 = true ∧ (match trun.winLookup 0 7 .read with | .refused _ _ => true | _ => false) = true ∧ (match winSt.winLookup 0 7 .read with | .ok _ _ c => c == 0 | _ => false) = true ∧
    (winSt.frameOk (some 0) 0 && winSt.frameOk (some 0) 63) = true ∧ ((winSt 2).frameOk (some 0) 0 && (winSt 2).frameOk (some 0) 63) = false ∧
    trun.seamFld 47 40 ≤ (trun.seamFld 47 40 - 1) + 1 ∧ (0 : Nat) + 1 < trun.seamFld 47 40 ∧
    malformedMsg 0x80 (msg7 8 0 0) = false ∧ malformedMsg 0x81 (msg7 8) = false ∧ malformedMsg 0x82 (msg7 8 0 0) = false ∧ malformedMsg 0x90 (msg7 13 0 16) = false ∧
    ((winSt 1 [sent 0x01 (.load 0 false 5 0)]).answered (msg7 8)).unacked.find? (fun x => x.m.tsn == 0 && x.opc == 0x01) = (sent 0x01 (.load 0 false 5 0)).unacked.head? ∧
    ({ trun with journal := [(0, mapJob)] } : State).journal = [(0, mapJob)] ∧
    (mapJob.started && mapJob.done.isNone && (mapJob.entry.toNat % 2 ^ 16 == 0x50) && bitsOf mapJob.entry.toNat 135 128 == 2 && bitsOf mapJob.entry.toNat 159 144 == 7 && mapJob.gen == 0) = true ∧
    (winSt 1 [sent 0x02 (.store 0 0 0 8 0)]).route 7 = some 0 ∧ (winSt.port 0).st = .active ∧ ((winSt 1 [sent 0x02 (.store 0 0 0 8 0)]).sendCh 7 0).unacked.isEmpty = false ∧
    (0 : Nat) < trun.seamFld 39 32 ∧ serviceOpc 0x02 = false ∧ trun.pkgFld smVOIDED 63 0 < 2 ^ 64 - 1 ∧
    (reqCore.txReqs.find? (fun q => q.tag == 3)) = some aReq ∧ ((winSt 1 [sent 0x01 (.tx 0 3)]).answered (msg7 8)).unacked.find? (fun x => x.m.tsn == 0) = (sent 0x01 (.tx 0 3)).unacked.head? :=
  ⟨⟨by simp [isMessage], by simp [isMessage]⟩, by decide +kernel⟩

/-! ## Witnesses: registers and Cretas -/

def fd (acc : RAcc) (cls : RCls) : RField := ⟨7, 4, acc, cls, 0⟩
def wOk (r : Option RReg) (old : W64) (v : Nat) : Bool := match r with | some r => !(regWrite r (fun _ => true) old.toNat v (2 ^ 64 - 1)).2 | none => false
/-- The link is up and vector 255 of the message table is unmasked. -/
def cxM : State := { trun with cxl := { trun.cxl with st := 2, up := true, bme := true, mse := true, msix := [(255 * 16 + 12, 0)] } }
theorem witness_Registers :
    (findReg configRegs 0).isSome = true ∧ (0 : Nat) < 0x1000 ∧ cxM.cxl.up = true ∧ cxM.cxl.bme = true ∧ cxM.cxl.masked 255 = false ∧ (5 : Nat) % 4 ≠ 3 ∧
    (fd .ro .live).lo ≤ (fd .ro .live).hi ∧ [RAcc.ro, .w1c, .wo, .rw, .rws].all (fun a => (fd a .live).acc == a && (fd a .locked).cls == .locked) = true ∧
    ((findReg clusterRegs 0).map (fun r => r.fields.all (fun f => decide (f.hi < 63) || decide (63 < f.lo)))) = some true ∧
    findReg coreRegs 0x1FF8 = none ∧ wOk (findReg coreRegs 0x1610) (tcore.reg 0x1610) 1 = true ∧ (0x1610 : Nat) % 8 = 0 ∧ (0x1610 : Nat) ≠ rNUMCTL ∧ (0x1610 : Nat) ≠ rFRAMEKEYLO ∧
    (0x1610 : Nat) ≠ rFRAMEKEYHI ∧ wOk (findReg clusterRegs 0x10) 0 5 = true ∧ wOk (regionReg 0x20008) 0 5 = true ∧ governed 0x500000 = true ∧ (dieReg 0x500000).isSome = true ∧
    (findReg cxlRegs 8).isSome = true ∧ (0xFF8 : Nat) + 8 ≤ 0x1000 ∧ trun.cxl.committed = false ∧ (findReg dvsecRegs 0x14).isSome = true := by decide +kernel

/-- Cretas serves; queue 0 stands enabled with 16 entries, tail at t, and both report rings are enabled, in host memory. -/
def crS (t : Nat := 0) (js : SMap JSlot := []) : State :=
  let s := { trun with journal := js, trust := { trun.trust with booted := some (0, []) }, crs := { trun.crs with capsDone := true }, cxl := { trun.cxl with st := 2, bme := true, mse := true } }
  ((((s.setBarFld (qOff 0 0x10) 0 0 1).setBarFld (qOff 0 0x10) 7 4 4).setBarFld (qOff 0 0x18) 31 0 t).setBarFld 0x2008 0 0 1).setBarFld 0x2048 0 0 1
/-- A slot of mailbox 0 with a command and its operand bytes from byte 16 on. -/
def jb (cmd : Nat) (ops : Nat := 0) (src : Nat := 16) : JSlot := { entry := BitVec.ofNat 512 (cmd + ops * 2 ^ 128), src := src, ticket := 0, cq := 0 }
def doneJob (x : JSlot) : JSlot := { x with started := true, done := some (0, 0) }
def tries (cmd : Nat) (ops : Nat) (is : JSlot → Bool) (s : State := crS 0 [(0, jb cmd ops)]) : Bool :=
  match s.job 0 with | some x => is x && !x.started && x.done.isNone && x.record.isNone && s.serves x && s.startable x && (s.early x).isNone | none => false
def rep0 : Report := { code := 0xB041, event := true, level := 0, num := 0, die := 0 }
def posted1 (s : State) (base a : Nat) : Bool := match s.ringWrite base a (rep0.bytes 0 0) with | (some _, _) => true | _ => false

theorem witness_CommandQueues :
    ((crS 1).gate none (spanKeys true (bytesAt .host ((crS 1).slotAddr (qOff 0 0) 16 0) 64).length 64) false).isNone = true ∧
    ((gated 0 ((crS 1).setBarFld (qOff 0 0) 0 0 1)).gate none (spanKeys false ((crS 1).slotAddr (qOff 0 0) 16 0) 64) false).isSome = true ∧ decide (((crS 1).setBarFld (qOff 0 0) 0 0 1).barFld (qOff 0 0) 0 0 = 0) = false ∧
    (crS.setBarFld (mbOff 0 0x80) 1 1 1).barFld (mbOff 0 0x80) 1 1 = 1 ∧ crS.barFld (mbOff 0 0x80) 1 1 = 0 ∧ crS.barFld 0x20 47 32 < 2 ^ 16 - 1 ∧ crS.ringN 0 = 16 ∧
    crS.barFld (qOff 0 0x20) 31 0 = 0 ∧ crS.barFld (qOff 0 0x30) 31 0 = 0 ∧ crS.barFld (qOff 0 0x10) 0 0 = 1 ∧ crS.barFld (qOff 1 0x10) 0 0 = 0 ∧
    (crS 0).accepts 0 = false ∧ (crS 1).accepts 0 = true ∧ ((crS 0 [(0, doneJob (jb 1))]).workEnd 0 (doneJob (jb 1))) = some (0, 0) ∧
    (crS 0 [(0, doneJob (jb 1))]).serves (doneJob (jb 1)) = true ∧ (crS 0 [(0, doneJob (jb 1))]).inOrder (doneJob (jb 1)) = true ∧ (jb 1).cmd ≠ 0x40 ∧
    (crS 0 [(0, doneJob (jb 1 0 0)), (1, { doneJob (jb 1 0 0) with ticket := 1 })]).inOrder { doneJob (jb 1 0 0) with ticket := 1 } = false ∧
    (crS 16).ringN 0 ≤ (crS 16).ringHeld (qOff 0 0x18) (qOff 0 0x20) ∧ (crS 16).barFld 8 0 0 = 0 ∧ crS.barFld 8 19 19 = 1 ∧ (crS.setBarFld 8 19 19 0).barFld 8 19 19 = 0 ∧
    (crS 0 [(0, doneJob (jb 1))]).journal.all (fun p => p.2.record.isNone) = true ∧ ({ trun with frWait := [rep0] } : State).noteHeld.frWait.length = 1 ∧
    trun.noteHeld.frRoom 0 = false ∧ ({ crS with frWait := [rep0] } : State).noteHeld.frRoom 0 = true ∧ posted1 { crS with frWait := [rep0] } 0x2000 0 = true ∧
    trun.erRoom = false ∧ trun.crs.lost = 0 ∧ crS.erRoom = true ∧ posted1 crS 0x2040 0 = true := by decide +kernel

/-- Window 0 open, context 0 enabled. -/
def winOn (s : State) : State := s.updDie 0 (fun d => (d.setReg (winOff 0) 1).setReg 0x500000 1)
def quietS : State := { crS with cores := .replicate 64 {} }
def askedS (st : StSt) : State :=
  { crS with crs := { crS.crs with asked := [(9, 0, 0)] }, cores := crS.cores.set 0 (strm { running with st := st } tcore) }
def arrivedS (nm : Nat) : State := (member (crS.setCore 0 (arrived { pending := true, entered := true }))).setPkgFld (barOff 0) 10 0 nm
def opA (a : Nat) (rest : Nat := 0) : Nat := a * 2 ^ 64 + rest

theorem witness_CommandGates :
    (match ({ crS 0 [(0, jb 0x10)] with crs := {} } : State).early (jb 0x10) with | some c => c == 0xB012 | none => false) = true ∧
    (crS 0 [(0, jb 0x10)]).trust.recovery = false ∧ (jb 0x10 4).malformed = true ∧ (jb 0x30 (2 ^ 376)).malformed = true ∧ (jb 0x30 (2 ^ 376)).num 63 1 ≠ 0 ∧
    (namedBytes 0x30 0).all (fun r => !(decide (r.1 ≤ 63) && decide (63 ≤ r.2))) = true ∧ crS.job 0 = none ∧ crS.hostReach = true ∧ crS.crs.capsDone = true := by decide +kernel

theorem witness_CretasCommands :
    [true, false].all (fun b => (crS.gate none (spanKeys false 0 64) b).isNone) = true ∧ crS.pkgFld 0x500128 15 0 < 2 ^ 16 - 1 ∧
    tries 0x01 0 (isCmd 1) ∧ crS.crs.helloDone = false ∧ tries 0x02 0 (isCmd 2) ∧ tries 0x50 0 (isForm 0x50 0) ∧ tries 0x50 1 (isForm 0x50 1) ∧ tries 0x50 2 (isForm 0x50 2) ∧
    tries 0x50 (2 + 1023 * 2 ^ 16) (isForm 0x50 2) ∧ (jb 0x50 (2 + 1024 * 2 ^ 16)).num 18 2 = 1024 ∧ (jb 0x50 (opA (2 ^ 37) 2)).addr = 2 ^ 37 ∧
    ({ winSt with journal := [(0, jb 0x50 (2 + 5 * 2 ^ 16))] } : State).route (BitVec.ofNat 10 ((jb 0x50 (2 + 5 * 2 ^ 16)).num 18 2)) = some 0 ∧
    tries 0x10 (opA (2 ^ 25) (1 * 2 ^ 128)) (isForm 0x10 0) ∧ framesOk (2 ^ 25) 1 = true ∧ framesOk (2 ^ 39 - 2 ^ 25) 2 = false ∧ framesOk 1 1 = false ∧ tries 0x11 0 (isForm 0x11 0) ∧
    tries 0x10 (1 + 0xFFFF * 2 ^ 192) (isForm 0x10 1) ∧ (jb 0x10 (1 + 64 * 2 ^ 8)).num 17 1 = 64 ∧ (jb 0x10 (1 + 0xFFFF * 2 ^ 192)).num 40 2 = 0xFFFF ∧ crS.winOpen 0 = false ∧
    crS.winOpenBad 0 0 1 0 = false ∧ (winOn crS).winOpenBad 1 0 1 0 = true ∧ (winOn crS).winOpen 0 = true ∧ tries 0x11 1 (isForm 0x11 1) ∧ tries 0x10 2 (isForm 0x10 2) ∧
    (tableWrite (dieReg 0x500000) (fun _ => (winOn crS).dieRuns 0x500000) (((winOn crS).die 0).reg 0x500000) (2 ^ 16) fullMask).2 = true ∧
    (tableWrite (dieReg 0x500000) (fun _ => crS.dieRuns 0x500000) ((crS.die 0).reg 0x500000) 1 fullMask).2 = false ∧ tries 0x10 3 (isForm 0x10 3) ∧
    crS.deviceQuiet = false ∧ quietS.deviceQuiet = true := by decide +kernel

theorem witness_CretasPartCommands :
    crS.journal.all (fun p => p.2.invalTurn.isNone) = true ∧ ({ jb 0x12 with started := true, stream := some 1 } : JSlot).invalTurn = some (2 * 0 + 1) ∧
    ({ tcore with invPend := [⟨0, false⟩] } : Core).invPend = [⟨0, false⟩] ∧ (tk { tcore with invPend := [⟨0, false⟩] }).invClear 0 false = true ∧
    crS.inReset 2 0 = false ∧ ({ crS with crs := { crS.crs with resets := [(2, 0)] } } : State).inReset 2 0 = true ∧ (jb 0x42 (opA 0 (40))).num 19 1 = 0 ∧
    (crS.gate none (spanKeys false 0 16) false).isNone = true ∧
    tries 0x12 0 (isCmd 0x12) ∧ invBad 0 = false ∧ invBad (BitVec.ofNat 64 ((jb 0x12 0x800000).num 16 8)) = true ∧ (crS.core 0).run ≠ .inReset ∧
    tries 0x23 (opA 1 (1 * 2 ^ 144)) (isCmd 0x23) ∧ (jb 0x23 4).num 16 1 = 4 ∧ (jb 0x23 (1024 * 2 ^ 128)).pressRegs.root = 1024 ∧ (jb 0x23 (1024 * 2 ^ 144)).pressRegs.nmemb = 1024 ∧
    crS.pressRuns 0 = false ∧ (arrivedS 1).pressRuns 0 = true ∧ pressMay ((arrivedS 1).pressRegs 0) (jb 0x23 (opA 3)).pressRegs ((arrivedS 1).localDone 0) = false ∧
    tries 0x41 0 (isCmd 0x41) ∧ (crS.region 0).patch.running = false ∧ (patching 2 0).patch.running = true ∧ (patching 2 0).patch.ticket ≠ some 0 ∧ ({} : Region).patchRefused 0 = false ∧
    ({ spareBad := true } : Region).patchRefused 0 = true ∧ (jb 0x41 8).num 16 1 = 8 ∧ (jb 0x41 (16 * 2 ^ 8)).num 17 1 = 16 ∧
    tries 0x42 0 (isCmd 0x42) ∧ (jb 0x42 (17 * 2 ^ 8)).num 17 1 = 17 ∧ (jb 0x42 (opA (2 ^ 33 - 1))).addr < 2 ^ 33 ∧ ((chR { soak := some ⟨false⟩ }).chans.get 0).soak.isSome = true ∧
    (({} : Region).chans.get 0).soak.isSome = false ∧ (0 : PhysId) ≠ ({} : Region).spare ∧ tries 0x51 (opA 9 (1 * 2 ^ 128)) (isCmd 0x51) ∧ (askedS .halted).crs.asked.find? (fun b => b.1 == 9) = some (9, 0, 0) ∧
    crS.crs.asked.find? (fun b => b.1 == 9) = none ∧ ((askedS .halted).core 0).stream 0 = some { running with st := .halted } ∧ (jb 0x51 (opA 9 (1 * 2 ^ 128))).num 32 1 = 1 ∧
    (patching 3 0).patch.state = 3 ∧ (patching 3 0).ringWait = [] ∧ ({ patching 3 0 with patch := { (patching 3 0).patch with ticket := some 0 } } : Region).patch.ticket = some 0 := by decide +kernel

/-! ## Witnesses: launches, part resets, the wear gauge and resoles -/

/-- A launch block at 0x2000 of device memory. -/
def blockS (b : List Byte) (js : SMap JSlot) : State := (crS 0 js).memWrite 0x2000 b
def lj : JSlot := jb 0x21 (opA 0x2000 1)
def runOf (s : State) : LaunchRun := { mask := 1, block := (s.peek false 0x2000 512).1 }
/-- NORERUN, an entry, a TIMEOUT and, at will, a malformed tagged PCC. -/
def blk (rejoin : Nat) (pcc : Nat := 0) : List Byte := leBytes 8 1 ++ leBytes 8 0x1000 ++ leBytes 8 rejoin ++ leBytes 8 5 ++ leBytes 16 pcc
def ranJ (rejoin : Nat) (b0 : Byte) : JSlot := { lj with started := true, launch := some { mask := 1, block := b0 :: (blk rejoin).drop 1, interrupted := true } }
def launched (n : Nat) (b0 : Byte) : State :=
  { crS 0 [(0, ranJ n b0)] with cores := (Vector.replicate 64 {}).set 0 { tcore with launch := some 0, run := .inReset }, crs := { crS.crs with resets := [(0, 0)] } }

theorem witness_LaunchesAndPartResets :
    ((blockS (blk 0) [(0, lj)]).gate none (spanKeys false 0x2000 512) false).isNone = true ∧ ((gated 0x80 (blockS (blk 0) [(0, lj)])).gate none (spanKeys false 0x2000 512) false).isSome = true ∧
    ({ jb 0x22 with reruns := 1 } : JSlot).reruns ≠ 0 ∧ (jb 0x22).reruns = 0 ∧ ((launched 0 0).core 0).run = .inReset ∧ (crS.core 0).run ≠ .inReset ∧
    (levelCores 0 0).all (launched 0 0).issuedNone = true ∧ (levelCores 0 0).all (tk reqCore).issuedNone = false ∧
    ((rgS (chR (retr 0))).region 0).queuesEmpty = false ∧ ({ launched 0 0 with crs := { crS.crs with resets := [(2, 0)] } } : State).crs.resets.contains (2, 0) = true ∧
    tries 0x21 (opA 0x2000 1) (isCmd 0x21) ∧ 0x2000 % 64 = 0 ∧ devSpan 0x2000 512 = true ∧ lj.cores = [0] ∧ (jb 0x21 (opA 0x2000 0)).cores = [] ∧
    ((blockS (blk 0) [(0, lj)]).core 0).run ≠ .inReset ∧ (blockS (blk 0) [(0, lj)]).inLaunch 0 0 = false ∧ (runOf (blockS (blk 0) [])).reserved = false ∧
    (runOf (blockS (blk 0) [])).capsBad = false ∧ (runOf (blockS (leBytes 8 2) [])).reserved = true ∧ (runOf (blockS (blk 0 (2 ^ 124)) [])).capsBad = true ∧
    ((runOf (blockS (blk 0 (2 ^ 124)) [])).cap 0).tag = true ∧ ((runOf (blockS (blk 0 (2 ^ 124)) [])).cap 0).malformed = true ∧
    ({ lj with launch := some (runOf (blockS (blk 0) [])) } : JSlot).launch.isSome = true ∧ (runOf (blockS (blk 0) [])).num 24 8 ≠ 0 ∧ (runOf (crS)).num 24 8 = 0 ∧
    tries 0x22 (0x4400 * 2 ^ 32) (isCmd 0x22) ∧ (jb 0x22 64).num 16 1 = 64 ∧ (checkFused txCore (txCore.getC 0) 0x4400).toOption.isSome = true ∧ txCore.freeCtxs.length = 16 ∧
    (checkFused txCore (txCore.getC 0) 0x4001).toOption.isSome = false ∧ (ctxsFull txCore).freeCtxs.length = 0 ∧
    tries 0x40 0 (isCmd 0x40) ∧ tries 0x40 (3) (isCmd 0x40) ∧ (crS 0 [(0, doneJob (jb 0x40))]).inOrder (doneJob (jb 0x40)) = true ∧
    (launched 0 1).rs.capture = none ∧ ((launched 0 1).core 0).launch = some 0 ∧ ((0 : Fin 64) ∈ levelCores 0 0) ∧
    (match (ranJ 0 1).launch with | some r => r.rejoin == 0 && r.norerun && r.interrupted | none => false) = true ∧
    (match (ranJ 0 0).launch with | some r => r.rejoin == 0 && !r.norerun | none => false) = true ∧ (match (ranJ 64 0).launch with | some r => r.rejoin != 0 | none => false) = true ∧
    (launched 0 0).crs.resets.contains (0, 0) = true ∧ crS.crs.resets.contains (0, 0) = false ∧ ({ launched 0 0 with journal := [] } : State).journal = [] ∧
    ((launched 0 0).crs.resets.erase (0, 0)).any (fun r => (levelCores r.1 r.2).contains 0) = false ∧ ((launched 0 0).core 0).run = .inReset ∧ (ranJ 0 0).cores = [0] := by decide +kernel

/-- The risk of R368 where the measured inputs are x; the other three are counted. -/
def gBins (s : State) : Nat × Nat :=
  let l := ((countedSince s.ceCounters s.pwr.gaugeSeen, countedSince s.replayCounters (s.pwr.gaugeSeen.drop s.ceCounters.length)) :: s.pwr.gaugeBins).take 10
  ((l.map Prod.fst).sum, (l.map Prod.snd).sum)
def riskFor (x : Nat) (s : State) : Int :=
  let score (n : Nat) : Int := max 0 (min 1000 ((1000 * (((if n = 3 then min (2 ^ 32 - 1) (s.pwr.droops.take 10).sum else if n = 0 then min (2 ^ 32 - 1) (gBins s).1 else if n = 1 then min (2 ^ 32 - 1) (gBins s).2 else x : Nat) : Int) - s.wgLo n)).tdiv (s.wgHi n - s.wgLo n)))
  let mx := max (score 0) (max (score 1) (max (score 2) (max (score 3) (score 4))))
  min 1000 (mx + (score 0 + score 1 + score 2 + score 3 + score 4 - mx) / 4)
def thr (t al : Nat) (armed : Nat) (alarmed : Bool) : State :=
  let s := { trun with rs := { trun.rs with standing := some (0, listOf [] []), alarmed := alarmed } }
  ((s.setPkgFld 0x800010 9 0 t).setPkgFld 0x800010 29 20 al).setPkgFld 0x800010 38 38 armed
theorem witness_WearGauge :
    [0, 1, 2, 3, 4].all (fun n => trun.wgHi n != trun.wgLo n) = true ∧ trun.rs.standing = none ∧ (thr 0 0 1 false).wgArmed = true ∧ (thr 0 0 1 false).wgThresh ≤ 1000 ∧
    ((thr 0 0 1 false).wgThresh : Int) ≤ riskFor 0 (thr 0 0 1 false) ∧ (thr 1001 1001 1 false).wgThresh = 1001 ∧ riskFor 50 (thr 1000 1000 1 false) < ((thr 1000 1000 1 false).wgThresh : Int) ∧
    (thr 0 0 0 false).wgArmed = false ∧ (thr 0 0 0 false).rs.alarmed = false ∧ (thr 0 1000 0 false).wgAlarm = 1000 ∧ ((thr 0 1000 0 false).wgAlarm : Int) ≤ riskFor 0xFFFFFFFF (thr 0 1000 0 false) ∧
    (thr 0 1000 0 true).rs.alarmed = true ∧ [0, 1, 2, 3, 4].all (fun n => (thr 0 1000 0 true).wgHi n != (thr 0 1000 0 true).wgLo n) = true := by decide +kernel

/-- Context 0 maps its first 32 GiB to device address 0, whose first frame it owns; core 0 is a member of channel 0, and the package is paired
with package 7, whose route is port 0. -/
def vaS (js : SMap JSlot := []) : State :=
  let d := (((({} : Die).setReg 0x500000 1).setReg (chOff 0 0) 1).setReg 0x800100 (7 * 2 ^ 16 + 8)).setReg 0x750038 8
  { crS 0 js with mem := [(0, 7)], dies := .replicate 2 { d with masks := [(0, 1)] }, ports := .replicate 6 actK,
                  cores := .replicate 64 {}, rs := { crS.rs with slotLen := 2 ^ 26 } }
/-- A list of one tensor of 64 bytes, its STEP at 0x80, its capture area at 2^25. -/
def listB : List Byte := [1, 0, 1, 0, 0, 0, 0, 0] ++ leBytes 8 0x80 ++ leBytes 8 (2 ^ 25) ++ leBytes 8 (2 ^ 26) ++ List.replicate 32 0 ++
  [1, 0, 0, 0, 0, 0, 0, 0] ++ leBytes 8 0x100 ++ leBytes 8 64 ++ List.replicate 8 0
def listS (js : SMap JSlot := []) : State := (vaS js).memWrite 0x1000 listB
def theList : RList := listOf (listB.take 64) [listB.drop 64]
def capt (quiet : Bool) : Capture := { ch := 0, snap := some 0, list := theList, epoch := 0, quiet := quiet, hems := if quiet then listS.hemRecs 0 else [] }
def capS (quiet : Bool) : State := { listS with rs := { listS.rs with capture := some (capt quiet) } }
def replN (n : Nat) (fail : Option (BitVec 16) := none) (l : RList := theList) : Repl := { snap := some 0, list := l, ch := 0, stepNo := 5, bytes := 196608, slot := 1, phase := n, fail := fail }
theorem witness_Resoles :
    ((listS.gate none (spanKeys false 0x1000 96) false).isNone && (listS.gate none (spanKeys false 0x1000 64) false).isNone) = true ∧ ((gated 0x40 listS).gate none (spanKeys false 0x1000 64) false).isSome = true ∧
    crS.hostUp = true ∧ trun.hostUp = false ∧ ({ theList with toHost := true } : RList).toHost = true ∧
    (listS.gate none ((theList.stepVa :: theList.cursors.map REnt.va).flatMap (fun va => listS.vaKeys theList.ctx .load va 8)) false).isNone = true ∧
    ((gated 2 listS).gate none ((theList.stepVa :: theList.cursors.map REnt.va).flatMap (fun va => (gated 2 listS).vaKeys theList.ctx .load va 8)) false).isSome = true ∧
    (listS.spanWait false theList.capPa (imageLen (imageLens theList 1))).isNone = true ∧
    (listS.gate none (theList.tensors.flatMap (fun e => listS.vaKeys theList.ctx .load e.va e.len)) false).isNone = true ∧
    tries 0x30 (opA 0x1000) (isCmd 0x30) ∧ (jb 0x30 4).num 16 1 = 4 ∧ (match listS.readList 0x1000 0 with | .ok l => l == theList | .error _ => false) = true ∧
    (match listS.readList 0x1004 0 with | .ok _ => false | .error e => e == 0xB013) = true ∧ listS.rs.capture = none ∧ (capS false).rs.capture = some (capt false) ∧
    (listS.memberList 0).all (fun m => (listS.core m).captureQuiet) = true ∧ listS.memberList 0 = [0] ∧ ({ tcore with vq := [vEnt (.vxMv 0 vf0) 1] } : Core).captureQuiet = false ∧ (listS.listFault theList).isNone = true ∧
    (trun.listFault theList).isSome = true ∧ (capt true).quiet = true ∧ (capt true).list.toHost = false ∧ listS.hostPaired = false ∧
    (match copySecs (theList.tensors.zip (imageOffs (imageLens theList ((capt true).hems.length / 4)))) (capS true) theList with | .ok _ => true | .error _ => false) = true ∧
    listS.rs.repl = none ∧ (replN 1).fail = none ∧ listS.replBusy = false ∧ listS.route (BitVec.ofNat 10 (listS.pkgFld 0x800100 25 16)) = some 0 ∧ (replN 1).list.toHost = false ∧
    (replN 3).phase = 3 ∧ (replN 0 (some 0x9050)).fail.isSome = true ∧ (replN 0 none { theList with toHost := true }).list.toHost = true := by decide +kernel

def storeOf (owner holder : Nat) (feed : Nat) : List Byte := storeHeader owner holder feed (2 ^ 26)
/-- A PAIR that waits for the header, and how a header ends it. -/
def pairS : State := crS 0 [(0, { jb 0x32 7 with started := true, stream := some 3 })]
def endsPair (b : List Byte) : Option (BitVec 16 × BitVec 128) := ((pairS.pairAnswer 0 { msg7 8 with tsn := 3, data := b }).job 0).bind JSlot.done
theorem witness_Pairing :
    (crS.route 7).isNone = true ∧ (listS.route 7).isSome = true ∧ (pairS.job 0).isSome = true ∧ ({ jb 0x32 7 with started := true, stream := some 3 } : JSlot).cmd = 0x32 ∧
    pairS.job 0 = some { jb 0x32 7 with started := true, stream := some (3 : BitVec 32).toNat } ∧ ({ msg7 8 with tsn := 4 } : Msg).tsn ≠ 3 ∧
    endsPair (storeOf 0 7 0) = some (0xB031, 0) ∧ endsPair (storeOf 0 7 1) = some (0, 1) ∧
    tries 0x32 7 (isCmd 0x32) ∧ (jb 0x32 0xFFFF).num 16 2 = 0xFFFF ∧ (jb 0x32 1024).num 16 2 = 1024 ∧ (jb 0x32 7).num 16 2 < 1024 ∧ (storeOf 0 7 1).length = 64 ∧ storeValid (storeOf 0 7 1) = true ∧
    numAt (storeOf 0 7 1) 2 2 = crS.straps.pos.toNat ∧ numAt (storeOf 0 7 1) 4 2 = 7 ∧ ((storeOf 0 7 0).getD 6 0).toNat = crS.straps.feed.toNat ∧
    ((storeOf 0 7 1).getD 6 0).toNat ≠ crS.straps.feed.toNat ∧ storeValid (List.replicate 64 0) = false ∧ (jb 0x32 (7 + 2 ^ 16)).num 18 1 = 1 ∧ (jb 0x32 7).num 18 1 ≠ 1 := by decide +kernel

/-- A restore descriptor at 0x1000 for the store at 2^30 of device memory; its slot 0 holds an image of STEP 5 with no section. -/
def descB (src consist : Byte) : List Byte := [1, src, 0, 0, 0, consist, 0, 0] ++ leBytes 8 (2 ^ 30) ++ List.replicate 48 0
def imgB (flags : Byte) : List Byte := let a := leBytes 4 0x4C4F5352 ++ [1, flags, 0, 0] ++ leBytes 8 5 ++ List.replicate 104 0; a ++ leBytes 8 (crc64Sum a)
def restS (b : List Byte) (im : List Byte) : State :=
  (((vaS.memWrite 0x1000 b).memWrite (2 ^ 30) (storeOf 7 0 1)).memWrite (2 ^ 30 + 32) (leBytes 8 5)).memWrite (2 ^ 30 + 2 ^ 25) im
def restOk (b : List Byte) (im : List Byte) : Bool :=
  let s := restS b im
  let d := (s.peek false 0x1000 64).1
  let rd := s.storeRead 0 (numAt d 8 8) []
  let h := (rd 0 64).1
  let ih := (rd (slotOff (numAt h 8 8) 0) 128).1
  numAt d 0 1 == 1 && decide (numAt d 5 1 ≤ 1) && numAt d 7 1 == 0 && numAt d 16 48 == 0 && numAt d 1 1 == 0 && numAt d 4 1 == 0 && numAt d 6 1 == 0 && devSpan (numAt d 8 8) 64 &&
    s.ctxEn 0 && storeValid h && numAt ih 0 4 == 0x4C4F5352 && numAt ih 4 1 == 1 && crc64Sum (ih.take 120) == numAt ih 120 8 && numAt ih 8 8 == numAt h 32 8 && numAt ih 36 2 == 0 &&
    s.rs.standing.isNone && (numAt d 5 1 == 0 || numAt ih 5 1 % 2 == 1)
/-- A cursor record: VA 0x200, 3 draws of 4, base 1. -/
def curB : List Byte := leBytes 8 0x200 ++ leBytes 8 3 ++ leBytes 8 1 ++ leBytes 4 4 ++ [0, 0, 0, 0]
def hemAt (k : Core) (n : W64) : Core := k.setReg (rHEM 0 2) n
theorem witness_Restores :
    (vaS.gate none (spanKeys false 0x1000 64) false).isNone = true ∧ ((gated 0x40 vaS).gate none (spanKeys false 0x1000 64) false).isSome = true ∧
    (let s := restS (descB 0 0) (imgB 1)
     s.hostUp = true ∧ s.gate none (spanKeys false (2 ^ 30) 64) false = none ∧ s.gate none (spanKeys false (2 ^ 30 + 2 ^ 25) 128) false = none ∧ s.gate none (spanKeys false (2 ^ 30 + 2 ^ 25 + 128) 0) false = none) ∧
    ({ vaS with cxl := trun.cxl } : State).hostUp = false ∧
    tries 0x31 (opA 0x1000) (isCmd 0x31) ∧ 0x1000 % 64 = 0 ∧ devSpan 0x1000 64 = true ∧ restOk (descB 0 0) (imgB 1) = true ∧ restOk (descB 0 1) (imgB 1) = true ∧
    numAt (descB 3 0) 1 1 = 3 ∧ numAt (descB 0 2) 5 1 = 2 ∧ trun.ctxEn 0 = false ∧ numAt (imgB 0) 5 1 % 2 = 0 ∧ storeValid (List.replicate 64 0) = false ∧
    (match restoreCursors 0 [curB] vaS with | .ok x => x.2.length == 1 | .error _ => false) = true ∧
    (match restoreCursors 0 [curB] (vaS.setCore 0 (hemAt {} 13)) with | .ok x => x.2.length == 0 | .error _ => false) = true ∧
    (match restoreHems [List.replicate 32 0] vaS with | .ok _ => true | .error _ => false) = true := by decide +kernel

/-! ## Witnesses: trust and debug -/

/-- An image of one body byte whose header, signature and digest are whole, and the part that takes it. -/
def imgHead : List Byte :=
  leBytes 4 0x43525431 ++ [1, 0, 0, 0, 0, 0] ++ leBytes 2 0x8640 ++ [0xB1, 0, 0, 0] ++ leBytes 4 1 ++ List.replicate 12 0 ++ sha256 [0] ++ List.replicate 192 0
def image : List Byte := imgHead ++ List.replicate 7937 0
def partT : Trust :=
  { State.reset.trust with fuses := { State.reset.trust.fuses with imgKeyH := .replicate 4 (BitVec.ofNat 256 (beNat (sha256 (List.replicate 32 0)))) },
                           sigs := [(List.replicate 32 0, imgHead, List.replicate 7856 0)] }
theorem test_image_passes : partT.imageDetail image = none := by decide +kernel

theorem numAt_append (a r : List Byte) (lo n : Nat) (h : lo + n ≤ a.length) : numAt (a ++ r) lo n = numAt a lo n := by
  unfold numAt
  rw [List.drop_append_of_le_length (by omega), List.take_append_of_le_length (by simp; omega)]

/-- An image passes with anything behind it, as it lies in its slot. -/
theorem imageDetail_append (t : Trust) (a r : List Byte) (h : t.imageDetail a = none) (h2 : 8193 ≤ a.length) : t.imageDetail (a ++ r) = none := by
  have hn : ∀ lo n, lo + n ≤ 8193 → numAt (a ++ r) lo n = numAt a lo n := fun lo n k => numAt_append a r lo n (by omega)
  have hs : ∀ lo n, lo + n ≤ a.length → ((a ++ r).drop lo).take n = (a.drop lo).take n := fun lo n k => by
    rw [List.drop_append_of_le_length (by omega), List.take_append_of_le_length (by simp; omega)]
  have ht : (a ++ r).take 256 = a.take 256 := List.take_append_of_le_length (by omega)
  unfold Trust.imageDetail zeroBytes at h ⊢
  simp only [] at h ⊢
  rw [hn 0 4 (by omega), hn 4 1 (by omega), hn 5 1 (by omega), hn 13 3 (by omega), hn 20 12 (by omega), hn 96 160 (by omega), hn 8112 80 (by omega), hn 10 2 (by omega),
    hn 12 1 (by omega), hn 6 1 (by omega), hn 7 1 (by omega), hn 16 4 (by omega), hs 64 32 (by omega), hs 256 7856 (by omega), hs 32 32 (by omega), ht]
  split at h
  · cases h
  split at h
  · cases h
  split at h
  · cases h
  split at h
  · cases h
  split at h
  · cases h
  rename_i h1 h2 h3 h4 h5
  have hl : ¬a.length < 8192 + numAt a 16 4 := fun k => h5 (Or.inr (Or.inr (Or.inl k)))
  rw [if_neg h1, if_neg h2, if_neg h3, if_neg h4, hs 8192 _ (by omega), if_neg]
  intro k
  rcases k with k | k | k | k
  · exact h5 (Or.inl k)
  · exact h5 (Or.inr (Or.inl k))
  · rw [List.length_append] at k; omega
  · exact h5 (Or.inr (Or.inr (Or.inr k)))

/-- Both slots hold the image; the root PLLs have locked. -/
def bootS (boot : Nat) : State :=
  { trun with trust := { partT with store := .replicate 2 (writeBytes zeroByte [] 0 image) }, pwr := { trun.pwr with pll := true },
              straps := { trun.straps with boot := BitVec.ofNat 2 boot } }
theorem readBytes_add (d : Nat → Byte) (m : SMap Byte) (a x y : Nat) : readBytes d m a (x + y) = readBytes d m a x ++ readBytes d m (a + x) y := by
  simp [readBytes, List.range_add, Nat.add_assoc]

theorem imageDetail_store (t : Trust) (st : Vector (SMap Byte) 2) (b : List Byte) : ({ t with store := st } : Trust).imageDetail b = t.imageDetail b := rfl

theorem slot_image (st : Vector (SMap Byte) 2) (k : Fin 2) (e : st.get k = writeBytes zeroByte [] 0 image) :
    ({ partT with store := st } : Trust).imageDetail (readBytes zeroByte (st.get k) 0 16777216) = none := by
  have hl : image.length = 8193 := by decide +kernel
  have r := readBytes_writeBytes zeroByte image [] 0
  have x := readBytes_add zeroByte (writeBytes zeroByte [] 0 image) 0 image.length (16777216 - image.length)
  rw [r, show image.length + (16777216 - image.length) = 16777216 by omega] at x
  rw [e, x]
  exact (imageDetail_store partT _ _).trans (imageDetail_append partT _ _ test_image_passes (by omega))

theorem slot_of (s : State) (st : Vector (SMap Byte) 2) (k : Fin 2) (ht : s.trust = { partT with store := st }) (e : st.get k = writeBytes zeroByte [] 0 image) :
    s.trust.imageDetail (s.slotBytes k) = none := by
  unfold State.slotBytes
  rw [ht]
  exact slot_image st k e

/-- An empty slot fails the first check. -/
theorem slot_empty (s : State) (k : Fin 2) (e : s.trust.store.get k = []) : s.trust.imageDetail (s.slotBytes k) = some 1 := by
  have x := readBytes_add zeroByte [] 0 4 (16777216 - 4)
  rw [show 4 + (16777216 - 4) = 16777216 by omega] at x
  have n : numAt (s.slotBytes k) 0 4 = 0 := by
    unfold State.slotBytes
    rw [e, x, numAt_append _ _ 0 4 (by simp [readBytes])]
    decide
  unfold Trust.imageDetail
  simp only []
  rw [if_pos (Or.inl (by rw [n]; decide))]

/-- Slot 0 is empty, slot 1 holds the image. -/
def fallS : State := { bootS 0 with trust := { partT with store := #v[[], writeBytes zeroByte [] 0 image] } }
/-- A LOAD_IMAGE of slot 1 from host memory. -/
def liS (t : Trust) : State := { crS 0 [(0, jb 0x20 (opA 8193 (1 * 2 ^ 136)))] with trust := { t with booted := some (0, []) } }
theorem witness_Images :
    (jb 0x20 (opA 8193 (2 ^ 128))).num 32 1 = 1 ∧ (crS.gate none (spanKeys false 0 8193) false).isNone = true ∧ ((gated 0 crS).gate none (spanKeys false 0 8193) false).isSome = true ∧
    tries 0x20 (opA 8193 (2 ^ 136)) (isCmd 0x20) = true ∧ crS.hostReach = true ∧ (jb 0x20 (opA 8193 (2 ^ 136))).num 32 1 = 0 ∧ (jb 0x20 (opA 8193 (2 ^ 136))).num 33 1 = 1 ∧
    (jb 0x20 (opA 8192 0)).addr = 8192 ∧ (liS partT).trust.booted = some (0, []) ∧ (jb 0x20 (opA 8193 (2 * 2 ^ 128))).num 32 1 = 2 ∧ partT.imageDetail [] = some 1 := by
  decide +kernel

theorem witness_BootMay :
    (bootS 0).pwr.rst = false ∧ (bootS 0).pwr.pll = true ∧ (bootS 0).trust.booted = none ∧ (bootS 0).trust.recovery = false ∧ (bootS 0).straps.boot = 0 ∧ (bootS 1).straps.boot = 1 ∧
    (bootS 2).straps.boot = 2 ∧ (bootS 0).trust.preferred = 0 ∧ trun.pwr.pll = false :=
  ⟨rfl, rfl, rfl, rfl, by decide, by decide, by decide, rfl, rfl⟩

theorem witness_BootPasses (boot : Nat) (k : Fin 2) : (bootS boot).trust.imageDetail ((bootS boot).slotBytes k) = none :=
  slot_of (bootS boot) (.replicate 2 (writeBytes zeroByte [] 0 image)) k rfl (by simp [Vector.get])

theorem get_second (w : SMap Byte) : (#v[([] : SMap Byte), w]).get 1 = w := rfl

theorem witness_BootSecond : fallS.trust.imageDetail (fallS.slotBytes 1) = none :=
  slot_of fallS #v[[], writeBytes zeroByte [] 0 image] 1 rfl (get_second _)

theorem witness_BootFails : fallS.trust.imageDetail (fallS.slotBytes 0) = some 1 := slot_empty fallS 0 rfl

/-- A token of scope 1 that its key signed, and a part that takes it and, with 32 zero bytes, its password. -/
def tokenA : List Byte := leBytes 4 0x4447544B ++ [1, 1, 0, 0] ++ leBytes 32 5
def token : List Byte := tokenA ++ (State.reset.trust.devId ++ List.replicate 7912 0)
def keyBits : BitVec 256 := BitVec.ofNat 256 (beNat (sha256 (List.replicate 32 0)))
def dbgT : Trust :=
  { State.reset.trust with booted := some (0, []), nonce := some 5, sigs := [(List.replicate 32 0, token.take 128, token.drop 128)],
                           fuses := { State.reset.trust.fuses with dbgKeyH := .replicate 2 keyBits, pwEn := true, pwScope := 3, pwHash := keyBits } }

theorem numAt_drop (a r : List Byte) (lo n : Nat) (h : a.length ≤ lo) : numAt (a ++ r) lo n = numAt r (lo - a.length) n := by
  unfold numAt
  rw [List.drop_append, List.drop_eq_nil_of_le h, List.nil_append]

theorem token_passes : dbgT.tokenDetail token 600 = none := by
  have la : tokenA.length = 40 := by decide
  have ld : State.reset.trust.devId.length = 32 := devId_length _
  have hu : dbgT.fuses.uds = State.reset.trust.fuses.uds := rfl
  have hid : dbgT.devId = State.reset.trust.devId := by simp only [Trust.devId, Trust.pubKey, Trust.pkSeed, Trust.skSeed, hu]
  have h1 : ∀ lo n, lo + n ≤ 40 → numAt token lo n = numAt tokenA lo n := fun lo n k => numAt_append _ _ _ _ (by omega)
  have h2 : ∀ lo n, 72 ≤ lo → numAt token lo n = numAt (List.replicate 7912 0) (lo - 72) n := fun lo n k => by
    rw [show token = tokenA ++ (State.reset.trust.devId ++ List.replicate 7912 0) from rfl, numAt_drop _ _ _ _ (by omega), numAt_drop _ _ _ _ (by omega), la, ld]
    rw [show lo - 40 - 32 = lo - 72 by omega]
  have h3 : (token.drop 40).take 32 = State.reset.trust.devId := by rw [token, List.drop_left' la, List.take_left' ld]
  have h4 : (token.drop 72).take 32 = List.replicate 32 0 := by
    rw [token, show 72 = 40 + 32 from rfl, ← List.drop_drop, List.drop_left' la, List.drop_left' ld, List.take_replicate]; rfl
  have h5 : token.length = 7984 := by rw [token, List.length_append, List.length_append, la, ld, List.length_replicate]
  have h6 : dbgT.verifies (List.replicate 32 0) (token.take 128) (token.drop 128) = true := by simp [Trust.verifies, dbgT]
  have h7 : hashIs keyBits (List.replicate 32 0) = true := by decide +kernel
  unfold Trust.tokenDetail zeroBytes
  simp only []
  rw [h1 0 4 (by omega), h1 4 1 (by omega), h1 7 1 (by omega), h1 5 1 (by omega), h1 6 1 (by omega), h1 8 32 (by omega), h2 104 24 (by omega), h3, h4, h5, h6, hid]
  rw [if_neg (by decide), if_neg (by decide), if_neg (by simp)]
  have h8 : hashIs (dbgT.fuses.dbgKeyH.get (Fin.ofNat 2 (numAt tokenA 6 1))) (List.replicate 32 0) = true := h7
  rw [h8, if_neg (by decide)]
  simp

theorem witness_Unlocking :
    ({ trun.trust with streak := 6 } : Trust).delay = 32 * 2000000000 ∧ ({ trun.trust with streak := 7 } : Trust).delay = 64 * 2000000000 ∧ ({ trun.trust with streak := 1 } : Trust).delay = 2000000000 ∧
    trun.since trun.trust.failAt < trun.trust.delay ∧ trun.trust.delay ≤ ({ trun with dies := .replicate 2 { ts := 2000000000 } } : State).since trun.trust.failAt ∧
    tries 0x60 0 (isCmd 0x60) ∧ tries 0x61 0 (isForm 0x61 0) ∧ tries 0x61 1 (isForm 0x61 1) ∧ tries 0x61 2 (isForm 0x61 2) ∧ tries 0x61 3 (isForm 0x61 3) ∧ crS.hostReach = true ∧
    (jb 0x61 (opA 1 1)).addr % 64 ≠ 0 ∧ (jb 0x61 (opA 64 1)).addr % 64 = 0 ∧ trun.trust.holdoff = false ∧ ({ trun.trust with holdoff := true } : Trust).holdoff = true ∧ trun.trust.idKey = true ∧
    (jb 0x60 (0xFFFFFFFF * 2 ^ 128)).num 32 4 = 0xFFFFFFFF ∧ (jb 0x60 0).num 32 4 = 0 ∧ dbgT.tokenDetail [] 0 = some 1 ∧
    dbgT.passwordDetail (List.replicate 32 0 ++ [3] ++ List.replicate 31 0) = none ∧ dbgT.passwordDetail [] = some 1 ∧ dbgT.scope.toNat < 1 ∧ (3 : Nat) ≤ ({ dbgT with scope := 3 } : Trust).scope.toNat := by
  decide +kernel
theorem witness_UnlockToken : dbgT.tokenDetail token 600 = none := token_passes

theorem witness_DoeAndTap :
    trun.fwUp = false ∧ crS.fwUp = true ∧ crS.trust.idKey = true ∧ ({ crS.trust with idKey := false } : Trust).idKey = false ∧ crS.trust.signing = none ∧
    ({ crS.trust with signing := some [] } : Trust).signing.isSome = true ∧ ({ crS.trust with reply := [1] } : Trust).reply ≠ [] ∧ crS.trust.reply = [] ∧ trun.pwr.perst = true ∧
    ({ trun.pwr with perst := false } : Power).perst = false ∧ trun.pkgFld 0x900030 47 32 < 2 ^ 16 - 1 := by decide +kernel

/-! ## Witnesses: the CXL port, power and the block as a whole -/

/-- The CXL link stands in L0 with the decoder committed over 256 MiB, and memory is ready. -/
def cxS : State := { trun with memReady := true, cxl := { trun.cxl with st := 2, up := true, bme := true, mse := true, hdm := [(0x18, 0x10000000), (0x20, 0x400)] } }
def snoopS : State := { cxS with biSnps := [⟨1, true, true⟩] }
def fullF : State := { cxS with regions := .replicate 8 { filter := List.replicate filterEntries ⟨9, false⟩ } }
/-- The link is down; core 0 waits for host memory with a load, a transfer's write and a store. -/
def hostByte (n : Nat) : List SAddr := [⟨.host, n⟩]
def downS : State :=
  { crS with cxl := { crS.cxl with st := 3, bme := false, mse := false },
             cores := (Vector.replicate 64 {}).set 0 { tcore with lateLoads := [{ lateTile with bytes := hostByte 64 }], txReqs := [{ aReq with units := [(⟨.tile, 0⟩, ⟨.host, 64⟩)], data := some [(1, false)] }],
                                                                  storeBuf := [{ oneStore 0 [1] with bytes := [(⟨.host, 64⟩, 1)] }] } }
def waitKind (i : Nat) : Nat := match downS.hostWaits[i]? with | some (.load _ _) => 1 | some (.tx _ q) => if q.hostDst.isSome then 2 else 0 | some (.store _) => 3 | _ => 0

theorem witness_HostLink :
    trun.cxl.up = false ∧ cxS.cxl.up = true ∧ cxS.cxl.st ≠ 4 ∧ cxS.hdmHit 0xFFFFFFF = true ∧ cxS.hdmHit 0x10000000 = false ∧ hostOffPa 64 / 64 = 1 ∧ snoopS.biSnps = [⟨1, true, true⟩] ∧
    cxS.biSnps = [] ∧ (cxS.filtFull 1 .owned).isNone = true ∧ cxS.homeWait = [] ∧ cxS.journal = [] ∧ ({ cxS with biSnps := [⟨1, false, true⟩] } : State).biSnps = [⟨1, false, true⟩] ∧
    trun.pwr.rst = false ∧ trun.cxl.st = 0 ∧ (3 : BitVec 3) ∈ [1, 2, 3] ∧ (4 : BitVec 5) ∈ [4, 8, 16] ∧ (1 : BitVec 2) ≠ 0 ∧ RecoveryCause.busMasterClear ≠ .d3hot ∧ cxS.cxl.st = 2 ∧
    cxS.cxl.bme = true ∧ bitsOf (cxS.dvReg 0x18).toNat 15 0 < 2 ^ 16 - 1 ∧ ({ cxS.cxl with st := 3, up := false } : Cxl).st = 3 ∧ downS.hostUp = false ∧ cxS.hostUp = true ∧
    waitKind 0 = 1 ∧ waitKind 1 = 2 ∧ waitKind 2 = 3 ∧ (downS.hostWaits[3]?).isNone = true := by decide +kernel

theorem witness_FilterFull : fullF.filtFull 1 .owned = some ⟨9, false⟩ := by
  have h : (fullF.region (fullF.homeOf 1)).filter = List.replicate filterEntries ⟨9, false⟩ := by
    show ((Vector.replicate 8 _).get _ : Region).filter = _
    simp only [Vector.get, Vector.toArray_replicate, Array.getElem_replicate]
  have k : fullF.filtEntry 1 = none := by
    unfold State.filtEntry
    rw [if_neg (by decide), h, List.find?_eq_none]
    intro x hx
    rw [List.eq_of_mem_replicate hx]
    decide
  unfold State.filtFull
  rw [k, h]
  simp only []
  rw [List.length_replicate, List.head?_replicate]
  rfl

def pw (f : Power → Power) : State := { trun with pwr := f trun.pwr }
theorem witness_PowerAndReset :
    (pw (fun p => { p with good := false })).pwr.good = false ∧ trun.pwr.stby = true ∧ trun.pwr.good = true ∧ trun.pwr.rst = false ∧ (pw (fun p => { p with rst := true })).pwr.rst = true ∧
    ResetPin.perst ≠ .stbyGood ∧ (trun.classWatts < (901 : BitVec 11).toNat ∧ max trun.pwr.dPower trun.divFloor < 4) ∧
    (let s := pw (fun p => { p with dPower := 4 }); 100 * (854 : BitVec 11).toNat < 95 * s.classWatts ∧ s.divFloor < max s.pwr.dPower s.divFloor ∧ max s.pwr.dPower s.divFloor = s.divNow) ∧
    ¬(trun.classWatts < (900 : BitVec 11).toNat) ∧ ¬(100 * (855 : BitVec 11).toNat < 95 * trun.classWatts) ∧ trun.pwr.hot = false ∧ (800 : Int) ≤ (800 : BitVec 16).toInt ∧
    (799 : BitVec 16).toInt < 800 ∧ (760 : Int) ≤ (760 : BitVec 16).toInt ∧ (759 : BitVec 16).toInt < 760 ∧ (919 : BitVec 16).toInt < 920 ∧ (920 : Int) ≤ (920 : BitVec 16).toInt ∧
    max (pw (fun p => { p with hot := true })).pwr.dTemp (pw (fun p => { p with hot := true })).divFloor < 4 ∧ trun.pwr.throt = false ∧ (0x58 : BitVec 7) = trun.smbAddr ∧ trun.pwr.ran = true ∧
    ({ trun with straps := { trun.straps with pwrClass := 1 } } : State).divNow = 0 ∧ (pw (fun p => { p with dPower := 2 })).divNow = 2 ∧ (pw (fun p => { p with dPower := 4 })).divNow = 4 ∧ (7 : BitVec 8) ∉ [0x01, 0x02, 0x03, 0x04, 0x05, 0x06] ∧
    (pw (fun p => { p with ran := false })).pwr.ran = false ∧ (pw (fun p => { p with alert := true })).pwr.alert = true ∧ trun.pwr.alert = false := by decide +kernel

theorem witness_StepTakesTheFront :
    ({ ts := BitVec.allOnes 64 } : Die).ts = BitVec.allOnes 64 ∧ ({ ts := 1 } : Die).ts ≠ 0 ∧
    ({ trun with pending := [.pllLock] } : State).pending = .pllLock :: [] ∧ trun.pending = [] ∧ trun.pwr.rst = false ∧ (pw (fun p => { p with rst := true })).pwr.rst = true ∧
    4 ≤ (({ ts := 4 } : Die).ts).toNat := by decide +kernel
theorem witness_StepKeepsCanonicalForm : State.reset.canonical = true := by decide +kernel
theorem witness_StepKeepsCanonicalForm_next : ∃ t, step { State.reset with pending := [.pllLock] } = .next t := ⟨_, rfl⟩
theorem witness_ResetTable : (findReg clusterRegs 0).isSome = true := by decide +kernel
theorem witness_DecodeOfEncode :
    (Instr.add 0 1 2 3).wf = true ∧ (match encodeSyl (.add 0 1 2 3) with | some x => x.1 == 0 || x.1 == 1 || x.1 == 2 | none => false) = true ∧
    (Instr.vxAdd 0 vf0 extA0).wf = true ∧ (match encodeSyl (.vxAdd 0 vf0 extA0) with | some (_, _, some _) => true | _ => false) = true := by decide +kernel

end Sys2Proof.Tests
end

/-! ## Scalar instructions that change only their own core (R132) -/

namespace Sys2Proof.Machine

/-- Core c issues i as a bundle of one syllable of slots 0 to 4, and goes on at the next bundle: i sets no address itself. -/
structure ScalarOn (c : CoreId) (i : Instr) : Prop where
  exec_eq : ∀ s, exec i s = .next (s.issueOne c i) := by exact fun _ => rfl
  encodes : ∃ n b, encodeSyl i = some (n, b, none) ∧ n < 5 := by exact ⟨_, _, rfl, by decide⟩
  straight : ∀ n k, ({ i := some i, slot := n, syl := 0, ext := 0 } : Piece).jumps k = false := by exact fun _ _ => rfl

section
variable {s : State} {c : CoreId} {i : Instr} {gD : GReg}

theorem ScalarOn.does_of_goCore (hi : ScalarOn c i) {f : Core → Core} (hu : issueOf i 1 s = goCore c f) : s.does c i f := by
  intro ht
  obtain ⟨n, b, he, hn⟩ := hi.encodes
  rw [hi.exec_eq, issueOne_retired ht he hn (hi.straight n _) hu (fun _ => rfl)]

theorem ScalarOn.does_of_putG (hi : ScalarOn c i) {v w : W64} (hu : issueOf i 1 s = putG c gD v) (hv : v = w) :
    s.does c i (fun k => k.setG gD w) :=
  hv ▸ hi.does_of_goCore hu

theorem ScalarOn.doesFault_of_fault (hi : ScalarOn c i) {code : BitVec 16} {addr : W64} (hu : issueOf i 1 s = .fault code addr)
    (hc : ¬(0x7010 ≤ code.toNat ∧ code.toNat ≤ 0x703F)) : s.doesFault c i code addr := by
  intro ht
  obtain ⟨n, b, he, _⟩ := hi.encodes
  exact ⟨_, hi.exec_eq s, issueOne_fault ht he hu hc⟩

end

/-! ## The register forms and the sums (R134, R135) -/

theorem goCore_id (c : CoreId) : goCore c id = .go id := congrArg Issue.go (funext fun s => State.updCore_id s c)

/-- R134: the word that cmp and cmpi write, for each of the six condition codes. -/
theorem boolWord_cmpHolds (a b : W64) :
    boolWord (cmpHolds 0 a b) = (if a = b then 1 else 0) ∧ boolWord (cmpHolds 1 a b) = (if a = b then 0 else 1) ∧
    boolWord (cmpHolds 2 a b) = (if a.slt b then 1 else 0) ∧ boolWord (cmpHolds 3 a b) = (if a.slt b then 0 else 1) ∧
    boolWord (cmpHolds 4 a b) = (if a.ult b then 1 else 0) ∧ boolWord (cmpHolds 5 a b) = (if a.ult b then 0 else 1) := by
  simp [boolWord, cmpHolds, ← Bool.not_eq_true, ite_not]

theorem aluRegs_scalarOn (c : CoreId) (gD gA gB : GReg) : ∀ x ∈ aluRegs, ScalarOn c (x.1 c gD gA gB) := by
  simp only [aluRegs, List.forall_mem_cons, List.not_mem_nil, false_implies, implies_true, and_true]
  exact ⟨{}, {}, {}, {}, {}, {}, {}, {}, {}, {}, {}, {}, {}, {}, {}, {}, {}⟩

theorem aluRegs_issueOf (c : CoreId) (gD gA gB : GReg) (s : State) :
    ∀ x ∈ aluRegs, issueOf (x.1 c gD gA gB) 1 s = putG c gD (x.2 ((s.core c).getG gA) ((s.core c).getG gB)) := by
  obtain ⟨h0, h1, h2, h3, h4, h5⟩ := boolWord_cmpHolds ((s.core c).getG gA) ((s.core c).getG gB)
  simp only [aluRegs, List.forall_mem_cons, List.not_mem_nil, false_implies, implies_true, and_true, ← h0, ← h1, ← h2, ← h3, ← h4, ← h5]
  exact ⟨rfl, rfl, rfl, rfl, rfl, rfl, rfl, rfl, rfl, rfl, rfl, rfl, rfl, rfl, rfl, rfl, rfl⟩

theorem sel_does (c : CoreId) (gD gA gB : GReg) (s : State) :
    s.does c (.sel c gD gA gB) (fun k => if (s.core c).getG gA = 0 then k else k.setG gD ((s.core c).getG gB)) := by
  have hi : ScalarOn c (.sel c gD gA gB) := {}
  have hu : issueOf (.sel c gD gA gB) 1 s = if (s.core c).getG gA = 0 then .go id else putG c gD ((s.core c).getG gB) := rfl
  by_cases h : (s.core c).getG gA = 0
  · simp only [h, if_true] at hu ⊢
    exact hi.does_of_goCore (hu.trans (goCore_id c).symm)
  · simp only [h, if_false] at hu ⊢
    exact hi.does_of_goCore hu

theorem addOvf_eq_false_iff (a b : W64) : addOvf a b = false ↔ fits64 (a.toInt + b.toInt) := by
  simp [addOvf, fits64]

theorem subOvf_eq_false_iff (a b : W64) : subOvf a b = false ↔ fits64 (a.toInt - b.toInt) := by
  simp [subOvf, fits64]

/-- R135: the two outcomes of a wrapping sum or difference whose overflow flag is ovf. -/
theorem ScalarOn.does_of_ovfPut {i : Instr} {c : CoreId} {gD : GReg} {s : State} {v : W64} {ovf : Bool} {fits : Prop} (hi : ScalarOn c i)
    (hu : issueOf i 1 s = ovfPut c gD v ovf s) (hf : ovf = false ↔ fits) :
    ((¬(s.core c).fld rARITHCTL 1 1 = 1 ∨ fits) → s.does c i (fun k => k.setG gD v)) ∧
    ((s.core c).fld rARITHCTL 1 1 = 1 → ¬fits → s.doesFault c i 0x1031 0) := by
  have hc : (ovf && (s.core c).ovfTrap) = true ↔ ¬fits ∧ (s.core c).fld rARITHCTL 1 1 = 1 := by
    simp [Core.ovfTrap, ← hf]
  constructor
  · intro h
    refine hi.does_of_goCore (hu.trans (if_neg ?_))
    rw [hc]
    exact fun ⟨hfit, htrap⟩ => h.elim (fun hoff => hoff htrap) hfit
  · intro htrap hfit
    exact hi.doesFault_of_fault (hu.trans (if_pos (hc.mpr ⟨hfit, htrap⟩))) (by decide)

theorem registerForms_holds : registerForms := by
  intro c gD gA gB s
  refine ⟨fun x hx => ?_, sel_does c gD gA gB s⟩
  exact (aluRegs_scalarOn c gD gA gB x hx).does_of_goCore (aluRegs_issueOf c gD gA gB s x hx)

theorem addSubtract_holds : addSubtract := by
  intro c gD gA gB imm s a b j trap
  have hadd := ScalarOn.does_of_ovfPut (i := .add c gD gA gB) {} (s := s) rfl (addOvf_eq_false_iff a b)
  have hsub := ScalarOn.does_of_ovfPut (i := .sub c gD gA gB) {} (s := s) rfl (subOvf_eq_false_iff a b)
  have haddi := ScalarOn.does_of_ovfPut (i := .addi c gD gA imm) {} (s := s) rfl (addOvf_eq_false_iff a j)
  exact ⟨hadd.1, hsub.1, haddi.1, hadd.2, hsub.2, haddi.2⟩

/-- Settles O1: each form's outcome is one write of gD, and the trap is the branch of ovfPut. -/
theorem aluRegisterForms : Obligations.AluRegisterForms := ⟨registerForms_holds, addSubtract_holds⟩

/-! ## The counts of bits and the reversal (R134, R150) -/

theorem clzN_zero : clzN 0 = 64 := rfl

theorem clzN_spec {x : Nat} (hx : x < 2 ^ 64) (h0 : x ≠ 0) :
    clzN x < 64 ∧ x.testBit (63 - clzN x) = true ∧ x < 2 ^ (64 - clzN x) := by
  have hlog : x.log2 < 64 := (Nat.log2_lt h0).mpr hx
  have hclz : clzN x = 63 - x.log2 := if_neg h0
  have h63 : 63 - clzN x = x.log2 := by omega
  have h64 : 64 - clzN x = x.log2 + 1 := by omega
  rw [h63, h64]
  exact ⟨by omega, Nat.testBit_log2 h0, Nat.lt_log2_self⟩

theorem ctzN_zero : ctzN 0 = 64 := by decide

/-- ctzN finds the least bit that is set. -/
theorem ctzN_spec {x : Nat} (hx : x < 2 ^ 64) (h0 : x ≠ 0) :
    ctzN x < 64 ∧ x.testBit (ctzN x) = true ∧ x % 2 ^ ctzN x = 0 := by
  cases hfind : (List.range 64).find? (fun i => x.testBit i) with
  | none =>
    obtain ⟨i, hi⟩ := Nat.exists_testBit_of_ne_zero h0
    have hlt : i < 64 := (Nat.pow_lt_pow_iff_right (by decide)).mp (Nat.lt_of_le_of_lt (Nat.ge_two_pow_of_testBit hi) hx)
    have hclear := List.find?_range_eq_none.mp hfind i hlt
    simp [hi] at hclear
  | some i =>
    have hctz : ctzN x = i := by rw [ctzN, hfind]; rfl
    obtain ⟨hset, hmem, hleast⟩ := List.find?_range_eq_some.mp hfind
    rw [hctz]
    refine ⟨List.mem_range.mp hmem, hset, Nat.eq_of_testBit_eq fun j => ?_⟩
    rw [Nat.testBit_mod_two_pow, Nat.zero_testBit]
    by_cases hj : j < i
    · simpa [hj] using hleast j hj
    · simp [hj]

theorem popN_le (x : Nat) : popN x ≤ 64 := by
  simpa [popN] using List.length_filter_le (fun i => x.testBit i) (List.range 64)

/-- R150: reversing one bit more shifts the reversal up and puts the new bit lowest. -/
theorem brevN_succ (x n : Nat) : brevN x (n + 1) = 2 * brevN x n + (x.testBit n).toNat := by
  have hshift : (List.range n).foldl (fun r i => if x.testBit i then r + 2 ^ (n + 1 - 1 - i) else r) 0 = 2 * brevN x n := by
    refine List.foldl_rel (r := fun p q => p = 2 * q) rfl fun i hi p q hpq => ?_
    have hpow : n + 1 - 1 - i = n - 1 - i + 1 := by have := List.mem_range.mp hi; omega
    split
    · rw [hpq, hpow, Nat.pow_succ']
      omega
    · exact hpq
  rw [brevN, List.range_succ, List.foldl_append, hshift]
  simp only [List.foldl_cons, List.foldl_nil]
  split <;> rename_i hbit
  · rw [hbit, Nat.add_sub_cancel, Nat.sub_self, Nat.pow_zero, Bool.toNat_true]
  · rw [Bool.eq_false_iff.mpr hbit, Bool.toNat_false, Nat.add_zero]

theorem testBit_brevN (x : Nat) {n j : Nat} (h : j < n) : (brevN x n).testBit j = x.testBit (n - 1 - j) := by
  induction n generalizing j with
  | zero => omega
  | succ n ih =>
    have hbit := Bool.toNat_le (x.testBit n)
    rw [brevN_succ]
    cases j with
    | zero =>
      have hlow : (2 * brevN x n + (x.testBit n).toNat) % 2 = (x.testBit n).toNat := by omega
      rw [Nat.testBit_zero, hlow, Nat.add_sub_cancel, Nat.sub_zero]
      cases x.testBit n <;> rfl
    | succ j =>
      have hhalf : (2 * brevN x n + (x.testBit n).toNat) / 2 = brevN x n := by omega
      have hpos : n + 1 - 1 - (j + 1) = n - 1 - j := by omega
      rw [Nat.testBit_succ, hhalf, ih (by omega), hpos]

theorem brevN_lt (x n : Nat) : brevN x n < 2 ^ n := by
  induction n with
  | zero => exact Nat.one_pos
  | succ n ih =>
    rw [brevN_succ, Nat.pow_succ]
    have := Bool.toNat_le (x.testBit n)
    omega

theorem bitCounts_holds : bitCounts := by
  intro x hx
  refine ⟨clzN_spec hx, clzN_zero, ctzN_spec hx, ctzN_zero, popN_le x, fun n _ j hj => ?_, fun n _ => brevN_lt x (n + 1)⟩
  exact testBit_brevN x (Nat.lt_succ_of_le hj)

/-! ## The forms of one source or of an immediate (R134, R149, R150, R163) -/

theorem setWidth_toNat_mod_64 (n : BitVec 6) : (n.setWidth 64).toNat % 64 = n.toNat := by
  rw [BitVec.toNat_setWidth_of_le (by decide), Nat.mod_eq_of_lt n.isLt]

theorem setWidth_ofNat_eq_ofNat_mod (w n : Nat) : (BitVec.ofNat w n).setWidth 64 = BitVec.ofNat 64 (n % 2 ^ w) := by
  apply BitVec.eq_of_toNat_eq
  rw [BitVec.toNat_setWidth, BitVec.toNat_ofNat, BitVec.toNat_ofNat]

/-- R148: a core that takes a bundle holds none, so MLO and MHI are read as they stand. -/
theorem readProduct_of_takes {s : State} {c : CoreId} {i : Instr} (ht : s.takes c i = true) :
    (s.core c).readProduct = ((s.core c).reg rMLO, (s.core c).reg rMHI) := by
  obtain ⟨hfree, -⟩ := State.takes_parts ht
  have hheld : (s.core c).held = none := by
    simp only [State.coreFree, Bool.and_eq_true, Option.isNone_iff_eq_none] at hfree
    exact hfree.2
  rw [Core.readProduct, hheld]
  rfl

section
variable (c : CoreId) (gD gA : GReg) (s : State)

theorem mfm_does (hi : Bool) : s.does c (.mfm c gD hi) (fun k => k.setG gD ((s.core c).reg (if hi then 0x1518 else 0x1510))) := by
  intro ht
  have hprod := readProduct_of_takes ht
  have hsc : ScalarOn c (.mfm c gD hi) := {}
  refine hsc.does_of_putG (s := s) (gD := gD) rfl ?_ ht
  cases hi <;> rw [hprod] <;> rfl

theorem cmpi_does (imm : BitVec 6) :
    let a := (s.core c).getG gA
    let b := imm.signExtend 64
    let cmpiPuts (cc : BitVec 4) (v : W64) : Prop := s.does c (.cmpi c gD gA cc imm) (fun k => k.setG gD v)
    cmpiPuts 0 (if a = b then 1 else 0) ∧ cmpiPuts 1 (if a = b then 0 else 1) ∧
    cmpiPuts 2 (if a.slt b then 1 else 0) ∧ cmpiPuts 3 (if a.slt b then 0 else 1) ∧
    cmpiPuts 4 (if a.ult b then 1 else 0) ∧ cmpiPuts 5 (if a.ult b then 0 else 1) := by
  intro a b cmpiPuts
  have hput (cc : BitVec 4) (v : W64) (hv : boolWord (cmpHolds cc a b) = v) : cmpiPuts cc v :=
    ScalarOn.does_of_putG {} rfl hv
  obtain ⟨h0, h1, h2, h3, h4, h5⟩ := boolWord_cmpHolds a b
  exact ⟨hput 0 _ h0, hput 1 _ h1, hput 2 _ h2, hput 3 _ h3, hput 4 _ h4, hput 5 _ h5⟩

theorem shiftImmediates_do (n : BitVec 6) :
    let a := (s.core c).getG gA
    s.does c (.shli c gD gA n) (fun k => k.setG gD (a <<< n.toNat)) ∧
    s.does c (.shri c gD gA n) (fun k => k.setG gD (a >>> n.toNat)) ∧
    s.does c (.srai c gD gA n) (fun k => k.setG gD (a.sshiftRight n.toNat)) := by
  have hamt : (n.setWidth 64).toNat % 64 = n.toNat := setWidth_toNat_mod_64 n
  intro a
  exact ⟨ScalarOn.does_of_putG {} rfl (congrArg (a <<< ·) hamt), ScalarOn.does_of_putG {} rfl (congrArg (a >>> ·) hamt),
    ScalarOn.does_of_putG {} rfl (congrArg (a.sshiftRight ·) hamt)⟩

end

theorem immediateForms_holds : immediateForms := by
  intro c gD gA gB s a b puts
  have hput {i : Instr} {v w : W64} (hi : ScalarOn c i) (hu : issueOf i 1 s = putG c gD v) (hv : v = w) : puts i w := hi.does_of_putG hu hv
  refine ⟨fun imm => ⟨?andi, ?ori, ?xori⟩, shiftImmediates_do c gD gA s, cmpi_does c gD gA s, ?clz, ?ctz, ?popc, ?parity, fun n => ?brev,
    fun z => ⟨?sext, ?zext⟩, fun z => ⟨?crc32c, ?crc64⟩, mfm_does c gD s, fun z pos imm => ?movK, fun idx => ?ctlRd⟩
  case zext => exact hput {} rfl (setWidth_ofNat_eq_ofNat_mod _ _)
  -- What is left issues the very value that the statement names.
  all_goals exact hput {} rfl rfl

/-- Settles O2: each form writes the value that its issue names; the counts and the reversal by their bits. -/
theorem aluImmediateForms : Obligations.AluImmediateForms := ⟨immediateForms_holds, bitCounts_holds⟩

end Sys2Proof.Machine

/-! ## The bits of a register's field (R4) -/

namespace Sys2Proof.Machine

theorem bitsOf_lt (x hi lo : Nat) : bitsOf x hi lo < 2 ^ (hi + 1 - lo) := Nat.mod_lt _ (Nat.two_pow_pos _)

theorem bitsOf_eq_self {x hi : Nat} (h : x < 2 ^ (hi + 1)) : bitsOf x hi 0 = x := Nat.mod_eq_of_lt h

theorem bitsOf_eq_zero {x lo : Nat} (hi : Nat) (h : x < 2 ^ lo) : bitsOf x hi lo = 0 := by
  rw [bitsOf, Nat.shiftRight_eq_zero x lo h, Nat.zero_mod]

theorem testBit_bitsOf (x hi lo i : Nat) : (bitsOf x hi lo).testBit i = (decide (i < hi + 1 - lo) && x.testBit (lo + i)) := by
  rw [bitsOf, Nat.testBit_mod_two_pow, Nat.testBit_shiftRight]

/-- setBits keeps the bits above and below its field. -/
theorem setBits_eq (x hi lo v : Nat) :
    setBits x hi lo v =
      2 ^ lo * (2 ^ (hi + 1 - lo) * (x / 2 ^ lo / 2 ^ (hi + 1 - lo)) + v % 2 ^ (hi + 1 - lo)) + x % 2 ^ lo := by
  have hx : x = 2 ^ lo * (2 ^ (hi + 1 - lo) * (x / 2 ^ lo / 2 ^ (hi + 1 - lo)) + bitsOf x hi lo) + x % 2 ^ lo := by
    rw [bitsOf, Nat.shiftRight_eq_div_pow, Nat.div_add_mod, Nat.div_add_mod]
  rw [Nat.mul_add, Nat.mul_comm _ (bitsOf x hi lo)] at hx
  rw [setBits, Nat.mul_add, Nat.mul_comm _ (v % _)]
  omega

theorem testBit_setBits {hi lo : Nat} (x v i : Nat) (h : lo ≤ hi) :
    (setBits x hi lo v).testBit i = if lo ≤ i ∧ i ≤ hi then v.testBit (i - lo) else x.testBit i := by
  rw [setBits_eq, Nat.testBit_two_pow_mul_add _ (Nat.mod_lt _ (Nat.two_pow_pos lo))]
  by_cases hlo : i < lo
  · rw [if_pos hlo, if_neg (by omega), Nat.testBit_mod_two_pow, decide_eq_true hlo, Bool.true_and]
  rw [if_neg hlo, Nat.testBit_two_pow_mul_add _ (Nat.mod_lt _ (Nat.two_pow_pos _))]
  by_cases hhi : i ≤ hi
  · have hin : i - lo < hi + 1 - lo := by omega
    rw [if_pos hin, if_pos ⟨by omega, hhi⟩, Nat.testBit_mod_two_pow, decide_eq_true hin, Bool.true_and]
  · have hpos : i - lo - (hi + 1 - lo) + (hi + 1 - lo) + lo = i := by omega
    rw [if_neg (by omega), if_neg (by omega), Nat.testBit_div_two_pow, Nat.testBit_div_two_pow, hpos]

/-- A field that lies inside the field just written reads the value's own bits. -/
theorem Core.fld_setFld_within (k : Core) (o v : Nat) {hi lo hi' lo' : Nat} (hlo : lo ≤ lo') (hle : lo' ≤ hi') (hhi : hi' ≤ hi)
    (hw : hi < 64) : (k.setFld o hi lo v).fld o hi' lo' = bitsOf v (hi' - lo) (lo' - lo) := by
  refine Nat.eq_of_testBit_eq fun i => ?_
  rw [Core.fld, Core.setFld, Core.reg_setReg_self, testBit_bitsOf, testBit_bitsOf, BitVec.testBit_toNat, BitVec.getLsbD_ofNat,
    testBit_setBits _ _ _ (by omega)]
  by_cases hi1 : i < hi' + 1 - lo'
  · have hwid : i < hi' - lo + 1 - (lo' - lo) := by omega
    have hpos : lo' + i - lo = lo' - lo + i := by omega
    rw [if_pos ⟨by omega, by omega⟩, decide_eq_true hi1, decide_eq_true hwid, decide_eq_true (by omega : lo' + i < 64), hpos,
      Bool.true_and]
  · rw [decide_eq_false hi1, decide_eq_false (by omega : ¬i < hi' - lo + 1 - (lo' - lo)), Bool.false_and, Bool.false_and]

theorem Core.fld_congr {k k' : Core} {o : Nat} (h : k.reg o = k'.reg o) (hi lo : Nat) : k.fld o hi lo = k'.fld o hi lo := by
  rw [Core.fld, Core.fld, h]

theorem Core.reg_flushQueue_ne (k : Core) {o : Nat} (h : o ≠ rSCFLUSH) : k.flushQueue.reg o = k.reg o :=
  Core.reg_count_ne { k with pq := [] } _ _ _ h

theorem Core.reg_setScap (k : Core) (i : Fin 5) (x : Cap) (o : Nat) : (k.setScap i x).reg o = k.reg o := rfl

/-! ## The poison of a general register (R142) -/

theorem Core.poisoned_putG (k : Core) (r x : GReg) (v : W64) (p : Bool) :
    (k.putG r v p).poisoned x = if x = r ∧ r ≠ 0 then p else k.poisoned x := by
  by_cases hr : r = 0
  · rw [if_neg (fun h => h.2 hr), Core.putG, if_pos hr]
  have hx64 : x.toNat < 64 := x.isLt
  have hreg : ((k.putG r v p).reg rGPOISON).getLsbD x.toNat =
      if x = r then p.toNat.testBit (x.toNat - r.toNat) else (k.reg rGPOISON).getLsbD x.toNat := by
    have hput : (k.putG r v p).reg rGPOISON = BitVec.ofNat 64 (setBits (k.reg rGPOISON).toNat r.toNat r.toNat p.toNat) := by
      rw [Core.putG, if_neg hr]
      exact Core.reg_setReg_self _ _ _
    have hrange : (r.toNat ≤ x.toNat ∧ x.toNat ≤ r.toNat) ↔ x = r := by
      rw [← BitVec.toNat_inj]
      omega
    rw [hput, BitVec.getLsbD_ofNat, testBit_setBits _ _ _ (Nat.le_refl _), decide_eq_true hx64, Bool.true_and, BitVec.testBit_toNat]
    simp only [hrange]
  rw [Core.poisoned, hreg]
  by_cases hx : x = r
  · rw [hx, if_pos rfl, if_pos ⟨rfl, hr⟩, Nat.sub_self, bne_iff_ne.mpr hr, Bool.true_and]
    cases p <;> rfl
  · simp [hx, Core.poisoned]

/-! ## A bundle of one instruction that waits (R132, R141) -/

theorem Core.ready_of_coreFree {s : State} {c : CoreId} (hf : s.coreFree c = true) (ps : List Piece) : (s.core c).ready ps = true := by
  simp only [State.coreFree, Bool.and_eq_true, Option.isNone_iff_eq_none] at hf
  obtain ⟨⟨hrun, hexc⟩, hheld⟩ := hf
  rw [Core.ready, hrun, hexc, hheld]
  rfl

theorem Piece.waits_of_hasOperands {k : Core} {i : Instr} {p : Piece} (ho : k.hasOperands i = true) (hpi : p.i = some i) :
    p.waits k = false := by
  simp only [Core.hasOperands, Bool.and_eq_true, List.all_eq_true, Bool.not_eq_true'] at ho
  obtain ⟨⟨hbusy, hlate⟩, -⟩ := ho
  rw [Piece.waits, hpi]
  rw [Bool.or_eq_false_iff, List.any_eq_false, List.any_eq_false]
  exact ⟨fun r hr => Bool.eq_false_iff.mp (hbusy r hr), fun r hr => Bool.eq_false_iff.mp (hlate r hr)⟩

/-- R141: an instruction that must wait, neither for an operand nor for a partial overlap, holds its bundle in D; nothing else changes. -/
theorem issueOne_hold {s : State} {c : CoreId} {i : Instr} {n b : Nat} {why : Held} (ht : s.takes c i = true)
    (he : encodeSyl i = some (n, b, none)) (hu : issueOf i 1 s = .hold why) (hov : why ≠ .overlap) (hsb : why ≠ .scoreboard) :
    s.heldFor (s.issueOne c i) c why := by
  obtain ⟨hfree, hwf, hone, hops, -⟩ := State.takes_parts ht
  obtain ⟨w, hp⟩ := pieceOf_of_encode he
  simp only [hwf, if_true] at hp
  have hwait := Piece.waits_of_hasOperands (p := { i := some i, slot := n, syl := w, ext := 0 }) hops rfl
  have hsound : (srcRegs i).all (fun r => !(s.core c).poisoned r) = true := by
    simp only [Core.hasOperands, Bool.and_eq_true] at hops
    exact hops.2
  have hissue := (Piece.issue_of_sound (p := { i := some i, slot := n, syl := w, ext := 0 }) (len := 1) rfl hsound).trans hu
  unfold State.issueOne
  simp only [hp, Core.ready_of_coreFree hfree, hone, Bool.not_true, Bool.false_eq_true, if_false, if_true]
  unfold State.runBundle
  simp only [List.find?_cons, hwait, List.find?_nil, List.map_cons, List.map_nil, hissue, pickHold, pickIssue, List.findSome?_cons,
    Issue.holdsInD, if_neg hov, Option.map_some, Option.orElse]
  unfold State.holdBundle
  simp only [if_neg hsb, hov, decide_false, Bool.false_and, Bool.false_eq_true, if_false]
  exact ⟨_, rfl, rfl⟩

/-! ## The steps of a restoration (R173 step 6, R174) -/

/-- R174: the capabilities of the frame at lo, in the frame's order. -/
def Core.frameCapsAt (k : Core) (lo : Nat) : List Cap := (List.range 18).map (k.frameCap lo (bitsOf (k.tileNat lo 64) 273 256))

/-- R176: where the program goes on: at the PCC of the frame, or past the bundle where SKIP asks for it. -/
def Core.resumePcc (k : Core) (lo : Nat) : Cap :=
  let h := k.tileNat lo 64
  let x := (k.frameCapsAt lo).getD 0 {}
  if k.fld rEXCTL 1 1 = 1 && bitsOf h 55 48 = 0 then x.moved (x.addr + 4 * bitsOf h 63 56) else x

/-- q with the capabilities of k's frame at lo. -/
def Core.putFrameCaps (q k : Core) (lo : Nat) : Core :=
  { (q.setScap 0 (k.resumePcc lo)).setScap 1 ((k.frameCapsAt lo).getD 1 {}) with
    c := .ofFn (fun n => (k.frameCapsAt lo).getD (n.val + 2) {}) }

/-- q with g1 to gn written in order, each with its value and its poison. -/
def Core.putGs (q : Core) (val : Nat → W64) (pois : Nat → Bool) (n : Nat) : Core :=
  (List.range n).foldl (fun q m => q.putG (BitVec.ofNat 6 (m + 1)) (val m) (pois m)) q

/-- q with the registers of l written in order, from place j on. -/
def Core.putRegs (q : Core) (val : Nat → W64) (l : List Nat) (j : Nat) : Core :=
  (l.zipIdx j).foldl (fun q p => q.setReg p.1 (val p.2)) q

/-- R170: in the frame at lo, the word of general register n + 1, its poison, and the word of register n of frameRegs. -/
def Core.savedG (k : Core) (lo n : Nat) : W64 := BitVec.ofNat 64 (k.tileNat (lo + 0x360 + 8 * n) 8)
def Core.savedPois (k : Core) (lo n : Nat) : Bool := k.tilePois (lo + 0x360 + 8 * n) 8
def Core.savedReg (k : Core) (lo n : Nat) : W64 := BitVec.ofNat 64 (k.tileNat (lo + 0x558 + 8 * n) 8)

/-- q with the general registers and the registers of frameRegs of k's frame at lo (R170). -/
def Core.putFrameRegs (q k : Core) (lo : Nat) : Core :=
  (q.putGs (k.savedG lo) (k.savedPois lo) 63).putRegs (k.savedReg lo) frameRegs 0

/-- R128: q with VL of k's frame at lo and the vector instructions of its darn records. -/
def Core.putFrameVec (q k : Core) (c : CoreId) (lo : Nat) : Core :=
  let es := (List.range (min 8 (bitsOf (k.tileNat lo 64) 23 16))).filterMap (fun j => k.vEntryOf c (k.tileNat (lo + 0x160 + 64 * j) 64))
  ({ q with vl := BitVec.ofNat 13 (k.tileNat (lo + 0x598) 8), vq := es, feq := q.feq ++ weltJobs es, sb := 0, late := 0 } : Core).markQueue

/-- The restoration step by step, as R173 step 6 orders it. -/
theorem Core.restore_eq (k : Core) (c : CoreId) (lo : Nat) :
    k.restore c lo =
      (((((((k.putFrameCaps k lo).putFrameRegs k lo).putFrameVec k c lo).setScap 2 (k.escap.moved (lo + Config.frameBytes))).setFld
        rEXSTAT 2 0 (bitsOf (k.tileNat lo 64) 9 8)).setFld rEXCTL 1 0 (bitsOf (k.tileNat lo 64) 24 24)).count rEXCNT 31 16
          ((k.frameCapsAt lo).filter (fun x => !x.tag)).length).flushQueue := rfl

/-! ## What the steps write, and what they leave -/

section
variable (q k : Core) (val : Nat → W64) (pois : Nat → Bool) (c : CoreId) (lo : Nat)

theorem Core.putGs_succ (n : Nat) :
    q.putGs val pois (n + 1) = (q.putGs val pois n).putG (BitVec.ofNat 6 (n + 1)) (val n) (pois n) := by
  simp [Core.putGs, List.range_succ]

/-- All that writes of general registers can do. -/
theorem Core.putGs_eq (n : Nat) : ∃ g sb regs, q.putGs val pois n = { q with g := g, sb := sb, regs := regs } := by
  induction n with
  | zero => exact ⟨q.g, q.sb, q.regs, rfl⟩
  | succ n ih =>
    obtain ⟨g, sb, regs, hq⟩ := ih
    rw [Core.putGs_succ, hq]
    rcases Core.putG_cases { q with g := g, sb := sb, regs := regs } (BitVec.ofNat 6 (n + 1)) (val n) (pois n) with
      ⟨-, hput⟩ | ⟨-, regs', hput⟩
    · exact ⟨g, sb, regs, hput⟩
    · exact ⟨_, _, regs', hput⟩

/-- Each of g1 to gn holds its value and its poison. -/
theorem Core.getG_poisoned_putGs {n : Nat} (hn : n < 64) {r : GReg} (h0 : r ≠ 0) (hr : r.toNat ≤ n) :
    (q.putGs val pois n).getG r = val (r.toNat - 1) ∧ (q.putGs val pois n).poisoned r = pois (r.toNat - 1) := by
  have hpos : r.toNat ≠ 0 := fun h => h0 (BitVec.eq_of_toNat_eq h)
  induction n with
  | zero => omega
  | succ n ih =>
    have hnum : (BitVec.ofNat 6 (n + 1)).toNat = n + 1 := by rw [BitVec.toNat_ofNat, Nat.mod_eq_of_lt (by omega)]
    have heq : r = BitVec.ofNat 6 (n + 1) ↔ r.toNat = n + 1 := by rw [← BitVec.toNat_inj, hnum]
    rw [Core.putGs_succ, Core.getG_putG, Core.poisoned_putG]
    by_cases hlast : r.toNat = n + 1
    · have hr := heq.mpr hlast
      rw [if_pos ⟨hr, hr ▸ h0⟩, if_pos ⟨hr, hr ▸ h0⟩, hlast]
      exact ⟨rfl, rfl⟩
    · rw [if_neg (fun h => hlast (heq.mp h.1)), if_neg (fun h => hlast (heq.mp h.1))]
      exact ih (by omega) (by omega)

/-- All that writes of core registers can do. -/
theorem Core.putRegs_eq (l : List Nat) (j : Nat) : ∃ regs, q.putRegs val l j = { q with regs := regs } := by
  induction l generalizing q j with
  | nil => exact ⟨q.regs, rfl⟩
  | cons o l ih => exact ih (q.setReg o (val j)) (j + 1)

theorem Core.getG_putRegs (l : List Nat) (j : Nat) (r : GReg) : (q.putRegs val l j).getG r = q.getG r := by
  obtain ⟨regs, h⟩ := q.putRegs_eq val l j
  rw [h]
  rfl

theorem Core.reg_putRegs_of_notMem {l : List Nat} {o : Nat} (h : o ∉ l) (j : Nat) : (q.putRegs val l j).reg o = q.reg o := by
  induction l generalizing q j with
  | nil => rfl
  | cons a l ih =>
    obtain ⟨hne, hl⟩ := not_or.mp (fun hm => h (List.mem_cons.mpr hm))
    exact (ih (q.setReg a (val j)) hl (j + 1)).trans (Core.reg_setReg_ne _ _ hne)

/-- Where no register is named twice, each of them holds its value. -/
theorem Core.reg_putRegs {l : List Nat} (hd : l.Nodup) {n o : Nat} (h : l[n]? = some o) (j : Nat) :
    (q.putRegs val l j).reg o = val (j + n) := by
  induction l generalizing q j n with
  | nil => cases h
  | cons a l ih =>
    obtain ⟨ha, hd⟩ := List.nodup_cons.mp hd
    cases n with
    | zero =>
      obtain rfl : a = o := by simpa using h
      exact (Core.reg_putRegs_of_notMem (q.setReg a (val j)) val ha (j + 1)).trans (Core.reg_setReg_self _ _ _)
    | succ n =>
      have hrest := ih (q.setReg a (val j)) hd (by simpa using h) (j + 1)
      rwa [Nat.add_right_comm, Nat.add_assoc] at hrest

/-- All that the marks of the vector queue can do. -/
theorem Core.markQueue_eq : ∃ sb, q.markQueue = { q with sb := sb } := by
  refine List.foldlRecOn (motive := fun x : Core => ∃ sb, x = { q with sb := sb }) q.vq _ ⟨q.sb, rfl⟩ ?_
  rintro x ⟨sb, rfl⟩ e -
  split
  · unfold Core.markG
    split
    · exact ⟨sb, rfl⟩
    · exact ⟨_, rfl⟩
  · exact ⟨sb, rfl⟩

/-- All that the vector part of a frame can do. -/
theorem Core.putFrameVec_eq : ∃ vq feq sb, q.putFrameVec k c lo =
    { q with vl := BitVec.ofNat 13 (k.tileNat (lo + 0x598) 8), vq := vq, feq := feq, sb := sb, late := 0 } := by
  unfold Core.putFrameVec
  obtain ⟨sb, hq⟩ := Core.markQueue_eq _
  exact ⟨_, _, sb, hq⟩

@[simp] theorem Core.putFrameVec_g : (q.putFrameVec k c lo).g = q.g := by obtain ⟨_, _, _, h⟩ := q.putFrameVec_eq k c lo; rw [h]
@[simp] theorem Core.putFrameVec_c : (q.putFrameVec k c lo).c = q.c := by obtain ⟨_, _, _, h⟩ := q.putFrameVec_eq k c lo; rw [h]
@[simp] theorem Core.putFrameVec_scap : (q.putFrameVec k c lo).scap = q.scap := by obtain ⟨_, _, _, h⟩ := q.putFrameVec_eq k c lo; rw [h]
@[simp] theorem Core.putFrameVec_tile : (q.putFrameVec k c lo).tile = q.tile := by obtain ⟨_, _, _, h⟩ := q.putFrameVec_eq k c lo; rw [h]
@[simp] theorem Core.putFrameVec_tileTags : (q.putFrameVec k c lo).tileTags = q.tileTags := by
  obtain ⟨_, _, _, h⟩ := q.putFrameVec_eq k c lo; rw [h]
@[simp] theorem Core.putFrameVec_v : (q.putFrameVec k c lo).v = q.v := by obtain ⟨_, _, _, h⟩ := q.putFrameVec_eq k c lo; rw [h]
@[simp] theorem Core.putFrameVec_vl : (q.putFrameVec k c lo).vl = BitVec.ofNat 13 (k.tileNat (lo + 0x598) 8) := by
  obtain ⟨_, _, _, h⟩ := q.putFrameVec_eq k c lo; rw [h]
@[simp] theorem Core.reg_putFrameVec (o : Nat) : (q.putFrameVec k c lo).reg o = q.reg o := by
  obtain ⟨_, _, _, h⟩ := q.putFrameVec_eq k c lo; rw [h]; rfl

/-- All that the registers of a frame can do. -/
theorem Core.putFrameRegs_eq : ∃ g sb regs, q.putFrameRegs k lo = { q with g := g, sb := sb, regs := regs } := by
  unfold Core.putFrameRegs
  obtain ⟨regs', hregs⟩ := Core.putRegs_eq (q.putGs (k.savedG lo) (k.savedPois lo) 63) (k.savedReg lo) frameRegs 0
  obtain ⟨g, sb, regs, hgs⟩ := Core.putGs_eq q (k.savedG lo) (k.savedPois lo) 63
  rw [hregs, hgs]
  exact ⟨g, sb, regs', rfl⟩

@[simp] theorem Core.putFrameRegs_c : (q.putFrameRegs k lo).c = q.c := by obtain ⟨_, _, _, h⟩ := q.putFrameRegs_eq k lo; rw [h]
@[simp] theorem Core.putFrameRegs_scap : (q.putFrameRegs k lo).scap = q.scap := by obtain ⟨_, _, _, h⟩ := q.putFrameRegs_eq k lo; rw [h]
@[simp] theorem Core.putFrameRegs_tile : (q.putFrameRegs k lo).tile = q.tile := by obtain ⟨_, _, _, h⟩ := q.putFrameRegs_eq k lo; rw [h]
@[simp] theorem Core.putFrameRegs_tileTags : (q.putFrameRegs k lo).tileTags = q.tileTags := by
  obtain ⟨_, _, _, h⟩ := q.putFrameRegs_eq k lo; rw [h]
@[simp] theorem Core.putFrameRegs_v : (q.putFrameRegs k lo).v = q.v := by obtain ⟨_, _, _, h⟩ := q.putFrameRegs_eq k lo; rw [h]

theorem Core.reg_putFrameRegs {n r : Nat} (h : frameRegs[n]? = some r) : (q.putFrameRegs k lo).reg r = k.savedReg lo n := by
  rw [Core.putFrameRegs, Core.reg_putRegs _ _ (by decide) h, Nat.zero_add]

theorem Core.getG_poisoned_putFrameRegs {r : GReg} (h : r ≠ 0) :
    (q.putFrameRegs k lo).getG r = k.savedG lo (r.toNat - 1) ∧ (q.putFrameRegs k lo).poisoned r = k.savedPois lo (r.toNat - 1) := by
  obtain ⟨hval, hpois⟩ := q.getG_poisoned_putGs (k.savedG lo) (k.savedPois lo) (n := 63) (by decide) h
    (by have := r.isLt; omega)
  constructor
  · rw [← hval, Core.putFrameRegs, Core.getG_putRegs]
  · rw [← hpois, Core.poisoned, Core.poisoned, Core.putFrameRegs, Core.reg_putRegs_of_notMem _ _ (by decide)]

@[simp] theorem Core.putFrameCaps_tile : (q.putFrameCaps k lo).tile = q.tile := rfl
@[simp] theorem Core.putFrameCaps_tileTags : (q.putFrameCaps k lo).tileTags = q.tileTags := rfl
@[simp] theorem Core.putFrameCaps_v : (q.putFrameCaps k lo).v = q.v := rfl

end

/-! ## The restored core (R173 step 6, R174, R176) -/

/-- R170, R174: capability n of the frame at lo as it is restored: tagged only where its TAGMASK bit and its granule's tag are both 1
and it is well formed. -/
def Core.savedCap (k : Core) (lo n : Nat) : Cap :=
  let x : Cap := { bits := BitVec.ofNat 128 (k.tileNat (lo + 0x40 + 16 * n) 16),
                   tag := (k.tileNat lo 64 >>> 256).testBit n && k.tileTag (lo + 0x40 + 16 * n) }
  { x with tag := x.tagged }

theorem Core.frameCapsAt_getD (k : Core) (lo : Nat) {n : Nat} (h : n < 18) : (k.frameCapsAt lo).getD n {} = k.savedCap lo n := by
  have hbit : (bitsOf (k.tileNat lo 64) 273 256).testBit n = (k.tileNat lo 64 >>> 256).testBit n := by
    rw [testBit_bitsOf, Nat.testBit_shiftRight, decide_eq_true h, Bool.true_and]
  have hget : (k.frameCapsAt lo).getD n {} = k.frameCap lo (bitsOf (k.tileNat lo 64) 273 256) n := by
    simp [Core.frameCapsAt, h]
  rw [hget, Core.frameCap, hbit]
  rfl

section
variable (k : Core) (c : CoreId) (lo : Nat)

theorem Core.putFrameCaps_scap (q : Core) :
    (q.putFrameCaps k lo).scap = (q.scap.set 0 (k.resumePcc lo)).set 1 (k.savedCap lo 1) := by
  rw [← Core.frameCapsAt_getD k lo (by decide : 1 < 18)]
  rfl

theorem Core.putFrameCaps_getC (q : Core) (r : CReg) : (q.putFrameCaps k lo).getC r = k.savedCap lo (r.toNat + 2) := by
  have hr : r.toNat < 16 := r.isLt
  rw [← Core.frameCapsAt_getD k lo (by omega : r.toNat + 2 < 18)]
  exact Vector.getElem_ofFn hr

@[simp] theorem Core.restore_tile : (k.restore c lo).tile = k.tile := by simp [Core.restore_eq]
@[simp] theorem Core.restore_tileTags : (k.restore c lo).tileTags = k.tileTags := by simp [Core.restore_eq]
@[simp] theorem Core.restore_v : (k.restore c lo).v = k.v := by simp [Core.restore_eq]
@[simp] theorem Core.restore_pq : (k.restore c lo).pq = [] := by simp [Core.restore_eq]
@[simp] theorem Core.restore_vl : (k.restore c lo).vl = BitVec.ofNat 13 (k.tileNat (lo + 0x598) 8) := by simp [Core.restore_eq]
theorem Core.restore_c : (k.restore c lo).c = (k.putFrameCaps k lo).c := by simp [Core.restore_eq]
theorem Core.restore_g : (k.restore c lo).g = ((k.putFrameCaps k lo).putFrameRegs k lo).g := by simp [Core.restore_eq]

theorem Core.restore_scap : (k.restore c lo).scap =
    ((k.scap.set 0 (k.resumePcc lo)).set 1 (k.savedCap lo 1)).set 2 (k.escap.moved (lo + Config.frameBytes)) := by
  rw [← Core.putFrameCaps_scap]
  simp [Core.restore_eq, Core.setScap]

theorem Core.restore_pcc : (k.restore c lo).pcc = k.resumePcc lo := by simp [Core.pcc, Core.restore_scap]
theorem Core.restore_rscap : (k.restore c lo).rscap = k.savedCap lo 1 := by simp [Core.rscap, Core.restore_scap]
theorem Core.restore_escap : (k.restore c lo).escap = k.escap.moved (lo + Config.frameBytes) := by simp [Core.escap, Core.restore_scap]

theorem Core.restore_getC (r : CReg) : (k.restore c lo).getC r = k.savedCap lo (r.toNat + 2) := by
  rw [← Core.putFrameCaps_getC k lo k, Core.getC, Core.getC]
  simp only [Core.restore_c]

/-- The registers that the last steps of a restoration do not write. -/
theorem Core.restore_reg {o : Nat} (h : o ∉ [rEXSTAT, rEXCTL, rEXCNT, rSCFLUSH]) :
    (k.restore c lo).reg o = ((k.putFrameCaps k lo).putFrameRegs k lo).reg o := by
  simp only [List.mem_cons, List.not_mem_nil, or_false, not_or] at h
  obtain ⟨hstat, hctl, hcnt, hflush⟩ := h
  rw [Core.restore_eq, Core.reg_flushQueue_ne _ hflush, Core.reg_count_ne _ _ _ _ hcnt, Core.reg_setFld_ne _ _ _ _ hctl,
    Core.reg_setFld_ne _ _ _ _ hstat, Core.reg_setScap, Core.reg_putFrameVec]

theorem Core.restore_frameRegs {n r : Nat} (h : frameRegs[n]? = some r) : (k.restore c lo).reg r = k.savedReg lo n := by
  have hout : ∀ r ∈ frameRegs, r ∉ [rEXSTAT, rEXCTL, rEXCNT, rSCFLUSH] := by decide
  rw [Core.restore_reg k c lo (hout r (List.mem_of_getElem? h)), Core.reg_putFrameRegs _ _ _ h]

theorem Core.restore_getG {r : GReg} (h : r ≠ 0) :
    (k.restore c lo).getG r = BitVec.ofNat 64 (k.tileNat (lo + 0x358 + 8 * r.toNat) 8) ∧
    (k.restore c lo).poisoned r = k.tilePois (lo + 0x358 + 8 * r.toNat) 8 := by
  have hpos : r.toNat ≠ 0 := fun h0 => h (BitVec.eq_of_toNat_eq h0)
  have haddr : lo + 0x358 + 8 * r.toNat = lo + 0x360 + 8 * (r.toNat - 1) := by omega
  obtain ⟨hval, hpois⟩ := (k.putFrameCaps k lo).getG_poisoned_putFrameRegs k lo h
  rw [haddr]
  constructor
  · refine Eq.trans ?_ hval
    simp only [Core.getG, Core.restore_g]
  · refine Eq.trans ?_ hpois
    rw [Core.poisoned, Core.restore_reg k c lo (by decide), Core.poisoned]

theorem Core.restore_fld_EXSTAT {hi lo' : Nat} (hle : lo' ≤ hi) (hhi : hi ≤ 2) :
    (k.restore c lo).fld rEXSTAT hi lo' = bitsOf (bitsOf (k.tileNat lo 64) 9 8) hi lo' := by
  rw [Core.restore_eq, Core.fld_congr (Core.reg_flushQueue_ne _ (by decide)), Core.fld_congr (Core.reg_count_ne _ _ _ _ (by decide)),
    Core.fld_congr (Core.reg_setFld_ne _ _ _ _ (by decide)), Core.fld_setFld_within _ _ _ (Nat.zero_le lo') hle hhi (by decide)]
  rfl

theorem Core.restore_fld_EXCTL {hi lo' : Nat} (hle : lo' ≤ hi) (hhi : hi ≤ 1) :
    (k.restore c lo).fld rEXCTL hi lo' = bitsOf (bitsOf (k.tileNat lo 64) 24 24) hi lo' := by
  rw [Core.restore_eq, Core.fld_congr (Core.reg_flushQueue_ne _ (by decide)), Core.fld_congr (Core.reg_count_ne _ _ _ _ (by decide)),
    Core.fld_setFld_within _ _ _ (Nat.zero_le lo') hle hhi (by decide)]
  rfl

theorem Core.restore_depth : (k.restore c lo).depth = bitsOf (k.tileNat lo 64) 9 8 :=
  (k.restore_fld_EXSTAT c lo (by decide) (by decide)).trans (bitsOf_eq_self (bitsOf_lt _ 9 8))

/-- R173 step 6: FBACTIVE clears. -/
theorem Core.restore_fbactive : (k.restore c lo).fld rEXSTAT 2 2 = 0 :=
  (k.restore_fld_EXSTAT c lo (Nat.le_refl _) (Nat.le_refl _)).trans (bitsOf_eq_zero 2 (bitsOf_lt _ 9 8))

theorem Core.restore_ie : (k.restore c lo).fld rEXCTL 0 0 = bitsOf (k.tileNat lo 64) 24 24 :=
  (k.restore_fld_EXCTL c lo (Nat.le_refl _) (by decide)).trans (bitsOf_eq_self (bitsOf_lt _ 24 24))

/-- R173 step 6: SKIP clears. -/
theorem Core.restore_skip : (k.restore c lo).fld rEXCTL 1 1 = 0 :=
  (k.restore_fld_EXCTL c lo (Nat.le_refl _) (Nat.le_refl _)).trans (bitsOf_eq_zero 1 (bitsOf_lt _ 24 24))

/-- R176: SKIP goes past the bundle of a fault. -/
theorem Core.resumePcc_eq : k.resumePcc lo =
    if k.fld rEXCTL 1 1 = 1 ∧ bitsOf (k.tileNat lo 64) 55 48 = 0
    then (k.savedCap lo 0).moved ((k.savedCap lo 0).addr + 4 * bitsOf (k.tileNat lo 64) 63 56) else k.savedCap lo 0 := by
  rw [Core.resumePcc, Core.frameCapsAt_getD k lo (by decide)]
  simp only [Bool.and_eq_true, decide_eq_true_eq]

end

/-- q has what k's frame at lo holds, ESCAP above the frame, and the tile memory and vector registers of k (R173 step 6, R174, R176). -/
structure Core.RestoredFrom (q k : Core) (lo : Nat) : Prop where
  pcc : q.pcc = if k.fld rEXCTL 1 1 = 1 ∧ bitsOf (k.tileNat lo 64) 55 48 = 0
    then (k.savedCap lo 0).moved ((k.savedCap lo 0).addr + 4 * bitsOf (k.tileNat lo 64) 63 56) else k.savedCap lo 0
  rscap : q.rscap = k.savedCap lo 1
  getC : ∀ r : CReg, q.getC r = k.savedCap lo (r.toNat + 2)
  escap : q.escap = k.escap.moved (lo + Config.frameBytes)
  getG : ∀ r : GReg, r ≠ 0 → q.getG r = BitVec.ofNat 64 (k.tileNat (lo + 0x358 + 8 * r.toNat) 8) ∧
    q.poisoned r = k.tilePois (lo + 0x358 + 8 * r.toNat) 8
  frameRegs : ∀ n r : Nat, frameRegs[n]? = some r → q.reg r = k.savedReg lo n
  vl : q.vl = BitVec.ofNat 13 (k.tileNat (lo + 0x598) 8)
  depth : q.depth = bitsOf (k.tileNat lo 64) 9 8
  fbactive : q.fld rEXSTAT 2 2 = 0
  ie : q.fld rEXCTL 0 0 = bitsOf (k.tileNat lo 64) 24 24
  skip : q.fld rEXCTL 1 1 = 0
  tile : q.tile = k.tile
  tileTags : q.tileTags = k.tileTags
  pq : q.pq = []
  v : q.v = k.v

theorem Core.restore_restoredFrom (k : Core) (c : CoreId) (lo : Nat) : (k.restore c lo).RestoredFrom k lo where
  pcc := (k.restore_pcc c lo).trans (k.resumePcc_eq lo)
  rscap := k.restore_rscap c lo
  getC := k.restore_getC c lo
  escap := k.restore_escap c lo
  getG _ := k.restore_getG c lo
  frameRegs _ _ := k.restore_frameRegs c lo
  vl := k.restore_vl c lo
  depth := k.restore_depth c lo
  fbactive := k.restore_fbactive c lo
  ie := k.restore_ie c lo
  skip := k.restore_skip c lo
  tile := k.restore_tile c lo
  tileTags := k.restore_tileTags c lo
  pq := k.restore_pq c lo
  v := k.restore_v c lo

/-- Of the core before a jump only PCC and a held bundle differ, and a restoration takes neither. -/
theorem Core.RestoredFrom.of_advance {q k : Core} {n lo : Nat} (h : q.RestoredFrom (k.advance n true) lo) : q.RestoredFrom k lo :=
  have hescap : (k.advance n true).escap = k.escap := by
    show (k.scap.set 0 _)[2] = k.scap[2]
    simp
  { h with escap := hescap ▸ h.escap }

theorem Core.RestoredFrom.setHeld {q k : Core} {lo : Nat} (h : q.RestoredFrom k lo) (x : Option HeldAt) :
    ({ q with held := x } : Core).RestoredFrom k lo :=
  { h with }

/-! ## eret (R173 to R176) -/

section
variable {c : CoreId} {s : State}

theorem eret_doesHold (h : (s.core c).storeBuf ≠ [] ∨ (s.core c).vq ≠ []) : s.doesHold c (.eret c) .eret := by
  intro ht
  have hu : issueOf (.eret c) 1 s = .hold .eret := if_pos (by simpa using h)
  exact ⟨_, rfl, issueOne_hold ht rfl hu (by decide) (by decide)⟩

theorem eret_doesFault_of_depth_zero (hsb : (s.core c).storeBuf = []) (hvq : (s.core c).vq = []) (hd : (s.core c).depth = 0) :
    s.doesFault c (.eret c) 0x1053 0 := by
  intro ht
  have hu : issueOf (.eret c) 1 s = .fault 0x1053 0 := (if_neg (by simp [hsb, hvq])).trans (if_pos hd)
  exact ⟨_, rfl, issueOne_fault ht rfl hu (by decide)⟩

/-- R173: an eret whose frame passes its checks restores it. -/
theorem exec_eret_of_sound (ht : s.takes c (.eret c) = true) (hsb : (s.core c).storeBuf = []) (hvq : (s.core c).vq = [])
    (hd : (s.core c).depth ≠ 0) (hok : (s.core c).escapOk (s.core c).escap.addr = true)
    (hsound : (s.core c).frameSound (s.core c).escap.addr = true) (hseal : (s.core c).sealMatches (s.core c).escap.addr = true) :
    ∃ q : Core, exec (.eret c) s = .next (s.setCore c q) ∧ q.held = none ∧ q.RestoredFrom (s.core c) (s.core c).escap.addr := by
  have hu : issueOf (.eret c) 1 s = goCore c (fun q => { q.restore c (s.core c).escap.addr with held := none }) :=
    (if_neg (by simp [hsb, hvq])).trans ((if_neg hd).trans (if_neg (by simp [hok, hsound, hseal])))
  have hone : s.issueOne c (.eret c) = s.jumped c (.eret c) (fun q => { q.restore c (s.core c).escap.addr with held := none }) :=
    issueOne_jumped ht rfl (by decide) rfl hu (fun _ => rfl)
  refine ⟨{ ((s.core c).advance 1 true).restore c (s.core c).escap.addr with held := none }, congrArg Host.Outcome.next hone, rfl, ?_⟩
  exact (Core.restore_restoredFrom _ c _).of_advance.setHeld none

end

/-- Settles O14: eret waits, faults at depth 0, or leaves a core restored from the frame at ESCAP. -/
theorem eret : Obligations.Eret := by
  intro c s k0 lo h raw cap
  refine ⟨eret_doesHold, fun hsb hvq => ⟨eret_doesFault_of_depth_zero hsb hvq, fun hd hok hsound hseal ht => ?_⟩⟩
  obtain ⟨q, hexec, hheld, hq⟩ := exec_eret_of_sound ht hsb hvq hd hok hsound hseal
  exact ⟨q, hexec, hq.pcc, hq.rscap, hq.getC, hq.escap, hq.getG, hq.frameRegs, hq.vl, hq.depth, hq.fbactive, hq.ie, hq.skip, hq.tile,
    hq.tileTags, hq.pq, hheld, hq.v⟩

end Sys2Proof.Machine
